-- ==== Sys2Proof/Word.lean ====
section
/-! DEFINITION. Word: the word types of the part (R2) and their plainest arithmetic. -/

namespace Sys2Proof

/-- A byte of memory. -/
abbrev Byte := BitVec 8
/-- A 32-bit register word. -/
abbrev Word := BitVec 32
/-- A 64-bit address or register pair. -/
abbrev DWord := BitVec 64

end Sys2Proof
end

