-- ==== Sys2Proof/Syntax.lean ====
section
/-! DEFINITION. Syntax: the prefix word and control fields of an instruction (R33, R42), the names of the
package's parts (R8), and the inductive of its steps. -/

namespace Sys2Proof

/-- The prefix word of format X (R33, R42). -/
structure Pfx where
  guard5 : BitVec 5 := 0
  nf : Bool := false
  rm : BitVec 2 := 0
  w64 : Bool := false
  scope : BitVec 3 := 0
  immext : BitVec 13 := 0
deriving DecidableEq, Repr

/-- The control fields an instruction may carry beside its operands: its prefix and the low fields of its
format (R33, R41). A field the format does not have is 0. -/
structure Ctl where
  pfx : Option Pfx := none
  g : BitVec 2 := 0
  s : BitVec 2 := 0
  h : BitVec 2 := 0
  ord : BitVec 2 := 0
  sc : BitVec 2 := 0
  fzi : Bool := false
  fzo : Bool := false
deriving DecidableEq, Repr

/-- A core, by die index of the package and core number (R8). -/
structure CoreId where
  die : Nat
  core : Nat
deriving DecidableEq, Repr

/-- A partition 0-3 of a core (R8). -/
structure PartId where
  die : Nat
  core : Nat
  part : Nat
deriving DecidableEq, Repr

/-- A group by the slot it occupies (R270). -/
structure GroupId where
  die : Nat
  core : Nat
  slot : Nat
deriving DecidableEq, Repr

/-- A thread: thread index `t` of the group in a slot; `sh` marks the shadow copy of a lane pair (R281). -/
structure ThreadId where
  die : Nat
  core : Nat
  slot : Nat
  t : Nat
  sh : Bool
deriving DecidableEq, Repr

/-- The engines of R202: the copy engine of a core, or a cluster's chain engine, prefix-sum engine or tile walker. -/
inductive EngineId where
  | copy (die core : Nat)
  | chain (die cluster : Nat)
  | psum (die cluster : Nat)
  | walk (die cluster : Nat)
deriving DecidableEq, Repr


/-- One step of the package: one constructor per row of spec/opcode_table.json, the instructions of R44 and R45 first, then the events. -/
inductive Instr where
  /-- ADD (R113). -/
  | add (ct : Ctl) (d : BitVec 7) (a : BitVec 7) (b : BitVec 7)
  /-- SUB (R113). -/
  | sub (ct : Ctl) (d : BitVec 7) (a : BitVec 7) (b : BitVec 7)
  /-- MUL (R113). -/
  | mul (ct : Ctl) (d : BitVec 7) (a : BitVec 7) (b : BitVec 7)
  /-- MULH (R113). -/
  | mulh (ct : Ctl) (d : BitVec 7) (a : BitVec 7) (b : BitVec 7)
  /-- MULHU (R113). -/
  | mulhu (ct : Ctl) (d : BitVec 7) (a : BitVec 7) (b : BitVec 7)
  /-- DIV (R115). -/
  | div (ct : Ctl) (d : BitVec 7) (a : BitVec 7) (b : BitVec 7)
  /-- DIVU (R115). -/
  | divu (ct : Ctl) (d : BitVec 7) (a : BitVec 7) (b : BitVec 7)
  /-- REM (R115). -/
  | rem (ct : Ctl) (d : BitVec 7) (a : BitVec 7) (b : BitVec 7)
  /-- REMU (R115). -/
  | remu (ct : Ctl) (d : BitVec 7) (a : BitVec 7) (b : BitVec 7)
  /-- AND (R113). -/
  | and (ct : Ctl) (d : BitVec 7) (a : BitVec 7) (b : BitVec 7)
  /-- OR (R113). -/
  | or (ct : Ctl) (d : BitVec 7) (a : BitVec 7) (b : BitVec 7)
  /-- XOR (R113). -/
  | xor (ct : Ctl) (d : BitVec 7) (a : BitVec 7) (b : BitVec 7)
  /-- ANDN (R113). -/
  | andn (ct : Ctl) (d : BitVec 7) (a : BitVec 7) (b : BitVec 7)
  /-- SHL (R113). -/
  | shl (ct : Ctl) (d : BitVec 7) (a : BitVec 7) (b : BitVec 7)
  /-- SHR (R113). -/
  | shr (ct : Ctl) (d : BitVec 7) (a : BitVec 7) (b : BitVec 7)
  /-- SRA (R113). -/
  | sra (ct : Ctl) (d : BitVec 7) (a : BitVec 7) (b : BitVec 7)
  /-- ROL (R113). -/
  | rol (ct : Ctl) (d : BitVec 7) (a : BitVec 7) (b : BitVec 7)
  /-- MIN (R113). -/
  | min (ct : Ctl) (d : BitVec 7) (a : BitVec 7) (b : BitVec 7)
  /-- MAX (R113). -/
  | max (ct : Ctl) (d : BitVec 7) (a : BitVec 7) (b : BitVec 7)
  /-- MINU (R113). -/
  | minu (ct : Ctl) (d : BitVec 7) (a : BitVec 7) (b : BitVec 7)
  /-- MAXU (R113). -/
  | maxu (ct : Ctl) (d : BitVec 7) (a : BitVec 7) (b : BitVec 7)
  /-- MAD (R113). -/
  | mad (ct : Ctl) (d : BitVec 7) (a : BitVec 7) (b : BitVec 7)
  /-- BFX (R116). -/
  | bfx (ct : Ctl) (d : BitVec 7) (a : BitVec 7) (b : BitVec 7)
  /-- BFI (R116). -/
  | bfi (ct : Ctl) (d : BitVec 7) (a : BitVec 7) (b : BitVec 7)
  /-- SEL (R117). -/
  | sel (ct : Ctl) (d : BitVec 7) (a : BitVec 7) (b : BitVec 7)
  /-- ADD64 (R114). -/
  | add64 (ct : Ctl) (d : BitVec 7) (a : BitVec 7) (b : BitVec 7)
  /-- SUB64 (R114). -/
  | sub64 (ct : Ctl) (d : BitVec 7) (a : BitVec 7) (b : BitVec 7)
  /-- SLT (R113). -/
  | slt (ct : Ctl) (d : BitVec 7) (a : BitVec 7) (b : BitVec 7)
  /-- SLTU (R113). -/
  | sltu (ct : Ctl) (d : BitVec 7) (a : BitVec 7) (b : BitVec 7)
  /-- SEQ (R113). -/
  | seq (ct : Ctl) (d : BitVec 7) (a : BitVec 7) (b : BitVec 7)
  /-- MOV (R118). -/
  | mov (ct : Ctl) (d : BitVec 7) (a : BitVec 7)
  /-- NOT (R118). -/
  | not (ct : Ctl) (d : BitVec 7) (a : BitVec 7)
  /-- NEG (R118). -/
  | neg (ct : Ctl) (d : BitVec 7) (a : BitVec 7)
  /-- ABS (R118). -/
  | abs (ct : Ctl) (d : BitVec 7) (a : BitVec 7)
  /-- CLZ (R118). -/
  | clz (ct : Ctl) (d : BitVec 7) (a : BitVec 7)
  /-- CTZ (R118). -/
  | ctz (ct : Ctl) (d : BitVec 7) (a : BitVec 7)
  /-- POPC (R118). -/
  | popc (ct : Ctl) (d : BitVec 7) (a : BitVec 7)
  /-- BREV (R118). -/
  | brev (ct : Ctl) (d : BitVec 7) (a : BitVec 7)
  /-- SEXT8 (R118). -/
  | sext8 (ct : Ctl) (d : BitVec 7) (a : BitVec 7)
  /-- SEXT16 (R118). -/
  | sext16 (ct : Ctl) (d : BitVec 7) (a : BitVec 7)
  /-- ZEXT8 (R118). -/
  | zext8 (ct : Ctl) (d : BitVec 7) (a : BitVec 7)
  /-- ZEXT16 (R118). -/
  | zext16 (ct : Ctl) (d : BitVec 7) (a : BitVec 7)
  /-- BSWAP (R118). -/
  | bswap (ct : Ctl) (d : BitVec 7) (a : BitVec 7)
  /-- MOV64 (R118). -/
  | mov64 (ct : Ctl) (d : BitVec 7) (a : BitVec 7)
  /-- ADDI (R119). -/
  | addi (ct : Ctl) (d : BitVec 7) (a : BitVec 7) (i : BitVec 9)
  /-- ANDI (R119). -/
  | andi (ct : Ctl) (d : BitVec 7) (a : BitVec 7) (i : BitVec 9)
  /-- ORI (R119). -/
  | ori (ct : Ctl) (d : BitVec 7) (a : BitVec 7) (i : BitVec 9)
  /-- XORI (R119). -/
  | xori (ct : Ctl) (d : BitVec 7) (a : BitVec 7) (i : BitVec 9)
  /-- SHLI (R119). -/
  | shli (ct : Ctl) (d : BitVec 7) (a : BitVec 7) (i : BitVec 9)
  /-- SHRI (R119). -/
  | shri (ct : Ctl) (d : BitVec 7) (a : BitVec 7) (i : BitVec 9)
  /-- SRAI (R119). -/
  | srai (ct : Ctl) (d : BitVec 7) (a : BitVec 7) (i : BitVec 9)
  /-- MULI (R119). -/
  | muli (ct : Ctl) (d : BitVec 7) (a : BitVec 7) (i : BitVec 9)
  /-- SLTI (R119). -/
  | slti (ct : Ctl) (d : BitVec 7) (a : BitVec 7) (i : BitVec 9)
  /-- SLTUI (R119). -/
  | sltui (ct : Ctl) (d : BitVec 7) (a : BitVec 7) (i : BitVec 9)
  /-- SEQI (R119). -/
  | seqi (ct : Ctl) (d : BitVec 7) (a : BitVec 7) (i : BitVec 9)
  /-- MINI (R119). -/
  | mini (ct : Ctl) (d : BitVec 7) (a : BitVec 7) (i : BitVec 9)
  /-- MAXI (R119). -/
  | maxi (ct : Ctl) (d : BitVec 7) (a : BitVec 7) (i : BitVec 9)
  /-- LI (R91). -/
  | li (ct : Ctl) (d : BitVec 7) (i : BitVec 18)
  /-- LIH (R91). -/
  | lih (ct : Ctl) (d : BitVec 7) (i : BitVec 18)
  /-- CMP (R92). -/
  | cmp (ct : Ctl) (p : BitVec 4) (c : BitVec 3) (a : BitVec 7) (b : BitVec 7)
  /-- CMPI (R92). -/
  | cmpi (ct : Ctl) (p : BitVec 4) (c : BitVec 3) (a : BitVec 7) (i : BitVec 9)
  /-- PAND (R93). -/
  | pand (ct : Ctl) (d : BitVec 4) (p : BitVec 4) (q : BitVec 4)
  /-- POR (R93). -/
  | por (ct : Ctl) (d : BitVec 4) (p : BitVec 4) (q : BitVec 4)
  /-- PXOR (R93). -/
  | pxor (ct : Ctl) (d : BitVec 4) (p : BitVec 4) (q : BitVec 4)
  /-- PANDN (R93). -/
  | pandn (ct : Ctl) (d : BitVec 4) (p : BitVec 4) (q : BitVec 4)
  /-- PORN (R93). -/
  | porn (ct : Ctl) (d : BitVec 4) (p : BitVec 4) (q : BitVec 4)
  /-- PMV (R93). -/
  | pmv (ct : Ctl) (d : BitVec 4) (p : BitVec 4)
  /-- PNOT (R93). -/
  | pnot (ct : Ctl) (d : BitVec 4) (p : BitVec 4)
  /-- PSET (R93). -/
  | pset (ct : Ctl) (d : BitVec 4)
  /-- PCLR (R93). -/
  | pclr (ct : Ctl) (d : BitVec 4)
  /-- PMOV_TO_REGISTER (R94). -/
  | pmovToRegister (ct : Ctl) (d : BitVec 7)
  /-- PMOV_FROM_REGISTER (R94). -/
  | pmovFromRegister (ct : Ctl) (a : BitVec 7)
  /-- BR (R95). -/
  | br (p : BitVec 4) (v : BitVec 1) (o : BitVec 20)
  /-- JMP (R95). -/
  | jmp (o : BitVec 25)
  /-- CALL (R96). -/
  | call (o : BitVec 25)
  /-- CALLR (R96). -/
  | callr (ct : Ctl) (a : BitVec 7)
  /-- JR (R97). -/
  | jr (ct : Ctl) (a : BitVec 7)
  /-- NOP (R99). -/
  | nop (ct : Ctl)
  /-- RET (R96). -/
  | ret (ct : Ctl)
  /-- EXIT (R99). -/
  | exit (ct : Ctl)
  /-- YIELD (R99). -/
  | yield (ct : Ctl)
  /-- TRAP (R100). -/
  | trap (ct : Ctl) (n : BitVec 7)
  /-- BRK (R100). -/
  | brk (ct : Ctl)
  /-- ERET (R89). -/
  | eret (ct : Ctl)
  /-- SAFEPT (R101). -/
  | safept (ct : Ctl) (h : BitVec 1) (n : BitVec 7)
  /-- WIN (R102). -/
  | win (ct : Ctl) (k : BitVec 7)
  /-- MWAIT (R103). -/
  | mwait (ct : Ctl) (d : BitVec 7) (a : BitVec 7)
  /-- CYC (R104). -/
  | cyc (ct : Ctl) (d : BitVec 7)
  /-- CYCH (R104). -/
  | cych (ct : Ctl) (d : BitVec 7)
  /-- GETSR (R105). -/
  | getsr (ct : Ctl) (d : BitVec 7) (a : BitVec 7)
  /-- SETSR (R105). -/
  | setsr (ct : Ctl) (d : BitVec 7) (a : BitVec 7)
  /-- LOOP_CNT (R146). -/
  | loopCnt (a : BitVec 7) (l : BitVec 8) (r : BitVec 3)
  /-- LOOP_PIPE (R146). -/
  | loopPipe (a : BitVec 7) (l : BitVec 8) (s : BitVec 3) (r : BitVec 3)
  /-- LOOP_WHILE (R146). -/
  | loopWhile (p : BitVec 4) (l : BitVec 8) (r : BitVec 3)
  /-- LEXIT (R151). -/
  | lexit (ct : Ctl)
  /-- LBRK (R151). -/
  | lbrk (ct : Ctl)
  /-- LRD (R152). -/
  | lrd (ct : Ctl) (d : BitVec 7) (p : BitVec 3) (i : BitVec 2)
  /-- LWR (R153). -/
  | lwr (ct : Ctl) (p : BitVec 3) (i : BitVec 2) (a : BitVec 7)
  /-- CAP (R162). -/
  | cap (c : BitVec 4) (r : BitVec 1) (n : BitVec 4) (a : BitVec 7) (e : BitVec 7)
  /-- APPLY (R163). -/
  | apply (ct : Ctl) (k : BitVec 4)
  /-- CPIN (R166). -/
  | cpin (ct : Ctl) (k : BitVec 4)
  /-- CDROP (R166). -/
  | cdrop (ct : Ctl) (k : BitVec 4)
  /-- CMOV (R166). -/
  | cmov (ct : Ctl) (d : BitVec 4) (a : BitVec 4)
  /-- CST (R166). -/
  | cst (ct : Ctl) (d : BitVec 7) (k : BitVec 4)
  /-- CLD (R166). -/
  | cld (ct : Ctl) (k : BitVec 4) (a : BitVec 7)
  /-- CENV (R166). -/
  | cenv (ct : Ctl) (d : BitVec 7) (k : BitVec 4)
  /-- CLIVE (R166). -/
  | clive (ct : Ctl) (p : BitVec 4) (k : BitVec 4)
  /-- FREF (R168). -/
  | fref (ct : Ctl) (d : BitVec 7) (a : BitVec 7)
  /-- XGET (R108). -/
  | xget (ct : Ctl) (d : BitVec 7) (k : BitVec 2) (o : BitVec 5)
  /-- XPUT (R108). -/
  | xput (ct : Ctl) (d : BitVec 7) (k : BitVec 2) (o : BitVec 5)
  /-- FADD (R121). -/
  | fadd (ct : Ctl) (d : BitVec 7) (a : BitVec 7) (b : BitVec 7)
  /-- FSUB (R121). -/
  | fsub (ct : Ctl) (d : BitVec 7) (a : BitVec 7) (b : BitVec 7)
  /-- FMUL (R121). -/
  | fmul (ct : Ctl) (d : BitVec 7) (a : BitVec 7) (b : BitVec 7)
  /-- FMA (R121). -/
  | fma (ct : Ctl) (d : BitVec 7) (a : BitVec 7) (b : BitVec 7)
  /-- FNMA (R121). -/
  | fnma (ct : Ctl) (d : BitVec 7) (a : BitVec 7) (b : BitVec 7)
  /-- FMIN (R123). -/
  | fmin (ct : Ctl) (d : BitVec 7) (a : BitVec 7) (b : BitVec 7)
  /-- FMAX (R123). -/
  | fmax (ct : Ctl) (d : BitVec 7) (a : BitVec 7) (b : BitVec 7)
  /-- FDIV (R121). -/
  | fdiv (ct : Ctl) (d : BitVec 7) (a : BitVec 7) (b : BitVec 7)
  /-- FSQRT (R121). -/
  | fsqrt (ct : Ctl) (d : BitVec 7) (a : BitVec 7)
  /-- FABS (R125). -/
  | fabs (ct : Ctl) (d : BitVec 7) (a : BitVec 7)
  /-- FNEG (R125). -/
  | fneg (ct : Ctl) (d : BitVec 7) (a : BitVec 7)
  /-- FRCP (R127). -/
  | frcp (ct : Ctl) (d : BitVec 7) (a : BitVec 7)
  /-- FRSQ (R127). -/
  | frsq (ct : Ctl) (d : BitVec 7) (a : BitVec 7)
  /-- FEXP2 (R127). -/
  | fexp2 (ct : Ctl) (d : BitVec 7) (a : BitVec 7)
  /-- FLOG2 (R127). -/
  | flog2 (ct : Ctl) (d : BitVec 7) (a : BitVec 7)
  /-- FSINPI (R127). -/
  | fsinpi (ct : Ctl) (d : BitVec 7) (a : BitVec 7)
  /-- FCOSPI (R127). -/
  | fcospi (ct : Ctl) (d : BitVec 7) (a : BitVec 7)
  /-- FTANH (R127). -/
  | ftanh (ct : Ctl) (d : BitVec 7) (a : BitVec 7)
  /-- FFLOOR (R125). -/
  | ffloor (ct : Ctl) (d : BitVec 7) (a : BitVec 7)
  /-- FCEIL (R125). -/
  | fceil (ct : Ctl) (d : BitVec 7) (a : BitVec 7)
  /-- FTRUNC (R125). -/
  | ftrunc (ct : Ctl) (d : BitVec 7) (a : BitVec 7)
  /-- FRINT (R125). -/
  | frint (ct : Ctl) (d : BitVec 7) (a : BitVec 7)
  /-- FCLASS (R126). -/
  | fclass (ct : Ctl) (d : BitVec 7) (a : BitVec 7)
  /-- FCVT_F32_I32 (R128). -/
  | fcvtF32I32 (ct : Ctl) (d : BitVec 7) (a : BitVec 7)
  /-- FCVT_F32_UI32 (R128). -/
  | fcvtF32Ui32 (ct : Ctl) (d : BitVec 7) (a : BitVec 7)
  /-- FCVT_I32_F32 (R58). -/
  | fcvtI32F32 (ct : Ctl) (d : BitVec 7) (a : BitVec 7)
  /-- FCVT_I32R_F32 (R58). -/
  | fcvtI32rF32 (ct : Ctl) (d : BitVec 7) (a : BitVec 7)
  /-- FCVT_UI32_F32 (R58). -/
  | fcvtUi32F32 (ct : Ctl) (d : BitVec 7) (a : BitVec 7)
  /-- FCVT_F16_F32 (R128). -/
  | fcvtF16F32 (ct : Ctl) (d : BitVec 7) (a : BitVec 7)
  /-- FCVT_F32_F16 (R59). -/
  | fcvtF32F16 (ct : Ctl) (d : BitVec 7) (a : BitVec 7)
  /-- FCVT_BF16_F32 (R128). -/
  | fcvtBf16F32 (ct : Ctl) (d : BitVec 7) (a : BitVec 7)
  /-- FCVT_F32_BF16 (R59). -/
  | fcvtF32Bf16 (ct : Ctl) (d : BitVec 7) (a : BitVec 7)
  /-- FCVT_E4M3_F32 (R60). -/
  | fcvtE4m3F32 (ct : Ctl) (d : BitVec 7) (a : BitVec 7)
  /-- FCVT_E4M3N_F32 (R60). -/
  | fcvtE4m3nF32 (ct : Ctl) (d : BitVec 7) (a : BitVec 7)
  /-- FCVT_E5M2_F32 (R60). -/
  | fcvtE5m2F32 (ct : Ctl) (d : BitVec 7) (a : BitVec 7)
  /-- FCVT_F32_E4M3 (R59). -/
  | fcvtF32E4m3 (ct : Ctl) (d : BitVec 7) (a : BitVec 7) (n : BitVec 2)
  /-- FCVT_F32_E5M2 (R59). -/
  | fcvtF32E5m2 (ct : Ctl) (d : BitVec 7) (a : BitVec 7) (n : BitVec 2)
  /-- FCVT_F32_F64 (R59). -/
  | fcvtF32F64 (ct : Ctl) (d : BitVec 7) (a : BitVec 7)
  /-- FCVT_F64_F32 (R59). -/
  | fcvtF64F32 (ct : Ctl) (d : BitVec 7) (a : BitVec 7)
  /-- FCVT_F64_I32 (R58). -/
  | fcvtF64I32 (ct : Ctl) (d : BitVec 7) (a : BitVec 7)
  /-- FCVT_I32_F64 (R58). -/
  | fcvtI32F64 (ct : Ctl) (d : BitVec 7) (a : BitVec 7)
  /-- FCMP (R129). -/
  | fcmp (ct : Ctl) (p : BitVec 4) (c : BitVec 3) (a : BitVec 7) (b : BitVec 7)
  /-- HFMA2 (R121). -/
  | hfma2 (ct : Ctl) (d : BitVec 7) (a : BitVec 7) (b : BitVec 7)
  /-- HADD2 (R121). -/
  | hadd2 (ct : Ctl) (d : BitVec 7) (a : BitVec 7) (b : BitVec 7)
  /-- HMUL2 (R121). -/
  | hmul2 (ct : Ctl) (d : BitVec 7) (a : BitVec 7) (b : BitVec 7)
  /-- BFMA2 (R121). -/
  | bfma2 (ct : Ctl) (d : BitVec 7) (a : BitVec 7) (b : BitVec 7)
  /-- DADD (R124). -/
  | dadd (ct : Ctl) (d : BitVec 7) (a : BitVec 7) (b : BitVec 7)
  /-- DMUL (R124). -/
  | dmul (ct : Ctl) (d : BitVec 7) (a : BitVec 7) (b : BitVec 7)
  /-- DFMA (R124). -/
  | dfma (ct : Ctl) (d : BitVec 7) (a : BitVec 7) (b : BitVec 7)
  /-- DSUB (R124). -/
  | dsub (ct : Ctl) (d : BitVec 7) (a : BitVec 7)
  /-- DMIN (R124). -/
  | dmin (ct : Ctl) (d : BitVec 7) (a : BitVec 7)
  /-- DMAX (R124). -/
  | dmax (ct : Ctl) (d : BitVec 7) (a : BitVec 7)
  /-- DDIV (R124). -/
  | ddiv (ct : Ctl) (d : BitVec 7) (a : BitVec 7)
  /-- DSQRT (R124). -/
  | dsqrt (ct : Ctl) (d : BitVec 7) (a : BitVec 7)
  /-- DNEG (R124). -/
  | dneg (ct : Ctl) (d : BitVec 7) (a : BitVec 7)
  /-- DABS (R124). -/
  | dabs (ct : Ctl) (d : BitVec 7) (a : BitVec 7)
  /-- DP4 (R120). -/
  | dp4 (ct : Ctl) (d : BitVec 7) (a : BitVec 7) (b : BitVec 7)
  /-- QPUSH (R294). -/
  | qpush (ct : Ctl) (d : BitVec 7) (a : BitVec 7) (b : BitVec 7)
  /-- QTRY (R294). -/
  | qtry (ct : Ctl) (d : BitVec 7) (a : BitVec 7) (b : BitVec 7)
  /-- QSPAWN (R295). -/
  | qspawn (ct : Ctl) (d : BitVec 7) (a : BitVec 7) (b : BitVec 7)
  /-- QLEN (R294). -/
  | qlen (ct : Ctl) (d : BitVec 7) (a : BitVec 7)
  /-- ANN (R335). -/
  | ann (ct : Ctl) (d : BitVec 7) (a : BitVec 7) (b : BitVec 7)
  /-- WDR (R336). -/
  | wdr (ct : Ctl) (d : BitVec 7) (a : BitVec 7)
  /-- PROMO (R337). -/
  | promo (ct : Ctl) (d : BitVec 7) (a : BitVec 7)
  /-- RQRY (R338). -/
  | rqry (ct : Ctl) (d : BitVec 7) (a : BitVec 7)
  /-- LNKPARK (R355). -/
  | lnkpark (ct : Ctl) (d : BitVec 7) (a : BitVec 7)
  /-- LNKWAKE (R355). -/
  | lnkwake (ct : Ctl) (d : BitVec 7) (a : BitVec 7)
  /-- LNKSTAT (R355). -/
  | lnkstat (ct : Ctl) (d : BitVec 7) (a : BitVec 7)
  /-- LNKDRAIN (R354). -/
  | lnkdrain (ct : Ctl) (d : BitVec 7) (a : BitVec 7)
  /-- LNKSCHED (R354). -/
  | lnksched (ct : Ctl) (d : BitVec 7) (a : BitVec 7)
  /-- SEMACQ (R383). -/
  | semacq (ct : Ctl) (d : BitVec 7)
  /-- SEMREL (R383). -/
  | semrel (ct : Ctl) (d : BitVec 7)
  /-- PURGE (R363). -/
  | purge (ct : Ctl) (d : BitVec 7) (a : BitVec 7)
  /-- LB (R173). -/
  | lb (ct : Ctl) (d : BitVec 7) (a : BitVec 7) (o : BitVec 7)
  /-- LBU (R173). -/
  | lbu (ct : Ctl) (d : BitVec 7) (a : BitVec 7) (o : BitVec 7)
  /-- LH (R173). -/
  | lh (ct : Ctl) (d : BitVec 7) (a : BitVec 7) (o : BitVec 7)
  /-- LHU (R173). -/
  | lhu (ct : Ctl) (d : BitVec 7) (a : BitVec 7) (o : BitVec 7)
  /-- LW (R173). -/
  | lw (ct : Ctl) (d : BitVec 7) (a : BitVec 7) (o : BitVec 7)
  /-- LD (R173). -/
  | ld (ct : Ctl) (d : BitVec 7) (a : BitVec 7) (o : BitVec 7)
  /-- LQ (R173). -/
  | lq (ct : Ctl) (d : BitVec 7) (a : BitVec 7) (o : BitVec 7)
  /-- SB (R173). -/
  | sb (ct : Ctl) (d : BitVec 7) (a : BitVec 7) (o : BitVec 7)
  /-- SH (R173). -/
  | sh (ct : Ctl) (d : BitVec 7) (a : BitVec 7) (o : BitVec 7)
  /-- SW (R173). -/
  | sw (ct : Ctl) (d : BitVec 7) (a : BitVec 7) (o : BitVec 7)
  /-- SD (R173). -/
  | sd (ct : Ctl) (d : BitVec 7) (a : BitVec 7) (o : BitVec 7)
  /-- SQ (R173). -/
  | sq (ct : Ctl) (d : BitVec 7) (a : BitVec 7) (o : BitVec 7)
  /-- SETBASE (R107). -/
  | setbase (ct : Ctl) (k : BitVec 2) (a : BitVec 7) (b : BitVec 7)
  /-- SETIDX (R107). -/
  | setidx (ct : Ctl) (k : BitVec 2) (a : BitVec 7)
  /-- ADDIDX (R107). -/
  | addidx (ct : Ctl) (k : BitVec 2) (a : BitVec 7)
  /-- GETIDX (R107). -/
  | getidx (ct : Ctl) (d : BitVec 7) (k : BitVec 2)
  /-- FRL (R170). -/
  | frl (ct : Ctl) (d : BitVec 7) (a : BitVec 7) (o : BitVec 7)
  /-- FRS (R170). -/
  | frs (ct : Ctl) (d : BitVec 7) (a : BitVec 7) (o : BitVec 7)
  /-- WLOAD (R225). -/
  | wload (ct : Ctl) (d : BitVec 7) (a : BitVec 7)
  /-- MMA (R226). -/
  | mma (ct : Ctl) (d : BitVec 7) (a : BitVec 7)
  /-- ACCX (R229). -/
  | accx (ct : Ctl) (d : BitVec 7) (a : BitVec 7)
  /-- TCLR (R231). -/
  | tclr (ct : Ctl) (a : BitVec 7)
  /-- QUANT2 (R230). -/
  | quant2 (ct : Ctl) (d : BitVec 7) (a : BitVec 7)
  /-- TSTAT (R232). -/
  | tstat (ct : Ctl) (d : BitVec 7)
  /-- TDEP (R237). -/
  | tdep (ct : Ctl) (d : BitVec 7) (a : BitVec 7)
  /-- TARV (R235). -/
  | tarv (ct : Ctl) (d : BitVec 7) (a : BitVec 7)
  /-- TARM (R235). -/
  | tarm (ct : Ctl) (d : BitVec 7) (a : BitVec 7)
  /-- AADD (R182). -/
  | aadd (ct : Ctl) (d : BitVec 7) (a : BitVec 7) (b : BitVec 7)
  /-- AAND (R182). -/
  | aand (ct : Ctl) (d : BitVec 7) (a : BitVec 7) (b : BitVec 7)
  /-- AOR (R182). -/
  | aor (ct : Ctl) (d : BitVec 7) (a : BitVec 7) (b : BitVec 7)
  /-- AXOR (R182). -/
  | axor (ct : Ctl) (d : BitVec 7) (a : BitVec 7) (b : BitVec 7)
  /-- AMIN (R182). -/
  | amin (ct : Ctl) (d : BitVec 7) (a : BitVec 7) (b : BitVec 7)
  /-- AMAX (R182). -/
  | amax (ct : Ctl) (d : BitVec 7) (a : BitVec 7) (b : BitVec 7)
  /-- AMINU (R182). -/
  | aminu (ct : Ctl) (d : BitVec 7) (a : BitVec 7) (b : BitVec 7)
  /-- AMAXU (R182). -/
  | amaxu (ct : Ctl) (d : BitVec 7) (a : BitVec 7) (b : BitVec 7)
  /-- ASWP (R182). -/
  | aswp (ct : Ctl) (d : BitVec 7) (a : BitVec 7) (b : BitVec 7)
  /-- ACAS (R182). -/
  | acas (ct : Ctl) (d : BitVec 7) (a : BitVec 7) (b : BitVec 7)
  /-- AFADD (R185). -/
  | afadd (ct : Ctl) (d : BitVec 7) (a : BitVec 7) (b : BitVec 7)
  /-- AMAXP (R183). -/
  | amaxp (ct : Ctl) (d : BitVec 7) (a : BitVec 7) (b : BitVec 7)
  /-- AINCM (R184). -/
  | aincm (ct : Ctl) (d : BitVec 7) (a : BitVec 7) (b : BitVec 7)
  /-- FENCE (R251). -/
  | fence (ct : Ctl) (d : BitVec 6) (a : BitVec 6) (w : BitVec 3) (k : BitVec 2)
  /-- BAR_INIT (R265). -/
  | barInit (ct : Ctl) (d : BitVec 7) (n : BitVec 5)
  /-- BAR_ARRIVE (R265). -/
  | barArrive (ct : Ctl) (n : BitVec 5)
  /-- BAR_WAIT (R265). -/
  | barWait (ct : Ctl) (n : BitVec 5)
  /-- BAR_SYNC (R265). -/
  | barSync (ct : Ctl) (n : BitVec 5)
  /-- BAR_ARRIVEC (R265). -/
  | barArrivec (ct : Ctl) (d : BitVec 7) (n : BitVec 5)
  /-- BAR_TEST (R266). -/
  | barTest (ct : Ctl) (d : BitVec 7) (n : BitVec 5)
  /-- BAR_LEAVE (R265). -/
  | barLeave (ct : Ctl) (n : BitVec 5)
  /-- DRAIN (R217). -/
  | drain (ct : Ctl) (a : BitVec 7) (b : BitVec 7)
  /-- VOTE_ANY (R136). -/
  | voteAny (ct : Ctl) (d : BitVec 4) (p : BitVec 4)
  /-- VOTE_ALL (R136). -/
  | voteAll (ct : Ctl) (d : BitVec 4) (p : BitVec 4)
  /-- VOTE_BALLOT (R136). -/
  | voteBallot (ct : Ctl) (d : BitVec 7) (p : BitVec 4)
  /-- VOTE_UNI (R136). -/
  | voteUni (ct : Ctl) (d : BitVec 4) (p : BitVec 4)
  /-- VOTE_FANY (R136). -/
  | voteFany (ct : Ctl) (d : BitVec 4) (m : BitVec 7)
  /-- VOTE_FALL (R136). -/
  | voteFall (ct : Ctl) (d : BitVec 4) (m : BitVec 7)
  /-- VOTE_FBALLOT (R136). -/
  | voteFballot (ct : Ctl) (d : BitVec 7) (m : BitVec 7)
  /-- SHFL_IDX (R137). -/
  | shflIdx (ct : Ctl) (d : BitVec 7) (a : BitVec 7) (b : BitVec 7)
  /-- SHFL_UP (R137). -/
  | shflUp (ct : Ctl) (d : BitVec 7) (a : BitVec 7) (b : BitVec 7)
  /-- SHFL_DOWN (R137). -/
  | shflDown (ct : Ctl) (d : BitVec 7) (a : BitVec 7) (b : BitVec 7)
  /-- SHFL_XOR (R137). -/
  | shflXor (ct : Ctl) (d : BitVec 7) (a : BitVec 7) (b : BitVec 7)
  /-- RED_ADD (R138). -/
  | redAdd (ct : Ctl) (d : BitVec 7) (a : BitVec 7)
  /-- RED_MIN (R138). -/
  | redMin (ct : Ctl) (d : BitVec 7) (a : BitVec 7)
  /-- RED_MAX (R138). -/
  | redMax (ct : Ctl) (d : BitVec 7) (a : BitVec 7)
  /-- RED_MINU (R138). -/
  | redMinu (ct : Ctl) (d : BitVec 7) (a : BitVec 7)
  /-- RED_MAXU (R138). -/
  | redMaxu (ct : Ctl) (d : BitVec 7) (a : BitVec 7)
  /-- RED_AND (R138). -/
  | redAnd (ct : Ctl) (d : BitVec 7) (a : BitVec 7)
  /-- RED_OR (R138). -/
  | redOr (ct : Ctl) (d : BitVec 7) (a : BitVec 7)
  /-- RED_XOR (R138). -/
  | redXor (ct : Ctl) (d : BitVec 7) (a : BitVec 7)
  /-- RED_FADD (R73). -/
  | redFadd (ct : Ctl) (d : BitVec 7) (a : BitVec 7)
  /-- RED_FMIN (R138). -/
  | redFmin (ct : Ctl) (d : BitVec 7) (a : BitVec 7)
  /-- RED_FMAX (R138). -/
  | redFmax (ct : Ctl) (d : BitVec 7) (a : BitVec 7)
  /-- RED_ADD64 (R138). -/
  | redAdd64 (ct : Ctl) (d : BitVec 7) (a : BitVec 7)
  /-- SCAN_ADD (R139). -/
  | scanAdd (ct : Ctl) (d : BitVec 7) (a : BitVec 7) (e : BitVec 1)
  /-- SCAN_MIN (R139). -/
  | scanMin (ct : Ctl) (d : BitVec 7) (a : BitVec 7) (e : BitVec 1)
  /-- SCAN_MAX (R139). -/
  | scanMax (ct : Ctl) (d : BitVec 7) (a : BitVec 7) (e : BitVec 1)
  /-- SCAN_MINU (R139). -/
  | scanMinu (ct : Ctl) (d : BitVec 7) (a : BitVec 7) (e : BitVec 1)
  /-- SCAN_MAXU (R139). -/
  | scanMaxu (ct : Ctl) (d : BitVec 7) (a : BitVec 7) (e : BitVec 1)
  /-- SCAN_AND (R139). -/
  | scanAnd (ct : Ctl) (d : BitVec 7) (a : BitVec 7) (e : BitVec 1)
  /-- SCAN_OR (R139). -/
  | scanOr (ct : Ctl) (d : BitVec 7) (a : BitVec 7) (e : BitVec 1)
  /-- SCAN_XOR (R139). -/
  | scanXor (ct : Ctl) (d : BitVec 7) (a : BitVec 7) (e : BitVec 1)
  /-- SCAN_FADD (R139). -/
  | scanFadd (ct : Ctl) (d : BitVec 7) (a : BitVec 7) (e : BitVec 1)
  /-- SCAN_FMIN (R139). -/
  | scanFmin (ct : Ctl) (d : BitVec 7) (a : BitVec 7) (e : BitVec 1)
  /-- SCAN_FMAX (R139). -/
  | scanFmax (ct : Ctl) (d : BitVec 7) (a : BitVec 7) (e : BitVec 1)
  /-- SCAN_ADD64 (R139). -/
  | scanAdd64 (ct : Ctl) (d : BitVec 7) (a : BitVec 7) (e : BitVec 1)
  /-- MATCH_EQ32 (R140). -/
  | matchEq32 (ct : Ctl) (d : BitVec 7) (a : BitVec 7)
  /-- MATCH_EQ64 (R140). -/
  | matchEq64 (ct : Ctl) (d : BitVec 7) (a : BitVec 7)
  /-- MATCH_LEADER (R140). -/
  | matchLeader (ct : Ctl) (d : BitVec 7) (a : BitVec 7)
  /-- PART (R141). -/
  | part (ct : Ctl) (a : BitVec 7)
  /-- CPY (R209). -/
  | cpy (ct : Ctl) (d : BitVec 7) (a : BitVec 7)
  /-- CPYM (R211). -/
  | cpym (ct : Ctl) (d : BitVec 7) (a : BitVec 7)
  /-- CHAIN (R212). -/
  | chain (ct : Ctl) (d : BitVec 7) (a : BitVec 7)
  /-- PSUM (R214). -/
  | psum (ct : Ctl) (d : BitVec 7) (a : BitVec 7)
  /-- RSORT (R215). -/
  | rsort (ct : Ctl) (d : BitVec 7) (a : BitVec 7)
  /-- WALK (R216). -/
  | walk (ct : Ctl) (d : BitVec 7) (a : BitVec 7)
  /-- YIELD_EXPIRY (R99). -/
  | yieldExpiry (t : ThreadId)
  /-- POOL_EVICTION (R85). -/
  | poolEviction (p : PartId)
  /-- VARIABLE_LATENCY_COMPLETION (R39). -/
  | variableLatencyCompletion (t : ThreadId)
  /-- IMPRECISE_FAULT_REPORT (R90). -/
  | impreciseFaultReport (n : Nat)
  /-- MWAIT_WAKE (R103). -/
  | mwaitWake (t : ThreadId)
  /-- MWAIT_LIMIT (R103). -/
  | mwaitLimit (t : ThreadId)
  /-- SHEAF_EXCHANGE (R272). -/
  | sheafExchange (p : PartId)
  /-- PENDING_SHEAF_ENTRY (R272). -/
  | pendingSheafEntry (p : PartId)
  /-- ENVIRONMENT_PORT_OPERATION (R159). -/
  | environmentPortOperation (c : CoreId)
  /-- READ_REQUEST (R175). -/
  | readRequest (n : Nat)
  /-- WRITE_REQUEST (R187). -/
  | writeRequest (n : Nat)
  /-- MASKED_WRITE (R344). -/
  | maskedWrite (n : Nat)
  /-- ATOMIC_REQUEST (R181). -/
  | atomicRequest (n : Nat) (partner : Option Nat)
  /-- READ_RESPONSE (R175). -/
  | readResponse (n : Nat)
  /-- WRITE_ACKNOWLEDGEMENT (R175). -/
  | writeAcknowledgement (n : Nat)
  /-- ATOMIC_RESPONSE (R175). -/
  | atomicResponse (n : Nat)
  /-- COMBINE_ENTRY_EXPIRY (R200). -/
  | combineEntryExpiry (die : Nat) (entry : Nat)
  /-- REDIRECT (R329). -/
  | redirect (n : Nat)
  /-- MOVED (R329). -/
  | moved (n : Nat)
  /-- REFUSED (R291). -/
  | refused (n : Nat)
  /-- POISONED_RESPONSE (R346). -/
  | poisonedResponse (n : Nat)
  /-- RECALL_ACKNOWLEDGEMENT (R319). -/
  | recallAcknowledgement (n : Nat)
  /-- RECALL_TIMEOUT (R319). -/
  | recallTimeout (die : Nat) (line : Nat)
  /-- SKIP_NOTICE (R243). -/
  | skipNotice (n : Nat)
  /-- HOLD_RETRY (R243). -/
  | holdRetry (n : Nat)
  /-- HOLD_RETRY_RESEND (R243). -/
  | holdRetryResend (n : Nat)
  /-- HOLD_BUFFER_ADMIT (R242). -/
  | holdBufferAdmit (n : Nat)
  /-- STAMP_EXTENSION (R344). -/
  | stampExtension (n : Nat)
  /-- FORWARDED_WRITE (R326). -/
  | forwardedWrite (n : Nat)
  /-- COUNT_UPDATE_DEADLINE (R328). -/
  | countUpdateDeadline (die : Nat)
  /-- ACCESS_EXPIRY (R191). -/
  | accessExpiry (n : Nat)
  /-- ENGINE_COMMAND_START (R202). -/
  | engineCommandStart (e : EngineId)
  /-- ENGINE_COMMAND_COMPLETE (R218). -/
  | engineCommandComplete (e : EngineId)
  /-- MATRIX_COMMAND_START (R222). -/
  | matrixCommandStart (p : PartId)
  /-- MMA_ROW_STEP (R227). -/
  | mmaRowStep (p : PartId)
  /-- MATRIX_COMMAND_COMPLETE (R222). -/
  | matrixCommandComplete (p : PartId)
  /-- TILE_TASK_ISSUE (R238). -/
  | tileTaskIssue (c : CoreId)
  /-- GROUP_BIND (R270). -/
  | groupBind (die : Nat) (rec : Nat)
  /-- GROUP_RESTORE (R275). -/
  | groupRestore (die : Nat) (rec : Nat)
  /-- FAULT_SWAP_OUT (R274). -/
  | faultSwapOut (g : GroupId)
  /-- PREEMPTION_REQUEST (R276). -/
  | preemptionRequest (g : GroupId)
  /-- PREEMPTION_COMPLETE (R277). -/
  | preemptionComplete (g : GroupId)
  /-- PREEMPTION_FALLBACK (R278). -/
  | preemptionFallback (g : GroupId)
  /-- GROUP_RETIRE (R280). -/
  | groupRetire (g : GroupId)
  /-- STARVATION_PREEMPTION (R304). -/
  | starvationPreemption (die : Nat)
  /-- SCHEDULING_DECISION (R298). -/
  | schedulingDecision (die : Nat)
  /-- QUEUE_PUSH (R290). -/
  | queuePush (n : Nat)
  /-- PUSH_RETRY (R291). -/
  | pushRetry (n : Nat)
  /-- LAUNCH_DISPATCH (R286). -/
  | launchDispatch (q : Nat)
  /-- WAIT_COUNTER_READ (R286). -/
  | waitCounterRead (q : Nat)
  /-- LAUNCH_COMPLETE (R286). -/
  | launchComplete (l : Nat)
  /-- COMPLETION_COUNTER_ADD (R286). -/
  | completionCounterAdd (l : Nat)
  /-- FAULT_DESCRIPTOR_WRITE (R315). -/
  | faultDescriptorWrite (die : Nat)
  /-- ANNOUNCEMENT (R323). -/
  | announcement (n : Nat)
  /-- WITHDRAWAL (R396). -/
  | withdrawal (n : Nat)
  /-- WITHDRAWAL_ACKNOWLEDGEMENT (R330). -/
  | withdrawalAcknowledgement (n : Nat)
  /-- WITHDRAWAL_LIMIT (R330). -/
  | withdrawalLimit (die : Nat)
  /-- REPLICA_LISTING_ACKNOWLEDGEMENT (R326). -/
  | replicaListingAcknowledgement (n : Nat)
  /-- REPLICA_ACK_TIMEOUT (R335). -/
  | replicaAckTimeout (die : Nat)
  /-- PROMOTE_REQUEST (R331). -/
  | promoteRequest (n : Nat)
  /-- MOVE_FINAL (R331). -/
  | moveFinal (n : Nat)
  /-- FORWARD_LIST_CONTINUATION (R345). -/
  | forwardListContinuation (n : Nat)
  /-- MOVE_PARKED_END (R331). -/
  | moveParkedEnd (n : Nat)
  /-- PROMO_TIMEOUT (R331). -/
  | promoTimeout (die : Nat)
  /-- FRAME_RECEIVED (R346). -/
  | frameReceived (port : Nat) (bytes : List (BitVec 8))
  /-- REFRESH_FLIT (R342). -/
  | refreshFlit (port : Nat)
  /-- REFRESH_DUE (R342). -/
  | refreshDue (port : Nat)
  /-- PACKET_TRANSMIT (R349). -/
  | packetTransmit (port : Nat)
  /-- SLOT_MARKER (R349). -/
  | slotMarker (port : Nat)
  /-- MEETING_MARKER (R351). -/
  | meetingMarker (port : Nat)
  /-- DRAIN_MARKER (R354). -/
  | drainMarker (port : Nat)
  /-- FINAL_MARKER (R354). -/
  | finalMarker (port : Nat)
  /-- RELAY_PACKET (R350). -/
  | relayPacket (n : Nat)
  /-- LINK_FUNCTION_ACCEPT (R399). -/
  | linkFunctionAccept (die : Nat)
  /-- WAVELENGTH_LOCK (R353). -/
  | wavelengthLock (port : Nat) (lane : Nat)
  /-- LOSS_OF_LOCK (R339). -/
  | lossOfLock (port : Nat) (lane : Nat)
  /-- TRAINING_TIMEOUT (R339). -/
  | trainingTimeout (port : Nat)
  /-- WAKE_LOCK_TIMEOUT (R353). -/
  | wakeLockTimeout (port : Nat)
  /-- DARK_TIMEOUT (R354). -/
  | darkTimeout (port : Nat)
  /-- DEPTH_REWRITE (R397). -/
  | depthRewrite (port : Nat)
  /-- SIGNATURE_COMPARE (R360). -/
  | signatureCompare (t : ThreadId)
  /-- PURGE_START (R364). -/
  | purgeStart (n : Nat)
  /-- PURGE_ACKNOWLEDGEMENT (R364). -/
  | purgeAcknowledgement (n : Nat)
  /-- PURGE_RELEASE (R365). -/
  | purgeRelease (n : Nat)
  /-- POWER_LIMIT (R15). -/
  | powerLimit (die : Nat) (gate : Bool)
  /-- FREEZE_PIN (R384). -/
  | freezePin
  /-- RESET_PIN (R385). -/
  | resetPin
  /-- BYPASS (R384). -/
  | bypass (tdi : Bool)
  /-- IDCODE (R384). -/
  | idcode
  /-- SAMPLE_PRELOAD (R384). -/
  | samplePreload (pins : List Bool) (preload : List Bool)
  /-- EXTEST (R384). -/
  | extest
  /-- SELDIE (R384). -/
  | seldie (die : Nat)
  /-- MEMRD (R384). -/
  | memrd (fa : Nat)
  /-- FW_CREATE_CONTEXT (R299). -/
  | fwCreateContext (die : Nat)
  /-- FW_MAKE_CONTEXT_LIVE (R299). -/
  | fwMakeContextLive (die : Nat)
  /-- FW_RETIRE_CONTEXT (R299). -/
  | fwRetireContext (die : Nat)
  /-- FW_CREATE_REGION (R300). -/
  | fwCreateRegion (die : Nat)
  /-- FW_CHANGE_REGION (R301). -/
  | fwChangeRegion (die : Nat)
  /-- FW_RETIRE_REGION (R307). -/
  | fwRetireRegion (die : Nat)
  /-- FW_CREATE_QUEUE (R289). -/
  | fwCreateQueue (die : Nat)
  /-- FW_DESTROY_QUEUE (R289). -/
  | fwDestroyQueue (die : Nat)
  /-- FW_INVALIDATE_TRANSLATIONS (R313). -/
  | fwInvalidateTranslations (die : Nat)
  /-- FW_REPLAY_PARKED_RANGE (R316). -/
  | fwReplayParkedRange (die : Nat)
  /-- FW_EMPTY_FAULT_RECORD (R305). -/
  | fwEmptyFaultRecord (die : Nat)
  /-- FW_RESET_CONSUMED (R303). -/
  | fwResetConsumed (die : Nat)
  /-- FW_SET_BUDGET (R303). -/
  | fwSetBudget (die : Nat)
  /-- FW_ANNOUNCE_PORT_STATUS (R352). -/
  | fwAnnouncePortStatus (die : Nat)
  /-- FW_WITHDRAW_PORT_STATUS (R352). -/
  | fwWithdrawPortStatus (die : Nat)
  /-- FW_ACQUIRE_SEMAPHORE (R382). -/
  | fwAcquireSemaphore (die : Nat)
  /-- FW_RELEASE_SEMAPHORE (R382). -/
  | fwReleaseSemaphore (die : Nat)
  /-- FW_SET_RETRY (R361). -/
  | fwSetRetry (die : Nat)
  /-- FW_SET_PREEMPTION_LIMIT (R278). -/
  | fwSetPreemptionLimit (die : Nat)
  /-- FW_DESIGNATE_SEQUENCER (R380). -/
  | fwDesignateSequencer (die : Nat)
  /-- FW_VERSION_QUERY (R386). -/
  | fwVersionQuery (die : Nat)
  /-- FW_ATTESTATION_REPORT (R388). -/
  | fwAttestationReport (die : Nat)
  /-- FW_DEVICE_CERTIFICATE (R390). -/
  | fwDeviceCertificate (die : Nat)
  /-- FW_POWER_STATE (R391). -/
  | fwPowerState (die : Nat)
  /-- FW_FIRMWARE_UPDATE (R387). -/
  | fwFirmwareUpdate (die : Nat)
  /-- FW_FREEZE (R384). -/
  | fwFreeze (die : Nat)
  /-- FW_PACKAGE_RESET (R385). -/
  | fwPackageReset (die : Nat)
  /-- FW_WRITE_STAND_TABLE (R381). -/
  | fwWriteStandTable (die : Nat)
  /-- ILLEGAL_INSTRUCTION (R32). -/
  | illegalInstruction (w : BitVec 32)
  /-- FIXED_LATENCY_WRITEBACK (R40). -/
  | fixedLatencyWriteback (t : ThreadId)
  /-- FRAME_BOUNDARY (R341). -/
  | frameBoundary (port : Nat)
deriving DecidableEq, Repr

end Sys2Proof
end

