-- ==== Sys2Proof/Machine/Sig.lean ====
section
/-! DEFINITION. Sig: what each instruction names of its thread's registers, and what its format accepts
(R33, R34, R39, R42, R80). Issue, the well-formedness check and the scoreboard all read it. -/

namespace Sys2Proof

/-- The formats of R33. -/
inductive Fmt where
  | t | s | tf | i | l | m | f | b | j | a | lp | c
deriving DecidableEq, Repr

/-- The modes an instruction asks for (R80). -/
inductive Priv where
  | none | sys | sysOrHandler
deriving DecidableEq, Repr

/-- A register operand: its field, how many registers it names, whether it is a run of single fields (a tuple,
R203) or one 32-, 64- or 128-bit operand (R34), and whether it is read and written. -/
structure Opnd where
  fld : Nat
  n : Nat
  tuple : Bool
  rd : Bool
  wr : Bool
deriving DecidableEq, Repr

/-- An instruction's signature. `lat` is the fixed latency of R39, 0 where the result is variable-latency or absent. -/
structure Sig where
  fmt : Fmt := .t
  gpr : List Opnd := []
  predR : List Nat := []
  predW : List Nat := []
  clos : List Nat := []
  lat : Nat := 0
  priv : Priv := .none
  accNf : Bool := false
  accRm : Bool := false
  accW64 : Bool := false
  accScope : Bool := false
  accImm : Bool := false
  coll : Bool := false
deriving DecidableEq, Repr

/-- Predicate indices 1 to 15 (R94). -/
def allPreds : List Nat := [1, 2, 3, 4, 5, 6, 7, 8, 9, 10, 11, 12, 13, 14, 15]

/-- Registers an atomic's value takes: two under the prefix's w64 (R42, R181). -/
def wide (ct : Ctl) : Nat :=
  match ct.pfx with
  | some p => if p.w64 then 2 else 1
  | none => 1

/-- Registers a special register takes: specials 8 to 11 are 64 bits wide (R79). -/
def srWidth (n : Nat) : Nat := if 8 ≤ n ∧ n ≤ 11 then 2 else 1


/-- The control fields of an instruction (the default for the formats that carry none, and for events). -/
def ctlOf : Instr → Ctl
  | .add ct _ _ _ => ct
  | .sub ct _ _ _ => ct
  | .mul ct _ _ _ => ct
  | .mulh ct _ _ _ => ct
  | .mulhu ct _ _ _ => ct
  | .div ct _ _ _ => ct
  | .divu ct _ _ _ => ct
  | .rem ct _ _ _ => ct
  | .remu ct _ _ _ => ct
  | .and ct _ _ _ => ct
  | .or ct _ _ _ => ct
  | .xor ct _ _ _ => ct
  | .andn ct _ _ _ => ct
  | .shl ct _ _ _ => ct
  | .shr ct _ _ _ => ct
  | .sra ct _ _ _ => ct
  | .rol ct _ _ _ => ct
  | .min ct _ _ _ => ct
  | .max ct _ _ _ => ct
  | .minu ct _ _ _ => ct
  | .maxu ct _ _ _ => ct
  | .mad ct _ _ _ => ct
  | .bfx ct _ _ _ => ct
  | .bfi ct _ _ _ => ct
  | .sel ct _ _ _ => ct
  | .add64 ct _ _ _ => ct
  | .sub64 ct _ _ _ => ct
  | .slt ct _ _ _ => ct
  | .sltu ct _ _ _ => ct
  | .seq ct _ _ _ => ct
  | .mov ct _ _ => ct
  | .not ct _ _ => ct
  | .neg ct _ _ => ct
  | .abs ct _ _ => ct
  | .clz ct _ _ => ct
  | .ctz ct _ _ => ct
  | .popc ct _ _ => ct
  | .brev ct _ _ => ct
  | .sext8 ct _ _ => ct
  | .sext16 ct _ _ => ct
  | .zext8 ct _ _ => ct
  | .zext16 ct _ _ => ct
  | .bswap ct _ _ => ct
  | .mov64 ct _ _ => ct
  | .addi ct _ _ _ => ct
  | .andi ct _ _ _ => ct
  | .ori ct _ _ _ => ct
  | .xori ct _ _ _ => ct
  | .shli ct _ _ _ => ct
  | .shri ct _ _ _ => ct
  | .srai ct _ _ _ => ct
  | .muli ct _ _ _ => ct
  | .slti ct _ _ _ => ct
  | .sltui ct _ _ _ => ct
  | .seqi ct _ _ _ => ct
  | .mini ct _ _ _ => ct
  | .maxi ct _ _ _ => ct
  | .li ct _ _ => ct
  | .lih ct _ _ => ct
  | .cmp ct _ _ _ _ => ct
  | .cmpi ct _ _ _ _ => ct
  | .pand ct _ _ _ => ct
  | .por ct _ _ _ => ct
  | .pxor ct _ _ _ => ct
  | .pandn ct _ _ _ => ct
  | .porn ct _ _ _ => ct
  | .pmv ct _ _ => ct
  | .pnot ct _ _ => ct
  | .pset ct _ => ct
  | .pclr ct _ => ct
  | .pmovToRegister ct _ => ct
  | .pmovFromRegister ct _ => ct
  | .callr ct _ => ct
  | .jr ct _ => ct
  | .nop ct => ct
  | .ret ct => ct
  | .exit ct => ct
  | .yield ct => ct
  | .trap ct _ => ct
  | .brk ct => ct
  | .eret ct => ct
  | .safept ct _ _ => ct
  | .win ct _ => ct
  | .mwait ct _ _ => ct
  | .cyc ct _ => ct
  | .cych ct _ => ct
  | .getsr ct _ _ => ct
  | .setsr ct _ _ => ct
  | .lexit ct => ct
  | .lbrk ct => ct
  | .lrd ct _ _ _ => ct
  | .lwr ct _ _ _ => ct
  | .apply ct _ => ct
  | .cpin ct _ => ct
  | .cdrop ct _ => ct
  | .cmov ct _ _ => ct
  | .cst ct _ _ => ct
  | .cld ct _ _ => ct
  | .cenv ct _ _ => ct
  | .clive ct _ _ => ct
  | .fref ct _ _ => ct
  | .xget ct _ _ _ => ct
  | .xput ct _ _ _ => ct
  | .fadd ct _ _ _ => ct
  | .fsub ct _ _ _ => ct
  | .fmul ct _ _ _ => ct
  | .fma ct _ _ _ => ct
  | .fnma ct _ _ _ => ct
  | .fmin ct _ _ _ => ct
  | .fmax ct _ _ _ => ct
  | .fdiv ct _ _ _ => ct
  | .fsqrt ct _ _ => ct
  | .fabs ct _ _ => ct
  | .fneg ct _ _ => ct
  | .frcp ct _ _ => ct
  | .frsq ct _ _ => ct
  | .fexp2 ct _ _ => ct
  | .flog2 ct _ _ => ct
  | .fsinpi ct _ _ => ct
  | .fcospi ct _ _ => ct
  | .ftanh ct _ _ => ct
  | .ffloor ct _ _ => ct
  | .fceil ct _ _ => ct
  | .ftrunc ct _ _ => ct
  | .frint ct _ _ => ct
  | .fclass ct _ _ => ct
  | .fcvtF32I32 ct _ _ => ct
  | .fcvtF32Ui32 ct _ _ => ct
  | .fcvtI32F32 ct _ _ => ct
  | .fcvtI32rF32 ct _ _ => ct
  | .fcvtUi32F32 ct _ _ => ct
  | .fcvtF16F32 ct _ _ => ct
  | .fcvtF32F16 ct _ _ => ct
  | .fcvtBf16F32 ct _ _ => ct
  | .fcvtF32Bf16 ct _ _ => ct
  | .fcvtE4m3F32 ct _ _ => ct
  | .fcvtE4m3nF32 ct _ _ => ct
  | .fcvtE5m2F32 ct _ _ => ct
  | .fcvtF32E4m3 ct _ _ _ => ct
  | .fcvtF32E5m2 ct _ _ _ => ct
  | .fcvtF32F64 ct _ _ => ct
  | .fcvtF64F32 ct _ _ => ct
  | .fcvtF64I32 ct _ _ => ct
  | .fcvtI32F64 ct _ _ => ct
  | .fcmp ct _ _ _ _ => ct
  | .hfma2 ct _ _ _ => ct
  | .hadd2 ct _ _ _ => ct
  | .hmul2 ct _ _ _ => ct
  | .bfma2 ct _ _ _ => ct
  | .dadd ct _ _ _ => ct
  | .dmul ct _ _ _ => ct
  | .dfma ct _ _ _ => ct
  | .dsub ct _ _ => ct
  | .dmin ct _ _ => ct
  | .dmax ct _ _ => ct
  | .ddiv ct _ _ => ct
  | .dsqrt ct _ _ => ct
  | .dneg ct _ _ => ct
  | .dabs ct _ _ => ct
  | .dp4 ct _ _ _ => ct
  | .qpush ct _ _ _ => ct
  | .qtry ct _ _ _ => ct
  | .qspawn ct _ _ _ => ct
  | .qlen ct _ _ => ct
  | .ann ct _ _ _ => ct
  | .wdr ct _ _ => ct
  | .promo ct _ _ => ct
  | .rqry ct _ _ => ct
  | .lnkpark ct _ _ => ct
  | .lnkwake ct _ _ => ct
  | .lnkstat ct _ _ => ct
  | .lnkdrain ct _ _ => ct
  | .lnksched ct _ _ => ct
  | .semacq ct _ => ct
  | .semrel ct _ => ct
  | .purge ct _ _ => ct
  | .lb ct _ _ _ => ct
  | .lbu ct _ _ _ => ct
  | .lh ct _ _ _ => ct
  | .lhu ct _ _ _ => ct
  | .lw ct _ _ _ => ct
  | .ld ct _ _ _ => ct
  | .lq ct _ _ _ => ct
  | .sb ct _ _ _ => ct
  | .sh ct _ _ _ => ct
  | .sw ct _ _ _ => ct
  | .sd ct _ _ _ => ct
  | .sq ct _ _ _ => ct
  | .setbase ct _ _ _ => ct
  | .setidx ct _ _ => ct
  | .addidx ct _ _ => ct
  | .getidx ct _ _ => ct
  | .frl ct _ _ _ => ct
  | .frs ct _ _ _ => ct
  | .wload ct _ _ => ct
  | .mma ct _ _ => ct
  | .accx ct _ _ => ct
  | .tclr ct _ => ct
  | .quant2 ct _ _ => ct
  | .tstat ct _ => ct
  | .tdep ct _ _ => ct
  | .tarv ct _ _ => ct
  | .tarm ct _ _ => ct
  | .aadd ct _ _ _ => ct
  | .aand ct _ _ _ => ct
  | .aor ct _ _ _ => ct
  | .axor ct _ _ _ => ct
  | .amin ct _ _ _ => ct
  | .amax ct _ _ _ => ct
  | .aminu ct _ _ _ => ct
  | .amaxu ct _ _ _ => ct
  | .aswp ct _ _ _ => ct
  | .acas ct _ _ _ => ct
  | .afadd ct _ _ _ => ct
  | .amaxp ct _ _ _ => ct
  | .aincm ct _ _ _ => ct
  | .fence ct _ _ _ _ => ct
  | .barInit ct _ _ => ct
  | .barArrive ct _ => ct
  | .barWait ct _ => ct
  | .barSync ct _ => ct
  | .barArrivec ct _ _ => ct
  | .barTest ct _ _ => ct
  | .barLeave ct _ => ct
  | .drain ct _ _ => ct
  | .voteAny ct _ _ => ct
  | .voteAll ct _ _ => ct
  | .voteBallot ct _ _ => ct
  | .voteUni ct _ _ => ct
  | .voteFany ct _ _ => ct
  | .voteFall ct _ _ => ct
  | .voteFballot ct _ _ => ct
  | .shflIdx ct _ _ _ => ct
  | .shflUp ct _ _ _ => ct
  | .shflDown ct _ _ _ => ct
  | .shflXor ct _ _ _ => ct
  | .redAdd ct _ _ => ct
  | .redMin ct _ _ => ct
  | .redMax ct _ _ => ct
  | .redMinu ct _ _ => ct
  | .redMaxu ct _ _ => ct
  | .redAnd ct _ _ => ct
  | .redOr ct _ _ => ct
  | .redXor ct _ _ => ct
  | .redFadd ct _ _ => ct
  | .redFmin ct _ _ => ct
  | .redFmax ct _ _ => ct
  | .redAdd64 ct _ _ => ct
  | .scanAdd ct _ _ _ => ct
  | .scanMin ct _ _ _ => ct
  | .scanMax ct _ _ _ => ct
  | .scanMinu ct _ _ _ => ct
  | .scanMaxu ct _ _ _ => ct
  | .scanAnd ct _ _ _ => ct
  | .scanOr ct _ _ _ => ct
  | .scanXor ct _ _ _ => ct
  | .scanFadd ct _ _ _ => ct
  | .scanFmin ct _ _ _ => ct
  | .scanFmax ct _ _ _ => ct
  | .scanAdd64 ct _ _ _ => ct
  | .matchEq32 ct _ _ => ct
  | .matchEq64 ct _ _ => ct
  | .matchLeader ct _ _ => ct
  | .part ct _ => ct
  | .cpy ct _ _ => ct
  | .cpym ct _ _ => ct
  | .chain ct _ _ => ct
  | .psum ct _ _ => ct
  | .rsort ct _ _ => ct
  | .walk ct _ _ => ct
  | _ => {}

/-- The signature of an instruction: format, operands, latency (R39), privilege (R80) and prefix acceptance (R42). Events have the empty one. -/
def sigOf : Instr → Sig
  | .add _ d a b => { fmt := .t, gpr := [⟨d.toNat, 1, false, false, true⟩, ⟨a.toNat, 1, false, true, false⟩, ⟨b.toNat, 1, false, true, false⟩], lat := 1 }
  | .sub _ d a b => { fmt := .t, gpr := [⟨d.toNat, 1, false, false, true⟩, ⟨a.toNat, 1, false, true, false⟩, ⟨b.toNat, 1, false, true, false⟩], lat := 1 }
  | .mul _ d a b => { fmt := .t, gpr := [⟨d.toNat, 1, false, false, true⟩, ⟨a.toNat, 1, false, true, false⟩, ⟨b.toNat, 1, false, true, false⟩], lat := 3 }
  | .mulh _ d a b => { fmt := .t, gpr := [⟨d.toNat, 1, false, false, true⟩, ⟨a.toNat, 1, false, true, false⟩, ⟨b.toNat, 1, false, true, false⟩], lat := 3 }
  | .mulhu _ d a b => { fmt := .t, gpr := [⟨d.toNat, 1, false, false, true⟩, ⟨a.toNat, 1, false, true, false⟩, ⟨b.toNat, 1, false, true, false⟩], lat := 3 }
  | .div _ d a b => { fmt := .t, gpr := [⟨d.toNat, 1, false, false, true⟩, ⟨a.toNat, 1, false, true, false⟩, ⟨b.toNat, 1, false, true, false⟩], accNf := true }
  | .divu _ d a b => { fmt := .t, gpr := [⟨d.toNat, 1, false, false, true⟩, ⟨a.toNat, 1, false, true, false⟩, ⟨b.toNat, 1, false, true, false⟩], accNf := true }
  | .rem _ d a b => { fmt := .t, gpr := [⟨d.toNat, 1, false, false, true⟩, ⟨a.toNat, 1, false, true, false⟩, ⟨b.toNat, 1, false, true, false⟩], accNf := true }
  | .remu _ d a b => { fmt := .t, gpr := [⟨d.toNat, 1, false, false, true⟩, ⟨a.toNat, 1, false, true, false⟩, ⟨b.toNat, 1, false, true, false⟩], accNf := true }
  | .and _ d a b => { fmt := .t, gpr := [⟨d.toNat, 1, false, false, true⟩, ⟨a.toNat, 1, false, true, false⟩, ⟨b.toNat, 1, false, true, false⟩], lat := 1 }
  | .or _ d a b => { fmt := .t, gpr := [⟨d.toNat, 1, false, false, true⟩, ⟨a.toNat, 1, false, true, false⟩, ⟨b.toNat, 1, false, true, false⟩], lat := 1 }
  | .xor _ d a b => { fmt := .t, gpr := [⟨d.toNat, 1, false, false, true⟩, ⟨a.toNat, 1, false, true, false⟩, ⟨b.toNat, 1, false, true, false⟩], lat := 1 }
  | .andn _ d a b => { fmt := .t, gpr := [⟨d.toNat, 1, false, false, true⟩, ⟨a.toNat, 1, false, true, false⟩, ⟨b.toNat, 1, false, true, false⟩], lat := 1 }
  | .shl _ d a b => { fmt := .t, gpr := [⟨d.toNat, 1, false, false, true⟩, ⟨a.toNat, 1, false, true, false⟩, ⟨b.toNat, 1, false, true, false⟩], lat := 1 }
  | .shr _ d a b => { fmt := .t, gpr := [⟨d.toNat, 1, false, false, true⟩, ⟨a.toNat, 1, false, true, false⟩, ⟨b.toNat, 1, false, true, false⟩], lat := 1 }
  | .sra _ d a b => { fmt := .t, gpr := [⟨d.toNat, 1, false, false, true⟩, ⟨a.toNat, 1, false, true, false⟩, ⟨b.toNat, 1, false, true, false⟩], lat := 1 }
  | .rol _ d a b => { fmt := .t, gpr := [⟨d.toNat, 1, false, false, true⟩, ⟨a.toNat, 1, false, true, false⟩, ⟨b.toNat, 1, false, true, false⟩], lat := 1 }
  | .min _ d a b => { fmt := .t, gpr := [⟨d.toNat, 1, false, false, true⟩, ⟨a.toNat, 1, false, true, false⟩, ⟨b.toNat, 1, false, true, false⟩], lat := 1 }
  | .max _ d a b => { fmt := .t, gpr := [⟨d.toNat, 1, false, false, true⟩, ⟨a.toNat, 1, false, true, false⟩, ⟨b.toNat, 1, false, true, false⟩], lat := 1 }
  | .minu _ d a b => { fmt := .t, gpr := [⟨d.toNat, 1, false, false, true⟩, ⟨a.toNat, 1, false, true, false⟩, ⟨b.toNat, 1, false, true, false⟩], lat := 1 }
  | .maxu _ d a b => { fmt := .t, gpr := [⟨d.toNat, 1, false, false, true⟩, ⟨a.toNat, 1, false, true, false⟩, ⟨b.toNat, 1, false, true, false⟩], lat := 1 }
  | .mad _ d a b => { fmt := .t, gpr := [⟨d.toNat, 1, false, true, true⟩, ⟨a.toNat, 1, false, true, false⟩, ⟨b.toNat, 1, false, true, false⟩], lat := 3 }
  | .bfx _ d a b => { fmt := .t, gpr := [⟨d.toNat, 1, false, false, true⟩, ⟨a.toNat, 1, false, true, false⟩, ⟨b.toNat, 1, false, true, false⟩], lat := 1 }
  | .bfi _ d a b => { fmt := .t, gpr := [⟨d.toNat, 1, false, true, true⟩, ⟨a.toNat, 1, false, true, false⟩, ⟨b.toNat, 1, false, true, false⟩], lat := 1 }
  | .sel _ d a b => { fmt := .t, gpr := [⟨d.toNat, 1, false, false, true⟩, ⟨a.toNat, 1, false, true, false⟩, ⟨b.toNat, 1, false, true, false⟩], lat := 1 }
  | .add64 _ d a b => { fmt := .t, gpr := [⟨d.toNat, 2, false, false, true⟩, ⟨a.toNat, 2, false, true, false⟩, ⟨b.toNat, 2, false, true, false⟩], lat := 1 }
  | .sub64 _ d a b => { fmt := .t, gpr := [⟨d.toNat, 2, false, false, true⟩, ⟨a.toNat, 2, false, true, false⟩, ⟨b.toNat, 2, false, true, false⟩], lat := 1 }
  | .slt _ d a b => { fmt := .t, gpr := [⟨d.toNat, 1, false, false, true⟩, ⟨a.toNat, 1, false, true, false⟩, ⟨b.toNat, 1, false, true, false⟩], lat := 1 }
  | .sltu _ d a b => { fmt := .t, gpr := [⟨d.toNat, 1, false, false, true⟩, ⟨a.toNat, 1, false, true, false⟩, ⟨b.toNat, 1, false, true, false⟩], lat := 1 }
  | .seq _ d a b => { fmt := .t, gpr := [⟨d.toNat, 1, false, false, true⟩, ⟨a.toNat, 1, false, true, false⟩, ⟨b.toNat, 1, false, true, false⟩], lat := 1 }
  | .mov _ d a => { fmt := .s, gpr := [⟨d.toNat, 1, false, false, true⟩, ⟨a.toNat, 1, false, true, false⟩], lat := 1 }
  | .not _ d a => { fmt := .s, gpr := [⟨d.toNat, 1, false, false, true⟩, ⟨a.toNat, 1, false, true, false⟩], lat := 1 }
  | .neg _ d a => { fmt := .s, gpr := [⟨d.toNat, 1, false, false, true⟩, ⟨a.toNat, 1, false, true, false⟩], lat := 1 }
  | .abs _ d a => { fmt := .s, gpr := [⟨d.toNat, 1, false, false, true⟩, ⟨a.toNat, 1, false, true, false⟩], lat := 1 }
  | .clz _ d a => { fmt := .s, gpr := [⟨d.toNat, 1, false, false, true⟩, ⟨a.toNat, 1, false, true, false⟩], lat := 1 }
  | .ctz _ d a => { fmt := .s, gpr := [⟨d.toNat, 1, false, false, true⟩, ⟨a.toNat, 1, false, true, false⟩], lat := 1 }
  | .popc _ d a => { fmt := .s, gpr := [⟨d.toNat, 1, false, false, true⟩, ⟨a.toNat, 1, false, true, false⟩], lat := 1 }
  | .brev _ d a => { fmt := .s, gpr := [⟨d.toNat, 1, false, false, true⟩, ⟨a.toNat, 1, false, true, false⟩], lat := 1 }
  | .sext8 _ d a => { fmt := .s, gpr := [⟨d.toNat, 1, false, false, true⟩, ⟨a.toNat, 1, false, true, false⟩], lat := 1 }
  | .sext16 _ d a => { fmt := .s, gpr := [⟨d.toNat, 1, false, false, true⟩, ⟨a.toNat, 1, false, true, false⟩], lat := 1 }
  | .zext8 _ d a => { fmt := .s, gpr := [⟨d.toNat, 1, false, false, true⟩, ⟨a.toNat, 1, false, true, false⟩], lat := 1 }
  | .zext16 _ d a => { fmt := .s, gpr := [⟨d.toNat, 1, false, false, true⟩, ⟨a.toNat, 1, false, true, false⟩], lat := 1 }
  | .bswap _ d a => { fmt := .s, gpr := [⟨d.toNat, 1, false, false, true⟩, ⟨a.toNat, 1, false, true, false⟩], lat := 1 }
  | .mov64 _ d a => { fmt := .s, gpr := [⟨d.toNat, 2, false, false, true⟩, ⟨a.toNat, 2, false, true, false⟩], lat := 1 }
  | .addi _ d a _ => { fmt := .i, gpr := [⟨d.toNat, 1, false, false, true⟩, ⟨a.toNat, 1, false, true, false⟩], lat := 1, accImm := true }
  | .andi _ d a _ => { fmt := .i, gpr := [⟨d.toNat, 1, false, false, true⟩, ⟨a.toNat, 1, false, true, false⟩], lat := 1, accImm := true }
  | .ori _ d a _ => { fmt := .i, gpr := [⟨d.toNat, 1, false, false, true⟩, ⟨a.toNat, 1, false, true, false⟩], lat := 1, accImm := true }
  | .xori _ d a _ => { fmt := .i, gpr := [⟨d.toNat, 1, false, false, true⟩, ⟨a.toNat, 1, false, true, false⟩], lat := 1, accImm := true }
  | .shli _ d a _ => { fmt := .i, gpr := [⟨d.toNat, 1, false, false, true⟩, ⟨a.toNat, 1, false, true, false⟩], lat := 1, accImm := true }
  | .shri _ d a _ => { fmt := .i, gpr := [⟨d.toNat, 1, false, false, true⟩, ⟨a.toNat, 1, false, true, false⟩], lat := 1, accImm := true }
  | .srai _ d a _ => { fmt := .i, gpr := [⟨d.toNat, 1, false, false, true⟩, ⟨a.toNat, 1, false, true, false⟩], lat := 1, accImm := true }
  | .muli _ d a _ => { fmt := .i, gpr := [⟨d.toNat, 1, false, false, true⟩, ⟨a.toNat, 1, false, true, false⟩], lat := 3, accImm := true }
  | .slti _ d a _ => { fmt := .i, gpr := [⟨d.toNat, 1, false, false, true⟩, ⟨a.toNat, 1, false, true, false⟩], lat := 1, accImm := true }
  | .sltui _ d a _ => { fmt := .i, gpr := [⟨d.toNat, 1, false, false, true⟩, ⟨a.toNat, 1, false, true, false⟩], lat := 1, accImm := true }
  | .seqi _ d a _ => { fmt := .i, gpr := [⟨d.toNat, 1, false, false, true⟩, ⟨a.toNat, 1, false, true, false⟩], lat := 1, accImm := true }
  | .mini _ d a _ => { fmt := .i, gpr := [⟨d.toNat, 1, false, false, true⟩, ⟨a.toNat, 1, false, true, false⟩], lat := 1, accImm := true }
  | .maxi _ d a _ => { fmt := .i, gpr := [⟨d.toNat, 1, false, false, true⟩, ⟨a.toNat, 1, false, true, false⟩], lat := 1, accImm := true }
  | .li _ d _ => { fmt := .l, gpr := [⟨d.toNat, 1, false, false, true⟩], lat := 1, accImm := true }
  | .lih _ d _ => { fmt := .l, gpr := [⟨d.toNat, 1, false, true, true⟩], lat := 1 }
  | .cmp _ p _ a b => { fmt := .t, gpr := [⟨a.toNat, 1, false, true, false⟩, ⟨b.toNat, 1, false, true, false⟩], predW := [p.toNat], lat := 1 }
  | .cmpi _ p _ a _ => { fmt := .i, gpr := [⟨a.toNat, 1, false, true, false⟩], predW := [p.toNat], lat := 1, accImm := true }
  | .pand _ d p q => { fmt := .t, predR := [p.toNat] ++ [q.toNat], predW := [d.toNat], lat := 1 }
  | .por _ d p q => { fmt := .t, predR := [p.toNat] ++ [q.toNat], predW := [d.toNat], lat := 1 }
  | .pxor _ d p q => { fmt := .t, predR := [p.toNat] ++ [q.toNat], predW := [d.toNat], lat := 1 }
  | .pandn _ d p q => { fmt := .t, predR := [p.toNat] ++ [q.toNat], predW := [d.toNat], lat := 1 }
  | .porn _ d p q => { fmt := .t, predR := [p.toNat] ++ [q.toNat], predW := [d.toNat], lat := 1 }
  | .pmv _ d p => { fmt := .t, predR := [p.toNat], predW := [d.toNat], lat := 1 }
  | .pnot _ d p => { fmt := .t, predR := [p.toNat], predW := [d.toNat], lat := 1 }
  | .pset _ d => { fmt := .t, predW := [d.toNat], lat := 1 }
  | .pclr _ d => { fmt := .t, predW := [d.toNat], lat := 1 }
  | .pmovToRegister _ d => { fmt := .t, gpr := [⟨d.toNat, 1, false, false, true⟩], predR := allPreds, lat := 1 }
  | .pmovFromRegister _ a => { fmt := .t, gpr := [⟨a.toNat, 1, false, true, false⟩], predW := allPreds, lat := 1 }
  | .br p _ _ => { fmt := .b, predR := [p.toNat] }
  | .jmp _ => { fmt := .j }
  | .call _ => { fmt := .j }
  | .callr _ a => { fmt := .t, gpr := [⟨a.toNat, 2, false, true, false⟩] }
  | .jr _ a => { fmt := .t, gpr := [⟨a.toNat, 2, false, true, false⟩] }
  | .nop _ => { fmt := .s }
  | .ret _ => { fmt := .s }
  | .exit _ => { fmt := .s }
  | .yield _ => { fmt := .s }
  | .trap _ _ => { fmt := .s }
  | .brk _ => { fmt := .s }
  | .eret _ => { fmt := .s, priv := .sysOrHandler }
  | .safept _ _ _ => { fmt := .s }
  | .win _ _ => { fmt := .s }
  | .mwait _ d a => { fmt := .s, gpr := [⟨d.toNat, 1, false, true, true⟩, ⟨a.toNat, 2, false, true, false⟩] }
  | .cyc _ d => { fmt := .s, gpr := [⟨d.toNat, 1, false, false, true⟩], lat := 1 }
  | .cych _ d => { fmt := .s, gpr := [⟨d.toNat, 1, false, false, true⟩], lat := 1 }
  | .getsr _ d a => { fmt := .s, gpr := [⟨d.toNat, srWidth a.toNat, false, false, true⟩], lat := 1 }
  | .setsr _ d a => { fmt := .s, gpr := [⟨a.toNat, srWidth d.toNat, false, true, false⟩], priv := if d.toNat = 5 then .sys else .none }
  | .loopCnt a _ _ => { fmt := .lp, gpr := [⟨a.toNat, 1, false, true, false⟩] }
  | .loopPipe a _ _ _ => { fmt := .lp, gpr := [⟨a.toNat, 1, false, true, false⟩] }
  | .loopWhile p _ _ => { fmt := .lp, predR := [p.toNat] }
  | .lexit _ => { fmt := .s }
  | .lbrk _ => { fmt := .s }
  | .lrd _ d _ i => { fmt := .s, gpr := [⟨d.toNat, (if i.toNat = 3 then 2 else 1), false, false, true⟩], lat := 1 }
  | .lwr _ _ _ a => { fmt := .s, gpr := [⟨a.toNat, 1, false, true, false⟩], priv := .sysOrHandler }
  | .cap c _ n a e => { fmt := .c, gpr := [⟨e.toNat, 2, false, true, false⟩, ⟨a.toNat, n.toNat, true, true, false⟩], clos := [c.toNat] }
  | .apply _ k => { fmt := .t, clos := [k.toNat] }
  | .cpin _ k => { fmt := .s, clos := [k.toNat] }
  | .cdrop _ k => { fmt := .s, clos := [k.toNat] }
  | .cmov _ d a => { fmt := .s, clos := [d.toNat, a.toNat] }
  | .cst _ d k => { fmt := .s, gpr := [⟨d.toNat, 2, false, false, true⟩], clos := [k.toNat] }
  | .cld _ k a => { fmt := .s, gpr := [⟨a.toNat, 2, false, true, false⟩], clos := [k.toNat] }
  | .cenv _ d k => { fmt := .s, gpr := [⟨d.toNat, 1, false, false, true⟩], clos := [k.toNat] }
  | .clive _ p k => { fmt := .s, predW := [p.toNat], clos := [k.toNat] }
  | .fref _ d a => { fmt := .s, gpr := [⟨d.toNat, 2, false, false, true⟩, ⟨a.toNat, 1, false, true, false⟩] }
  | .xget _ d _ _ => { fmt := .t, gpr := [⟨d.toNat, 1, false, false, true⟩], lat := 2 }
  | .xput _ d _ _ => { fmt := .t, gpr := [⟨d.toNat, 1, false, true, false⟩] }
  | .fadd _ d a b => { fmt := .f, gpr := [⟨d.toNat, 1, false, false, true⟩, ⟨a.toNat, 1, false, true, false⟩, ⟨b.toNat, 1, false, true, false⟩], lat := 4, accNf := true, accRm := true }
  | .fsub _ d a b => { fmt := .f, gpr := [⟨d.toNat, 1, false, false, true⟩, ⟨a.toNat, 1, false, true, false⟩, ⟨b.toNat, 1, false, true, false⟩], lat := 4, accNf := true, accRm := true }
  | .fmul _ d a b => { fmt := .f, gpr := [⟨d.toNat, 1, false, false, true⟩, ⟨a.toNat, 1, false, true, false⟩, ⟨b.toNat, 1, false, true, false⟩], lat := 4, accNf := true, accRm := true }
  | .fma _ d a b => { fmt := .f, gpr := [⟨d.toNat, 1, false, true, true⟩, ⟨a.toNat, 1, false, true, false⟩, ⟨b.toNat, 1, false, true, false⟩], lat := 4, accNf := true, accRm := true }
  | .fnma _ d a b => { fmt := .f, gpr := [⟨d.toNat, 1, false, true, true⟩, ⟨a.toNat, 1, false, true, false⟩, ⟨b.toNat, 1, false, true, false⟩], lat := 4, accNf := true, accRm := true }
  | .fmin _ d a b => { fmt := .f, gpr := [⟨d.toNat, 1, false, false, true⟩, ⟨a.toNat, 1, false, true, false⟩, ⟨b.toNat, 1, false, true, false⟩], lat := 4, accNf := true, accRm := true }
  | .fmax _ d a b => { fmt := .f, gpr := [⟨d.toNat, 1, false, false, true⟩, ⟨a.toNat, 1, false, true, false⟩, ⟨b.toNat, 1, false, true, false⟩], lat := 4, accNf := true, accRm := true }
  | .fdiv _ d a b => { fmt := .f, gpr := [⟨d.toNat, 1, false, false, true⟩, ⟨a.toNat, 1, false, true, false⟩, ⟨b.toNat, 1, false, true, false⟩], accNf := true, accRm := true }
  | .fsqrt _ d a => { fmt := .f, gpr := [⟨d.toNat, 1, false, false, true⟩, ⟨a.toNat, 1, false, true, false⟩], accNf := true, accRm := true }
  | .fabs _ d a => { fmt := .f, gpr := [⟨d.toNat, 1, false, false, true⟩, ⟨a.toNat, 1, false, true, false⟩], lat := 4, accNf := true, accRm := true }
  | .fneg _ d a => { fmt := .f, gpr := [⟨d.toNat, 1, false, false, true⟩, ⟨a.toNat, 1, false, true, false⟩], lat := 4, accNf := true, accRm := true }
  | .frcp _ d a => { fmt := .f, gpr := [⟨d.toNat, 1, false, false, true⟩, ⟨a.toNat, 1, false, true, false⟩], accNf := true, accRm := true }
  | .frsq _ d a => { fmt := .f, gpr := [⟨d.toNat, 1, false, false, true⟩, ⟨a.toNat, 1, false, true, false⟩], accNf := true, accRm := true }
  | .fexp2 _ d a => { fmt := .f, gpr := [⟨d.toNat, 1, false, false, true⟩, ⟨a.toNat, 1, false, true, false⟩], accNf := true, accRm := true }
  | .flog2 _ d a => { fmt := .f, gpr := [⟨d.toNat, 1, false, false, true⟩, ⟨a.toNat, 1, false, true, false⟩], accNf := true, accRm := true }
  | .fsinpi _ d a => { fmt := .f, gpr := [⟨d.toNat, 1, false, false, true⟩, ⟨a.toNat, 1, false, true, false⟩], accNf := true, accRm := true }
  | .fcospi _ d a => { fmt := .f, gpr := [⟨d.toNat, 1, false, false, true⟩, ⟨a.toNat, 1, false, true, false⟩], accNf := true, accRm := true }
  | .ftanh _ d a => { fmt := .f, gpr := [⟨d.toNat, 1, false, false, true⟩, ⟨a.toNat, 1, false, true, false⟩], accNf := true, accRm := true }
  | .ffloor _ d a => { fmt := .f, gpr := [⟨d.toNat, 1, false, false, true⟩, ⟨a.toNat, 1, false, true, false⟩], lat := 4, accNf := true, accRm := true }
  | .fceil _ d a => { fmt := .f, gpr := [⟨d.toNat, 1, false, false, true⟩, ⟨a.toNat, 1, false, true, false⟩], lat := 4, accNf := true, accRm := true }
  | .ftrunc _ d a => { fmt := .f, gpr := [⟨d.toNat, 1, false, false, true⟩, ⟨a.toNat, 1, false, true, false⟩], lat := 4, accNf := true, accRm := true }
  | .frint _ d a => { fmt := .f, gpr := [⟨d.toNat, 1, false, false, true⟩, ⟨a.toNat, 1, false, true, false⟩], lat := 4, accNf := true, accRm := true }
  | .fclass _ d a => { fmt := .f, gpr := [⟨d.toNat, 1, false, false, true⟩, ⟨a.toNat, 1, false, true, false⟩], lat := 4, accNf := true, accRm := true }
  | .fcvtF32I32 _ d a => { fmt := .f, gpr := [⟨d.toNat, 1, false, false, true⟩, ⟨a.toNat, 1, false, true, false⟩], lat := 4, accNf := true, accRm := true }
  | .fcvtF32Ui32 _ d a => { fmt := .f, gpr := [⟨d.toNat, 1, false, false, true⟩, ⟨a.toNat, 1, false, true, false⟩], lat := 4, accNf := true, accRm := true }
  | .fcvtI32F32 _ d a => { fmt := .f, gpr := [⟨d.toNat, 1, false, false, true⟩, ⟨a.toNat, 1, false, true, false⟩], lat := 4, accNf := true, accRm := true }
  | .fcvtI32rF32 _ d a => { fmt := .f, gpr := [⟨d.toNat, 1, false, false, true⟩, ⟨a.toNat, 1, false, true, false⟩], lat := 4, accNf := true, accRm := true }
  | .fcvtUi32F32 _ d a => { fmt := .f, gpr := [⟨d.toNat, 1, false, false, true⟩, ⟨a.toNat, 1, false, true, false⟩], lat := 4, accNf := true, accRm := true }
  | .fcvtF16F32 _ d a => { fmt := .f, gpr := [⟨d.toNat, 1, false, false, true⟩, ⟨a.toNat, 1, false, true, false⟩], lat := 4, accNf := true, accRm := true }
  | .fcvtF32F16 _ d a => { fmt := .f, gpr := [⟨d.toNat, 1, false, false, true⟩, ⟨a.toNat, 1, false, true, false⟩], lat := 4, accNf := true, accRm := true }
  | .fcvtBf16F32 _ d a => { fmt := .f, gpr := [⟨d.toNat, 1, false, false, true⟩, ⟨a.toNat, 1, false, true, false⟩], lat := 4, accNf := true, accRm := true }
  | .fcvtF32Bf16 _ d a => { fmt := .f, gpr := [⟨d.toNat, 1, false, false, true⟩, ⟨a.toNat, 1, false, true, false⟩], lat := 4, accNf := true, accRm := true }
  | .fcvtE4m3F32 _ d a => { fmt := .f, gpr := [⟨d.toNat, 1, false, false, true⟩, ⟨a.toNat, 4, false, true, false⟩], lat := 4, accNf := true, accRm := true }
  | .fcvtE4m3nF32 _ d a => { fmt := .f, gpr := [⟨d.toNat, 1, false, false, true⟩, ⟨a.toNat, 4, false, true, false⟩], lat := 4, accNf := true, accRm := true }
  | .fcvtE5m2F32 _ d a => { fmt := .f, gpr := [⟨d.toNat, 1, false, false, true⟩, ⟨a.toNat, 4, false, true, false⟩], lat := 4, accNf := true, accRm := true }
  | .fcvtF32E4m3 _ d a _ => { fmt := .f, gpr := [⟨d.toNat, 1, false, false, true⟩, ⟨a.toNat, 1, false, true, false⟩], lat := 4, accNf := true, accRm := true }
  | .fcvtF32E5m2 _ d a _ => { fmt := .f, gpr := [⟨d.toNat, 1, false, false, true⟩, ⟨a.toNat, 1, false, true, false⟩], lat := 4, accNf := true, accRm := true }
  | .fcvtF32F64 _ d a => { fmt := .f, gpr := [⟨d.toNat, 1, false, false, true⟩, ⟨a.toNat, 2, false, true, false⟩], accNf := true, accRm := true }
  | .fcvtF64F32 _ d a => { fmt := .f, gpr := [⟨d.toNat, 2, false, false, true⟩, ⟨a.toNat, 1, false, true, false⟩], accNf := true, accRm := true }
  | .fcvtF64I32 _ d a => { fmt := .f, gpr := [⟨d.toNat, 2, false, false, true⟩, ⟨a.toNat, 1, false, true, false⟩], accNf := true, accRm := true }
  | .fcvtI32F64 _ d a => { fmt := .f, gpr := [⟨d.toNat, 1, false, false, true⟩, ⟨a.toNat, 2, false, true, false⟩], accNf := true, accRm := true }
  | .fcmp _ p _ a b => { fmt := .f, gpr := [⟨a.toNat, 1, false, true, false⟩, ⟨b.toNat, 1, false, true, false⟩], predW := [p.toNat], lat := 4, accNf := true, accRm := true }
  | .hfma2 _ d a b => { fmt := .f, gpr := [⟨d.toNat, 1, false, true, true⟩, ⟨a.toNat, 1, false, true, false⟩, ⟨b.toNat, 1, false, true, false⟩], lat := 4, accNf := true, accRm := true }
  | .hadd2 _ d a b => { fmt := .f, gpr := [⟨d.toNat, 1, false, false, true⟩, ⟨a.toNat, 1, false, true, false⟩, ⟨b.toNat, 1, false, true, false⟩], lat := 4, accNf := true, accRm := true }
  | .hmul2 _ d a b => { fmt := .f, gpr := [⟨d.toNat, 1, false, false, true⟩, ⟨a.toNat, 1, false, true, false⟩, ⟨b.toNat, 1, false, true, false⟩], lat := 4, accNf := true, accRm := true }
  | .bfma2 _ d a b => { fmt := .f, gpr := [⟨d.toNat, 1, false, true, true⟩, ⟨a.toNat, 1, false, true, false⟩, ⟨b.toNat, 1, false, true, false⟩], lat := 4, accNf := true, accRm := true }
  | .dadd _ d a b => { fmt := .f, gpr := [⟨d.toNat, 2, false, false, true⟩, ⟨a.toNat, 2, false, true, false⟩, ⟨b.toNat, 2, false, true, false⟩], accNf := true, accRm := true }
  | .dmul _ d a b => { fmt := .f, gpr := [⟨d.toNat, 2, false, false, true⟩, ⟨a.toNat, 2, false, true, false⟩, ⟨b.toNat, 2, false, true, false⟩], accNf := true, accRm := true }
  | .dfma _ d a b => { fmt := .f, gpr := [⟨d.toNat, 2, false, true, true⟩, ⟨a.toNat, 2, false, true, false⟩, ⟨b.toNat, 2, false, true, false⟩], accNf := true, accRm := true }
  | .dsub _ d a => { fmt := .f, gpr := [⟨d.toNat, 2, false, true, true⟩, ⟨a.toNat, 2, false, true, false⟩], accNf := true, accRm := true }
  | .dmin _ d a => { fmt := .f, gpr := [⟨d.toNat, 2, false, true, true⟩, ⟨a.toNat, 2, false, true, false⟩], accNf := true, accRm := true }
  | .dmax _ d a => { fmt := .f, gpr := [⟨d.toNat, 2, false, true, true⟩, ⟨a.toNat, 2, false, true, false⟩], accNf := true, accRm := true }
  | .ddiv _ d a => { fmt := .f, gpr := [⟨d.toNat, 2, false, true, true⟩, ⟨a.toNat, 2, false, true, false⟩], accNf := true, accRm := true }
  | .dsqrt _ d a => { fmt := .f, gpr := [⟨d.toNat, 2, false, false, true⟩, ⟨a.toNat, 2, false, true, false⟩], accNf := true, accRm := true }
  | .dneg _ d a => { fmt := .f, gpr := [⟨d.toNat, 2, false, false, true⟩, ⟨a.toNat, 2, false, true, false⟩], accNf := true, accRm := true }
  | .dabs _ d a => { fmt := .f, gpr := [⟨d.toNat, 2, false, false, true⟩, ⟨a.toNat, 2, false, true, false⟩], accNf := true, accRm := true }
  | .dp4 _ d a b => { fmt := .t, gpr := [⟨d.toNat, 1, false, true, true⟩, ⟨a.toNat, 1, false, true, false⟩, ⟨b.toNat, 1, false, true, false⟩], lat := 3 }
  | .qpush _ d a b => { fmt := .tf, gpr := [⟨d.toNat, 1, false, false, true⟩, ⟨a.toNat, 2, false, true, false⟩, ⟨b.toNat, 16, true, true, false⟩] }
  | .qtry _ d a b => { fmt := .tf, gpr := [⟨d.toNat, 1, false, false, true⟩, ⟨a.toNat, 2, false, true, false⟩, ⟨b.toNat, 16, true, true, false⟩] }
  | .qspawn _ d a b => { fmt := .tf, gpr := [⟨d.toNat, 1, false, false, true⟩, ⟨a.toNat, 2, false, true, false⟩, ⟨b.toNat, 6, true, true, false⟩] }
  | .qlen _ d a => { fmt := .tf, gpr := [⟨d.toNat, 1, false, false, true⟩, ⟨a.toNat, 2, false, true, false⟩] }
  | .ann _ d a b => { fmt := .tf, gpr := [⟨d.toNat, 1, false, false, true⟩, ⟨a.toNat, 4, false, true, false⟩, ⟨b.toNat, 2, false, true, false⟩], priv := .sys }
  | .wdr _ d a => { fmt := .tf, gpr := [⟨d.toNat, 1, false, false, true⟩, ⟨a.toNat, 4, false, true, false⟩], priv := .sys }
  | .promo _ d a => { fmt := .tf, gpr := [⟨d.toNat, 1, false, false, true⟩, ⟨a.toNat, 4, false, true, false⟩], priv := .sys }
  | .rqry _ d a => { fmt := .tf, gpr := [⟨d.toNat, 4, false, false, true⟩, ⟨a.toNat, 2, false, true, false⟩], priv := .sys }
  | .lnkpark _ d a => { fmt := .s, gpr := [⟨d.toNat, 1, false, false, true⟩, ⟨a.toNat, 2, true, true, false⟩], priv := .sys }
  | .lnkwake _ d a => { fmt := .s, gpr := [⟨d.toNat, 1, false, false, true⟩, ⟨a.toNat, 2, true, true, false⟩], priv := .sys }
  | .lnkstat _ d a => { fmt := .s, gpr := [⟨d.toNat, 4, false, false, true⟩, ⟨a.toNat, 1, true, true, false⟩], priv := .sys }
  | .lnkdrain _ d a => { fmt := .s, gpr := [⟨d.toNat, 1, false, false, true⟩, ⟨a.toNat, 1, true, true, false⟩], priv := .sys }
  | .lnksched _ d a => { fmt := .s, gpr := [⟨d.toNat, 1, false, false, true⟩, ⟨a.toNat, 4, true, true, false⟩], priv := .sys }
  | .semacq _ d => { fmt := .s, gpr := [⟨d.toNat, 1, false, false, true⟩], priv := .sys }
  | .semrel _ d => { fmt := .s, gpr := [⟨d.toNat, 1, false, false, true⟩], priv := .sys }
  | .purge _ d a => { fmt := .s, gpr := [⟨d.toNat, 1, false, false, true⟩, ⟨a.toNat, 1, false, true, false⟩], priv := .sys }
  | .lb _ d a _ => { fmt := .m, gpr := [⟨d.toNat, 1, false, false, true⟩, ⟨a.toNat, 1, false, true, false⟩], accImm := true }
  | .lbu _ d a _ => { fmt := .m, gpr := [⟨d.toNat, 1, false, false, true⟩, ⟨a.toNat, 1, false, true, false⟩], accImm := true }
  | .lh _ d a _ => { fmt := .m, gpr := [⟨d.toNat, 1, false, false, true⟩, ⟨a.toNat, 1, false, true, false⟩], accImm := true }
  | .lhu _ d a _ => { fmt := .m, gpr := [⟨d.toNat, 1, false, false, true⟩, ⟨a.toNat, 1, false, true, false⟩], accImm := true }
  | .lw _ d a _ => { fmt := .m, gpr := [⟨d.toNat, 1, false, false, true⟩, ⟨a.toNat, 1, false, true, false⟩], accImm := true }
  | .ld _ d a _ => { fmt := .m, gpr := [⟨d.toNat, 2, false, false, true⟩, ⟨a.toNat, 1, false, true, false⟩], accImm := true }
  | .lq _ d a _ => { fmt := .m, gpr := [⟨d.toNat, 4, false, false, true⟩, ⟨a.toNat, 1, false, true, false⟩], accImm := true }
  | .sb _ d a _ => { fmt := .m, gpr := [⟨d.toNat, 1, false, true, false⟩, ⟨a.toNat, 1, false, true, false⟩], accImm := true }
  | .sh _ d a _ => { fmt := .m, gpr := [⟨d.toNat, 1, false, true, false⟩, ⟨a.toNat, 1, false, true, false⟩], accImm := true }
  | .sw _ d a _ => { fmt := .m, gpr := [⟨d.toNat, 1, false, true, false⟩, ⟨a.toNat, 1, false, true, false⟩], accImm := true }
  | .sd _ d a _ => { fmt := .m, gpr := [⟨d.toNat, 2, false, true, false⟩, ⟨a.toNat, 1, false, true, false⟩], accImm := true }
  | .sq _ d a _ => { fmt := .m, gpr := [⟨d.toNat, 4, false, true, false⟩, ⟨a.toNat, 1, false, true, false⟩], accImm := true }
  | .setbase _ _ a b => { fmt := .tf, gpr := [⟨a.toNat, 1, false, true, false⟩, ⟨b.toNat, 1, false, true, false⟩], lat := 1 }
  | .setidx _ _ a => { fmt := .tf, gpr := [⟨a.toNat, 1, false, true, false⟩], lat := 1 }
  | .addidx _ _ a => { fmt := .tf, gpr := [⟨a.toNat, 1, false, true, false⟩], lat := 1 }
  | .getidx _ d _ => { fmt := .tf, gpr := [⟨d.toNat, 1, false, false, true⟩], lat := 1 }
  | .frl _ d a _ => { fmt := .m, gpr := [⟨d.toNat, 1, false, false, true⟩, ⟨a.toNat, 2, false, true, false⟩], accImm := true }
  | .frs _ d a _ => { fmt := .m, gpr := [⟨d.toNat, 1, false, true, false⟩, ⟨a.toNat, 2, false, true, false⟩], accImm := true }
  | .wload _ d a => { fmt := .s, gpr := [⟨d.toNat, 1, false, false, true⟩, ⟨a.toNat, 3, true, true, false⟩] }
  | .mma _ d a => { fmt := .s, gpr := [⟨d.toNat, 1, false, false, true⟩, ⟨a.toNat, 4, true, true, false⟩] }
  | .accx _ d a => { fmt := .s, gpr := [⟨d.toNat, 1, false, false, true⟩, ⟨a.toNat, 4, true, true, false⟩] }
  | .tclr _ a => { fmt := .s, gpr := [⟨a.toNat, 1, true, true, false⟩] }
  | .quant2 _ d a => { fmt := .s, gpr := [⟨d.toNat, 1, false, false, true⟩, ⟨a.toNat, 7, true, true, false⟩] }
  | .tstat _ d => { fmt := .s, gpr := [⟨d.toNat, 1, false, false, true⟩] }
  | .tdep _ d a => { fmt := .s, gpr := [⟨d.toNat, 1, false, false, true⟩, ⟨a.toNat, 7, true, true, false⟩] }
  | .tarv _ d a => { fmt := .s, gpr := [⟨d.toNat, 1, false, false, true⟩, ⟨a.toNat, 2, true, true, false⟩] }
  | .tarm _ d a => { fmt := .s, gpr := [⟨d.toNat, 1, false, false, true⟩, ⟨a.toNat, 2, true, true, false⟩] }
  | .aadd ct d a b => { fmt := .a, gpr := [⟨d.toNat, wide ct, false, false, true⟩, ⟨a.toNat, 1, false, true, false⟩, ⟨b.toNat, wide ct, false, true, false⟩], accW64 := true, accScope := true }
  | .aand ct d a b => { fmt := .a, gpr := [⟨d.toNat, wide ct, false, false, true⟩, ⟨a.toNat, 1, false, true, false⟩, ⟨b.toNat, wide ct, false, true, false⟩], accW64 := true, accScope := true }
  | .aor ct d a b => { fmt := .a, gpr := [⟨d.toNat, wide ct, false, false, true⟩, ⟨a.toNat, 1, false, true, false⟩, ⟨b.toNat, wide ct, false, true, false⟩], accW64 := true, accScope := true }
  | .axor ct d a b => { fmt := .a, gpr := [⟨d.toNat, wide ct, false, false, true⟩, ⟨a.toNat, 1, false, true, false⟩, ⟨b.toNat, wide ct, false, true, false⟩], accW64 := true, accScope := true }
  | .amin ct d a b => { fmt := .a, gpr := [⟨d.toNat, wide ct, false, false, true⟩, ⟨a.toNat, 1, false, true, false⟩, ⟨b.toNat, wide ct, false, true, false⟩], accW64 := true, accScope := true }
  | .amax ct d a b => { fmt := .a, gpr := [⟨d.toNat, wide ct, false, false, true⟩, ⟨a.toNat, 1, false, true, false⟩, ⟨b.toNat, wide ct, false, true, false⟩], accW64 := true, accScope := true }
  | .aminu ct d a b => { fmt := .a, gpr := [⟨d.toNat, wide ct, false, false, true⟩, ⟨a.toNat, 1, false, true, false⟩, ⟨b.toNat, wide ct, false, true, false⟩], accW64 := true, accScope := true }
  | .amaxu ct d a b => { fmt := .a, gpr := [⟨d.toNat, wide ct, false, false, true⟩, ⟨a.toNat, 1, false, true, false⟩, ⟨b.toNat, wide ct, false, true, false⟩], accW64 := true, accScope := true }
  | .aswp ct d a b => { fmt := .a, gpr := [⟨d.toNat, wide ct, false, false, true⟩, ⟨a.toNat, 1, false, true, false⟩, ⟨b.toNat, wide ct, false, true, false⟩], accW64 := true, accScope := true }
  | .acas ct d a b => { fmt := .a, gpr := [⟨d.toNat, wide ct, false, true, true⟩, ⟨a.toNat, 1, false, true, false⟩, ⟨b.toNat, wide ct, false, true, false⟩], accW64 := true, accScope := true }
  | .afadd ct d a b => { fmt := .a, gpr := [⟨d.toNat, wide ct, false, false, true⟩, ⟨a.toNat, 1, false, true, false⟩, ⟨b.toNat, wide ct, false, true, false⟩], accW64 := true, accScope := true }
  | .amaxp _ d a b => { fmt := .a, gpr := [⟨d.toNat, 2, false, false, true⟩, ⟨a.toNat, 1, false, true, false⟩, ⟨b.toNat, 2, false, true, false⟩], accW64 := true, accScope := true }
  | .aincm ct d a b => { fmt := .a, gpr := [⟨d.toNat, wide ct, false, false, true⟩, ⟨a.toNat, 1, false, true, false⟩, ⟨b.toNat, wide ct, false, true, false⟩], accW64 := true, accScope := true }
  | .fence _ _ _ _ _ => { fmt := .t }
  | .barInit _ d _ => { fmt := .s, gpr := [⟨d.toNat, 1, false, true, false⟩] }
  | .barArrive _ _ => { fmt := .s }
  | .barWait _ _ => { fmt := .s }
  | .barSync _ _ => { fmt := .s }
  | .barArrivec _ d _ => { fmt := .s, gpr := [⟨d.toNat, 1, false, true, false⟩] }
  | .barTest _ d _ => { fmt := .s, gpr := [⟨d.toNat, 1, false, false, true⟩] }
  | .barLeave _ _ => { fmt := .s }
  | .drain _ _ _ => { fmt := .t }
  | .voteAny _ d p => { fmt := .s, predR := [p.toNat], predW := [d.toNat], coll := true }
  | .voteAll _ d p => { fmt := .s, predR := [p.toNat], predW := [d.toNat], coll := true }
  | .voteBallot _ d p => { fmt := .s, gpr := [⟨d.toNat, 1, false, false, true⟩], predR := [p.toNat], coll := true }
  | .voteUni _ d p => { fmt := .s, predR := [p.toNat], predW := [d.toNat], coll := true }
  | .voteFany _ d _ => { fmt := .s, predW := [d.toNat], coll := true }
  | .voteFall _ d _ => { fmt := .s, predW := [d.toNat], coll := true }
  | .voteFballot _ d _ => { fmt := .s, gpr := [⟨d.toNat, 1, false, false, true⟩], coll := true }
  | .shflIdx _ d a b => { fmt := .tf, gpr := [⟨d.toNat, 1, false, false, true⟩, ⟨a.toNat, 1, false, true, false⟩, ⟨b.toNat, 1, false, true, false⟩], coll := true }
  | .shflUp _ d a b => { fmt := .tf, gpr := [⟨d.toNat, 1, false, false, true⟩, ⟨a.toNat, 1, false, true, false⟩, ⟨b.toNat, 1, false, true, false⟩], coll := true }
  | .shflDown _ d a b => { fmt := .tf, gpr := [⟨d.toNat, 1, false, false, true⟩, ⟨a.toNat, 1, false, true, false⟩, ⟨b.toNat, 1, false, true, false⟩], coll := true }
  | .shflXor _ d a b => { fmt := .tf, gpr := [⟨d.toNat, 1, false, false, true⟩, ⟨a.toNat, 1, false, true, false⟩, ⟨b.toNat, 1, false, true, false⟩], coll := true }
  | .redAdd _ d a => { fmt := .s, gpr := [⟨d.toNat, 1, false, false, true⟩, ⟨a.toNat, 1, false, true, false⟩], coll := true }
  | .redMin _ d a => { fmt := .s, gpr := [⟨d.toNat, 1, false, false, true⟩, ⟨a.toNat, 1, false, true, false⟩], coll := true }
  | .redMax _ d a => { fmt := .s, gpr := [⟨d.toNat, 1, false, false, true⟩, ⟨a.toNat, 1, false, true, false⟩], coll := true }
  | .redMinu _ d a => { fmt := .s, gpr := [⟨d.toNat, 1, false, false, true⟩, ⟨a.toNat, 1, false, true, false⟩], coll := true }
  | .redMaxu _ d a => { fmt := .s, gpr := [⟨d.toNat, 1, false, false, true⟩, ⟨a.toNat, 1, false, true, false⟩], coll := true }
  | .redAnd _ d a => { fmt := .s, gpr := [⟨d.toNat, 1, false, false, true⟩, ⟨a.toNat, 1, false, true, false⟩], coll := true }
  | .redOr _ d a => { fmt := .s, gpr := [⟨d.toNat, 1, false, false, true⟩, ⟨a.toNat, 1, false, true, false⟩], coll := true }
  | .redXor _ d a => { fmt := .s, gpr := [⟨d.toNat, 1, false, false, true⟩, ⟨a.toNat, 1, false, true, false⟩], coll := true }
  | .redFadd _ d a => { fmt := .s, gpr := [⟨d.toNat, 1, false, false, true⟩, ⟨a.toNat, 1, false, true, false⟩], accNf := true, coll := true }
  | .redFmin _ d a => { fmt := .s, gpr := [⟨d.toNat, 1, false, false, true⟩, ⟨a.toNat, 1, false, true, false⟩], accNf := true, coll := true }
  | .redFmax _ d a => { fmt := .s, gpr := [⟨d.toNat, 1, false, false, true⟩, ⟨a.toNat, 1, false, true, false⟩], accNf := true, coll := true }
  | .redAdd64 _ d a => { fmt := .s, gpr := [⟨d.toNat, 2, false, false, true⟩, ⟨a.toNat, 2, false, true, false⟩], coll := true }
  | .scanAdd _ d a _ => { fmt := .s, gpr := [⟨d.toNat, 1, false, false, true⟩, ⟨a.toNat, 1, false, true, false⟩], coll := true }
  | .scanMin _ d a _ => { fmt := .s, gpr := [⟨d.toNat, 1, false, false, true⟩, ⟨a.toNat, 1, false, true, false⟩], coll := true }
  | .scanMax _ d a _ => { fmt := .s, gpr := [⟨d.toNat, 1, false, false, true⟩, ⟨a.toNat, 1, false, true, false⟩], coll := true }
  | .scanMinu _ d a _ => { fmt := .s, gpr := [⟨d.toNat, 1, false, false, true⟩, ⟨a.toNat, 1, false, true, false⟩], coll := true }
  | .scanMaxu _ d a _ => { fmt := .s, gpr := [⟨d.toNat, 1, false, false, true⟩, ⟨a.toNat, 1, false, true, false⟩], coll := true }
  | .scanAnd _ d a _ => { fmt := .s, gpr := [⟨d.toNat, 1, false, false, true⟩, ⟨a.toNat, 1, false, true, false⟩], coll := true }
  | .scanOr _ d a _ => { fmt := .s, gpr := [⟨d.toNat, 1, false, false, true⟩, ⟨a.toNat, 1, false, true, false⟩], coll := true }
  | .scanXor _ d a _ => { fmt := .s, gpr := [⟨d.toNat, 1, false, false, true⟩, ⟨a.toNat, 1, false, true, false⟩], coll := true }
  | .scanFadd _ d a _ => { fmt := .s, gpr := [⟨d.toNat, 1, false, false, true⟩, ⟨a.toNat, 1, false, true, false⟩], accNf := true, coll := true }
  | .scanFmin _ d a _ => { fmt := .s, gpr := [⟨d.toNat, 1, false, false, true⟩, ⟨a.toNat, 1, false, true, false⟩], accNf := true, coll := true }
  | .scanFmax _ d a _ => { fmt := .s, gpr := [⟨d.toNat, 1, false, false, true⟩, ⟨a.toNat, 1, false, true, false⟩], accNf := true, coll := true }
  | .scanAdd64 _ d a _ => { fmt := .s, gpr := [⟨d.toNat, 2, false, false, true⟩, ⟨a.toNat, 2, false, true, false⟩], coll := true }
  | .matchEq32 _ d a => { fmt := .s, gpr := [⟨d.toNat, 1, false, false, true⟩, ⟨a.toNat, 1, false, true, false⟩], coll := true }
  | .matchEq64 _ d a => { fmt := .s, gpr := [⟨d.toNat, 1, false, false, true⟩, ⟨a.toNat, 2, false, true, false⟩], coll := true }
  | .matchLeader _ d a => { fmt := .s, gpr := [⟨d.toNat, 1, false, false, true⟩, ⟨a.toNat, 1, false, true, false⟩], coll := true }
  | .part _ _ => { fmt := .t, coll := true }
  | .cpy _ d a => { fmt := .s, gpr := [⟨d.toNat, 1, false, false, true⟩, ⟨a.toNat, 8, true, true, false⟩] }
  | .cpym _ d a => { fmt := .s, gpr := [⟨d.toNat, 1, false, false, true⟩, ⟨a.toNat, 16, true, true, false⟩] }
  | .chain _ d a => { fmt := .s, gpr := [⟨d.toNat, 1, false, false, true⟩, ⟨a.toNat, 16, true, true, false⟩] }
  | .psum _ d a => { fmt := .s, gpr := [⟨d.toNat, 1, false, false, true⟩, ⟨a.toNat, 7, true, true, false⟩] }
  | .rsort _ d a => { fmt := .s, gpr := [⟨d.toNat, 1, false, false, true⟩, ⟨a.toNat, 12, true, true, false⟩] }
  | .walk _ d a => { fmt := .s, gpr := [⟨d.toNat, 1, false, false, true⟩, ⟨a.toNat, 8, true, true, false⟩] }
  | _ => {}

/-- The steps of the package that no instruction word stands for and no lane issues. -/
def isEvent : Instr → Bool
  | .yieldExpiry _ => true
  | .poolEviction _ => true
  | .variableLatencyCompletion _ => true
  | .impreciseFaultReport _ => true
  | .mwaitWake _ => true
  | .mwaitLimit _ => true
  | .sheafExchange _ => true
  | .pendingSheafEntry _ => true
  | .environmentPortOperation _ => true
  | .readRequest _ => true
  | .writeRequest _ => true
  | .maskedWrite _ => true
  | .atomicRequest _ _ => true
  | .readResponse _ => true
  | .writeAcknowledgement _ => true
  | .atomicResponse _ => true
  | .combineEntryExpiry _ _ => true
  | .redirect _ => true
  | .moved _ => true
  | .refused _ => true
  | .poisonedResponse _ => true
  | .recallAcknowledgement _ => true
  | .recallTimeout _ _ => true
  | .skipNotice _ => true
  | .holdRetry _ => true
  | .holdRetryResend _ => true
  | .holdBufferAdmit _ => true
  | .stampExtension _ => true
  | .forwardedWrite _ => true
  | .countUpdateDeadline _ => true
  | .accessExpiry _ => true
  | .engineCommandStart _ => true
  | .engineCommandComplete _ => true
  | .matrixCommandStart _ => true
  | .mmaRowStep _ => true
  | .matrixCommandComplete _ => true
  | .tileTaskIssue _ => true
  | .groupBind _ _ => true
  | .groupRestore _ _ => true
  | .faultSwapOut _ => true
  | .preemptionRequest _ => true
  | .preemptionComplete _ => true
  | .preemptionFallback _ => true
  | .groupRetire _ => true
  | .starvationPreemption _ => true
  | .schedulingDecision _ => true
  | .queuePush _ => true
  | .pushRetry _ => true
  | .launchDispatch _ => true
  | .waitCounterRead _ => true
  | .launchComplete _ => true
  | .completionCounterAdd _ => true
  | .faultDescriptorWrite _ => true
  | .announcement _ => true
  | .withdrawal _ => true
  | .withdrawalAcknowledgement _ => true
  | .withdrawalLimit _ => true
  | .replicaListingAcknowledgement _ => true
  | .replicaAckTimeout _ => true
  | .promoteRequest _ => true
  | .moveFinal _ => true
  | .forwardListContinuation _ => true
  | .moveParkedEnd _ => true
  | .promoTimeout _ => true
  | .frameReceived _ _ => true
  | .refreshFlit _ => true
  | .refreshDue _ => true
  | .packetTransmit _ => true
  | .slotMarker _ => true
  | .meetingMarker _ => true
  | .drainMarker _ => true
  | .finalMarker _ => true
  | .relayPacket _ => true
  | .linkFunctionAccept _ => true
  | .wavelengthLock _ _ => true
  | .lossOfLock _ _ => true
  | .trainingTimeout _ => true
  | .wakeLockTimeout _ => true
  | .darkTimeout _ => true
  | .depthRewrite _ => true
  | .signatureCompare _ => true
  | .purgeStart _ => true
  | .purgeAcknowledgement _ => true
  | .purgeRelease _ => true
  | .powerLimit _ _ => true
  | .freezePin => true
  | .resetPin => true
  | .bypass _ => true
  | .idcode => true
  | .samplePreload _ _ => true
  | .extest => true
  | .seldie _ => true
  | .memrd _ => true
  | .fwCreateContext _ => true
  | .fwMakeContextLive _ => true
  | .fwRetireContext _ => true
  | .fwCreateRegion _ => true
  | .fwChangeRegion _ => true
  | .fwRetireRegion _ => true
  | .fwCreateQueue _ => true
  | .fwDestroyQueue _ => true
  | .fwInvalidateTranslations _ => true
  | .fwReplayParkedRange _ => true
  | .fwEmptyFaultRecord _ => true
  | .fwResetConsumed _ => true
  | .fwSetBudget _ => true
  | .fwAnnouncePortStatus _ => true
  | .fwWithdrawPortStatus _ => true
  | .fwAcquireSemaphore _ => true
  | .fwReleaseSemaphore _ => true
  | .fwSetRetry _ => true
  | .fwSetPreemptionLimit _ => true
  | .fwDesignateSequencer _ => true
  | .fwVersionQuery _ => true
  | .fwAttestationReport _ => true
  | .fwDeviceCertificate _ => true
  | .fwPowerState _ => true
  | .fwFirmwareUpdate _ => true
  | .fwFreeze _ => true
  | .fwPackageReset _ => true
  | .fwWriteStandTable _ => true
  | .fixedLatencyWriteback _ => true
  | .frameBoundary _ => true
  | _ => false

end Sys2Proof
end

