-- ==== Sys2Proof/Machine/Legal.lean ====
section
/-! DEFINITION. Legal: check 2 of R47 on an instruction's fields: reserved encodings, register classes, prefix acceptance. -/

namespace Sys2Proof

/-- What check 2 of R47 finds: nothing wrong, a fault in the prefix's acceptance (R42), or one in the word (R48). -/
inductive Verdict where
  | good | badPrefix | badWord
deriving DecidableEq, Repr

/-- R42: which prefix fields may be nonzero before which instruction. -/
def prefixOk (g : Sig) (ct : Ctl) : Bool :=
  match ct.pfx with
  | none => true
  | some p =>
    !(g.fmt == .b || g.fmt == .j || g.fmt == .lp || g.fmt == .c)
      && (p.guard5 == 0 || !(g.fmt == .l))
      && (!p.nf || g.accNf) && (p.rm == 0 || g.accRm) && (!p.w64 || g.accW64)
      && (p.scope == 0 || g.accScope) && (p.immext == 0 || g.accImm)

/-- R36 and R43: at most one guard source, and no nonzero sc under a scope override. Either of the two fields could be called the
faulting one; the model reports the following word (DESIGN CHOICE, log entry 68). -/
def overrideOk (ct : Ctl) : Bool :=
  match ct.pfx with
  | none => true
  | some p => (p.guard5 == 0 || ct.g == 0) && (p.scope == 0 || ct.sc == 0)

/-- The control fields a format does not have are 0, so that one word is one instruction. -/
def ctlCanonical (fm : Fmt) (ct : Ctl) : Bool :=
  (ct.g == 0 || fm == .t || fm == .s || fm == .m)
    && (ct.s == 0 || fm == .t || fm == .s || fm == .tf || fm == .i || fm == .f)
    && (ct.h == 0 || fm == .m) && (ct.ord == 0 || fm == .a) && (ct.sc == 0 || fm == .a)
    && (!ct.fzi || fm == .f) && (!ct.fzo || fm == .f)

/-- R34: what a register field may hold in a 32-, 64- or 128-bit position, or in a tuple (R203). -/
def opndOk (o : Opnd) : Bool :=
  if o.tuple then o.fld + o.n ≤ 120
  else if o.n = 1 then o.fld ≤ 125 && (!o.wr || o.fld ≤ 120)
  else if o.n = 2 then o.fld % 2 == 0 && (o.fld ≤ 118 || o.fld == 120)
  else o.fld % 4 == 0 && (o.fld ≤ 116 || o.fld == 120)

/-- A nonzero immext13 before a shift by an immediate (R119). -/
def immextUsed (ct : Ctl) : Bool := match ct.pfx with | some p => p.immext != 0 | none => false

/-- R119: a shift immediate lies in 0-31. -/
def shiftImmOk (i : BitVec 9) : Bool := i.toNat ≤ 31

/-- A shift whose own field is in range and whose immext13 is not 0: the faulting field lies in the prefix (R48, R119). -/
def shiftPrefixOk : Instr → Bool
  | .shli ct _ _ i => !(shiftImmOk i && immextUsed ct)
  | .shri ct _ _ i => !(shiftImmOk i && immextUsed ct)
  | .srai ct _ _ i => !(shiftImmOk i && immextUsed ct)
  | _ => true

/-- The checks on single instructions that their own rules add to check 2: R46, R79, R119, R136, R153, R162, R170,
R235, R250, R294; and the operand ranges of the outside events. -/
def fieldsOk : Instr → Bool
  | .shli _ _ _ i => shiftImmOk i
  | .shri _ _ _ i => shiftImmOk i
  | .srai _ _ _ i => shiftImmOk i
  | .getsr _ _ a => a.toNat ≤ 12
  | .setsr _ d _ => d.toNat = 0 || d.toNat = 2 || d.toNat = 5 || d.toNat = 7 || d.toNat = 8 || d.toNat = 9 || d.toNat = 11
  | .lwr _ _ i _ => i.toNat ≠ 3
  | .cap _ r n a _ =>
    n.toNat ≤ 14 && (n != 0 || a == 0) && (r == 0 || (n.toNat % 2 == 0 && a.toNat % 2 == 0))
  | .fence _ d a w _ => d != 0 && a != 0 && w != 0 && (w == 7 || (d.toNat < 32 && a.toNat < 32))
  | .drain _ a b => a.toNat ≤ 4 && b.toNat ≤ 3
  | .part _ a => 1 ≤ a.toNat && a.toNat ≤ 5
  | .voteFany _ _ m => m != 0
  | .voteFall _ _ m => m != 0
  | .voteFballot _ _ m => m != 0
  | .qpush _ _ _ b => b.toNat % 4 == 0
  | .qtry _ _ _ b => b.toNat % 4 == 0
  | .tarv _ _ a => a.toNat % 2 == 0
  | .tarm _ _ a => a.toNat % 2 == 0
  | .frl ct _ _ _ => ct.h == 0
  | .frs ct _ _ _ => ct.h == 0
  | .frameReceived port bytes => port < 16 && bytes.length == 1152
  | .wavelengthLock port lane => port < 16 && lane < 8
  | .lossOfLock port lane => port < 16 && lane < 8
  | .seldie die => die < 4
  | _ => true

/-- Check 2 of R47. The prefix's acceptance is looked at first: where both words are at fault, the model reports the prefix (DESIGN
CHOICE, log entry 68). -/
def legal (i : Instr) : Verdict :=
  let g := sigOf i
  let ct := ctlOf i
  if !prefixOk g ct || !shiftPrefixOk i then .badPrefix
  else if overrideOk ct && ctlCanonical g.fmt ct && g.gpr.all opndOk && fieldsOk i then .good
  else .badWord

end Sys2Proof
end

