-- ==== Sys2Proof/WellFormed.lean ====
section
/-! DEFINITION. WellFormed: the instructions that pass check 2 of R47. -/

namespace Sys2Proof

/-- What check 2 of R47 says of an instruction. -/
def verdict (i : Instr) : Verdict := legal i

/-- An instruction that check 2 of R47 lets through. -/
def wellFormed (i : Instr) : Bool := verdict i == .good

end Sys2Proof
end

