-- ==== Sys2Proof/Decode.lean ====
section
/-! DEFINITION. Decode: instruction words to instructions (R30 to R36, R42 to R46) and back. -/

namespace Sys2Proof

/-- Bits [lo+n-1:lo] of a word. -/
def fld (w lo n : Nat) : BitVec n := BitVec.ofNat n (w / 2 ^ lo)

/-- Bit `k` of a word. -/
def bitAt (w k : Nat) : Bool := w / 2 ^ k % 2 = 1

/-- The low fields of formats T and S: g and s. -/
def ctlT (p : Option Pfx) (w : Nat) : Ctl := { pfx := p, g := fld w 2 2, s := fld w 0 2 }
/-- The low field of format Tf, whose bits [3:2] are a function code: s. -/
def ctlTf (p : Option Pfx) (w : Nat) : Ctl := { pfx := p, s := fld w 0 2 }
/-- The low field of format I: s. -/
def ctlI (p : Option Pfx) (w : Nat) : Ctl := { pfx := p, s := fld w 0 2 }
/-- Format L has no low field. -/
def ctlL (p : Option Pfx) (_w : Nat) : Ctl := { pfx := p }
/-- The low fields of format M: g and h. -/
def ctlM (p : Option Pfx) (w : Nat) : Ctl := { pfx := p, g := fld w 2 2, h := fld w 0 2 }
/-- The low fields of format F: fzi, fzo and s. -/
def ctlF (p : Option Pfx) (w : Nat) : Ctl := { pfx := p, fzi := bitAt w 3, fzo := bitAt w 2, s := fld w 0 2 }
/-- The low fields of format A: ord and sc. -/
def ctlA (p : Option Pfx) (w : Nat) : Ctl := { pfx := p, ord := fld w 2 2, sc := fld w 0 2 }


/-- The rows of major opcode 0x1C (R44, R45); a word that none of them matches is no instruction. -/
def rowsOf1C (p : Option Pfx) (w : Nat) : Option Instr :=
  if w / 2 ^ 4 % 128 = 0 then some (.mov (ctlT p w) (fld w 18 7) (fld w 11 7)) else
  if w / 2 ^ 4 % 128 = 1 then some (.not (ctlT p w) (fld w 18 7) (fld w 11 7)) else
  if w / 2 ^ 4 % 128 = 2 then some (.neg (ctlT p w) (fld w 18 7) (fld w 11 7)) else
  if w / 2 ^ 4 % 128 = 3 then some (.abs (ctlT p w) (fld w 18 7) (fld w 11 7)) else
  if w / 2 ^ 4 % 128 = 4 then some (.clz (ctlT p w) (fld w 18 7) (fld w 11 7)) else
  if w / 2 ^ 4 % 128 = 5 then some (.ctz (ctlT p w) (fld w 18 7) (fld w 11 7)) else
  if w / 2 ^ 4 % 128 = 6 then some (.popc (ctlT p w) (fld w 18 7) (fld w 11 7)) else
  if w / 2 ^ 4 % 128 = 7 then some (.brev (ctlT p w) (fld w 18 7) (fld w 11 7)) else
  if w / 2 ^ 4 % 128 = 8 then some (.sext8 (ctlT p w) (fld w 18 7) (fld w 11 7)) else
  if w / 2 ^ 4 % 128 = 9 then some (.sext16 (ctlT p w) (fld w 18 7) (fld w 11 7)) else
  if w / 2 ^ 4 % 128 = 10 then some (.zext8 (ctlT p w) (fld w 18 7) (fld w 11 7)) else
  if w / 2 ^ 4 % 128 = 11 then some (.zext16 (ctlT p w) (fld w 18 7) (fld w 11 7)) else
  if w / 2 ^ 4 % 128 = 12 then some (.bswap (ctlT p w) (fld w 18 7) (fld w 11 7)) else
  if w / 2 ^ 4 % 128 = 13 then some (.mov64 (ctlT p w) (fld w 18 7) (fld w 11 7)) else
  none

/-- The rows of major opcode 0x31 (R44, R45); a word that none of them matches is no instruction. -/
def rowsOf31 (p : Option Pfx) (w : Nat) : Option Instr :=
  if w / 2 ^ 8 % 8 = 0 ∧ w / 2 ^ 15 % 8 = 0 ∧ w / 2 ^ 22 % 8 = 0 then some (.pand (ctlT p w) (fld w 18 4) (fld w 11 4) (fld w 4 4)) else
  if w / 2 ^ 8 % 8 = 1 ∧ w / 2 ^ 15 % 8 = 0 ∧ w / 2 ^ 22 % 8 = 0 then some (.por (ctlT p w) (fld w 18 4) (fld w 11 4) (fld w 4 4)) else
  if w / 2 ^ 8 % 8 = 2 ∧ w / 2 ^ 15 % 8 = 0 ∧ w / 2 ^ 22 % 8 = 0 then some (.pxor (ctlT p w) (fld w 18 4) (fld w 11 4) (fld w 4 4)) else
  if w / 2 ^ 8 % 8 = 3 ∧ w / 2 ^ 15 % 8 = 0 ∧ w / 2 ^ 22 % 8 = 0 then some (.pandn (ctlT p w) (fld w 18 4) (fld w 11 4) (fld w 4 4)) else
  if w / 2 ^ 8 % 8 = 4 ∧ w / 2 ^ 15 % 8 = 0 ∧ w / 2 ^ 22 % 8 = 0 then some (.porn (ctlT p w) (fld w 18 4) (fld w 11 4) (fld w 4 4)) else
  if w / 2 ^ 4 % 128 = 80 ∧ w / 2 ^ 15 % 8 = 0 ∧ w / 2 ^ 22 % 8 = 0 then some (.pmv (ctlT p w) (fld w 18 4) (fld w 11 4)) else
  if w / 2 ^ 4 % 128 = 96 ∧ w / 2 ^ 15 % 8 = 0 ∧ w / 2 ^ 22 % 8 = 0 then some (.pnot (ctlT p w) (fld w 18 4) (fld w 11 4)) else
  if w / 2 ^ 4 % 16384 = 2160 ∧ w / 2 ^ 22 % 8 = 0 then some (.pset (ctlT p w) (fld w 18 4)) else
  if w / 2 ^ 4 % 16384 = 112 ∧ w / 2 ^ 22 % 8 = 0 then some (.pclr (ctlT p w) (fld w 18 4)) else
  none

/-- The rows of major opcode 0x32 (R44, R45); a word that none of them matches is no instruction. -/
def rowsOf32 (p : Option Pfx) (w : Nat) : Option Instr :=
  if w / 2 ^ 4 % 16384 = 0 then some (.pmovToRegister (ctlT p w) (fld w 18 7)) else
  if w / 2 ^ 4 % 128 = 1 ∧ w / 2 ^ 18 % 128 = 0 then some (.pmovFromRegister (ctlT p w) (fld w 11 7)) else
  none

/-- The rows of major opcode 0x36 (R44, R45); a word that none of them matches is no instruction. -/
def rowsOf36 (p : Option Pfx) (w : Nat) : Option Instr :=
  if w / 2 ^ 4 % 128 = 0 ∧ w / 2 ^ 18 % 128 = 0 then some (.callr (ctlT p w) (fld w 11 7)) else
  none

/-- The rows of major opcode 0x37 (R44, R45); a word that none of them matches is no instruction. -/
def rowsOf37 (p : Option Pfx) (w : Nat) : Option Instr :=
  if w / 2 ^ 4 % 128 = 0 ∧ w / 2 ^ 18 % 128 = 0 then some (.jr (ctlT p w) (fld w 11 7)) else
  none

/-- The rows of major opcode 0x38 (R44, R45); a word that none of them matches is no instruction. -/
def rowsOf38 (p : Option Pfx) (w : Nat) : Option Instr :=
  if w / 2 ^ 4 % 2097152 = 0 then some (.nop (ctlT p w)) else
  if w / 2 ^ 4 % 2097152 = 1 then some (.ret (ctlT p w)) else
  if w / 2 ^ 4 % 2097152 = 2 then some (.exit (ctlT p w)) else
  if w / 2 ^ 4 % 2097152 = 3 then some (.yield (ctlT p w)) else
  if w / 2 ^ 4 % 128 = 4 ∧ w / 2 ^ 18 % 128 = 0 then some (.trap (ctlT p w) (fld w 11 7)) else
  if w / 2 ^ 4 % 2097152 = 5 then some (.brk (ctlT p w)) else
  if w / 2 ^ 4 % 2097152 = 6 then some (.eret (ctlT p w)) else
  if w / 2 ^ 4 % 128 = 7 ∧ w / 2 ^ 19 % 64 = 0 then some (.safept (ctlT p w) (fld w 18 1) (fld w 11 7)) else
  if w / 2 ^ 4 % 128 = 8 ∧ w / 2 ^ 18 % 128 = 0 then some (.win (ctlT p w) (fld w 11 7)) else
  if w / 2 ^ 4 % 128 = 9 then some (.mwait (ctlT p w) (fld w 18 7) (fld w 11 7)) else
  if w / 2 ^ 4 % 16384 = 10 then some (.cyc (ctlT p w) (fld w 18 7)) else
  if w / 2 ^ 4 % 16384 = 11 then some (.cych (ctlT p w) (fld w 18 7)) else
  if w / 2 ^ 4 % 128 = 12 then some (.getsr (ctlT p w) (fld w 18 7) (fld w 11 7)) else
  if w / 2 ^ 4 % 128 = 13 then some (.setsr (ctlT p w) (fld w 18 7) (fld w 11 7)) else
  none

/-- The rows of major opcode 0x39 (R44, R45); a word that none of them matches is no instruction. -/
def rowsOf39 (p : Option Pfx) (w : Nat) : Option Instr :=
  if w / 2 ^ 0 % 4 = 0 ∧ w / 2 ^ 5 % 32 = 0 then some (.loopCnt (fld w 18 7) (fld w 10 8) (fld w 2 3)) else
  if w / 2 ^ 0 % 4 = 1 ∧ w / 2 ^ 5 % 4 = 0 then some (.loopPipe (fld w 18 7) (fld w 10 8) (fld w 7 3) (fld w 2 3)) else
  if w / 2 ^ 0 % 4 = 2 ∧ w / 2 ^ 5 % 32 = 0 ∧ w / 2 ^ 22 % 8 = 0 then some (.loopWhile (fld w 18 4) (fld w 10 8) (fld w 2 3)) else
  none

/-- The rows of major opcode 0x3A (R44, R45); a word that none of them matches is no instruction. -/
def rowsOf3A (p : Option Pfx) (w : Nat) : Option Instr :=
  if w / 2 ^ 4 % 2097152 = 0 then some (.lexit (ctlT p w)) else
  if w / 2 ^ 4 % 2097152 = 1 then some (.lbrk (ctlT p w)) else
  if w / 2 ^ 4 % 128 = 2 ∧ w / 2 ^ 16 % 4 = 0 then some (.lrd (ctlT p w) (fld w 18 7) (fld w 13 3) (fld w 11 2)) else
  if w / 2 ^ 4 % 128 = 3 ∧ w / 2 ^ 23 % 4 = 0 then some (.lwr (ctlT p w) (fld w 20 3) (fld w 18 2) (fld w 11 7)) else
  none

/-- The rows of major opcode 0x3B (R44, R45); a word that none of them matches is no instruction. -/
def rowsOf3B (p : Option Pfx) (w : Nat) : Option Instr :=
  if w / 2 ^ 14 % 4 = 0 then some (.cap (fld w 21 4) (fld w 20 1) (fld w 16 4) (fld w 7 7) (fld w 0 7)) else
  none

/-- The rows of major opcode 0x3C (R44, R45); a word that none of them matches is no instruction. -/
def rowsOf3C (p : Option Pfx) (w : Nat) : Option Instr :=
  if w / 2 ^ 4 % 128 = 0 ∧ w / 2 ^ 15 % 1024 = 0 then some (.apply (ctlT p w) (fld w 11 4)) else
  none

/-- The rows of major opcode 0x3D (R44, R45); a word that none of them matches is no instruction. -/
def rowsOf3D (p : Option Pfx) (w : Nat) : Option Instr :=
  if w / 2 ^ 4 % 128 = 0 ∧ w / 2 ^ 15 % 1024 = 0 then some (.cpin (ctlT p w) (fld w 11 4)) else
  if w / 2 ^ 4 % 128 = 1 ∧ w / 2 ^ 15 % 1024 = 0 then some (.cdrop (ctlT p w) (fld w 11 4)) else
  if w / 2 ^ 4 % 128 = 2 ∧ w / 2 ^ 15 % 8 = 0 ∧ w / 2 ^ 22 % 8 = 0 then some (.cmov (ctlT p w) (fld w 18 4) (fld w 11 4)) else
  if w / 2 ^ 4 % 128 = 3 ∧ w / 2 ^ 15 % 8 = 0 then some (.cst (ctlT p w) (fld w 18 7) (fld w 11 4)) else
  if w / 2 ^ 4 % 128 = 4 ∧ w / 2 ^ 22 % 8 = 0 then some (.cld (ctlT p w) (fld w 18 4) (fld w 11 7)) else
  if w / 2 ^ 4 % 128 = 5 ∧ w / 2 ^ 15 % 8 = 0 then some (.cenv (ctlT p w) (fld w 18 7) (fld w 11 4)) else
  if w / 2 ^ 4 % 128 = 6 ∧ w / 2 ^ 15 % 8 = 0 ∧ w / 2 ^ 22 % 8 = 0 then some (.clive (ctlT p w) (fld w 18 4) (fld w 11 4)) else
  if w / 2 ^ 4 % 128 = 7 then some (.fref (ctlT p w) (fld w 18 7) (fld w 11 7)) else
  none

/-- The rows of major opcode 0x3E (R44, R45); a word that none of them matches is no instruction. -/
def rowsOf3E (p : Option Pfx) (w : Nat) : Option Instr :=
  if w / 2 ^ 4 % 128 = 0 then some (.xget (ctlT p w) (fld w 18 7) (fld w 16 2) (fld w 11 5)) else
  none

/-- The rows of major opcode 0x3F (R44, R45); a word that none of them matches is no instruction. -/
def rowsOf3F (p : Option Pfx) (w : Nat) : Option Instr :=
  if w / 2 ^ 4 % 128 = 0 then some (.xput (ctlT p w) (fld w 18 7) (fld w 16 2) (fld w 11 5)) else
  none

/-- The rows of major opcode 0x48 (R44, R45); a word that none of them matches is no instruction. -/
def rowsOf48 (p : Option Pfx) (w : Nat) : Option Instr :=
  if w / 2 ^ 4 % 128 = 0 then some (.fsqrt (ctlF p w) (fld w 18 7) (fld w 11 7)) else
  none

/-- The rows of major opcode 0x49 (R44, R45); a word that none of them matches is no instruction. -/
def rowsOf49 (p : Option Pfx) (w : Nat) : Option Instr :=
  if w / 2 ^ 4 % 128 = 0 then some (.fabs (ctlF p w) (fld w 18 7) (fld w 11 7)) else
  if w / 2 ^ 4 % 128 = 1 then some (.fneg (ctlF p w) (fld w 18 7) (fld w 11 7)) else
  if w / 2 ^ 4 % 128 = 2 then some (.frcp (ctlF p w) (fld w 18 7) (fld w 11 7)) else
  if w / 2 ^ 4 % 128 = 3 then some (.frsq (ctlF p w) (fld w 18 7) (fld w 11 7)) else
  if w / 2 ^ 4 % 128 = 4 then some (.fexp2 (ctlF p w) (fld w 18 7) (fld w 11 7)) else
  if w / 2 ^ 4 % 128 = 5 then some (.flog2 (ctlF p w) (fld w 18 7) (fld w 11 7)) else
  if w / 2 ^ 4 % 128 = 6 then some (.fsinpi (ctlF p w) (fld w 18 7) (fld w 11 7)) else
  if w / 2 ^ 4 % 128 = 7 then some (.fcospi (ctlF p w) (fld w 18 7) (fld w 11 7)) else
  if w / 2 ^ 4 % 128 = 8 then some (.ftanh (ctlF p w) (fld w 18 7) (fld w 11 7)) else
  if w / 2 ^ 4 % 128 = 9 then some (.ffloor (ctlF p w) (fld w 18 7) (fld w 11 7)) else
  if w / 2 ^ 4 % 128 = 10 then some (.fceil (ctlF p w) (fld w 18 7) (fld w 11 7)) else
  if w / 2 ^ 4 % 128 = 11 then some (.ftrunc (ctlF p w) (fld w 18 7) (fld w 11 7)) else
  if w / 2 ^ 4 % 128 = 12 then some (.frint (ctlF p w) (fld w 18 7) (fld w 11 7)) else
  if w / 2 ^ 4 % 128 = 13 then some (.fclass (ctlF p w) (fld w 18 7) (fld w 11 7)) else
  none

/-- The rows of major opcode 0x4A (R44, R45); a word that none of them matches is no instruction. -/
def rowsOf4A (p : Option Pfx) (w : Nat) : Option Instr :=
  if w / 2 ^ 4 % 128 = 0 then some (.fcvtF32I32 (ctlF p w) (fld w 18 7) (fld w 11 7)) else
  if w / 2 ^ 4 % 128 = 1 then some (.fcvtF32Ui32 (ctlF p w) (fld w 18 7) (fld w 11 7)) else
  if w / 2 ^ 4 % 128 = 2 then some (.fcvtI32F32 (ctlF p w) (fld w 18 7) (fld w 11 7)) else
  if w / 2 ^ 4 % 128 = 3 then some (.fcvtI32rF32 (ctlF p w) (fld w 18 7) (fld w 11 7)) else
  if w / 2 ^ 4 % 128 = 4 then some (.fcvtUi32F32 (ctlF p w) (fld w 18 7) (fld w 11 7)) else
  if w / 2 ^ 4 % 128 = 5 then some (.fcvtF16F32 (ctlF p w) (fld w 18 7) (fld w 11 7)) else
  if w / 2 ^ 4 % 128 = 6 then some (.fcvtF32F16 (ctlF p w) (fld w 18 7) (fld w 11 7)) else
  if w / 2 ^ 4 % 128 = 7 then some (.fcvtBf16F32 (ctlF p w) (fld w 18 7) (fld w 11 7)) else
  if w / 2 ^ 4 % 128 = 8 then some (.fcvtF32Bf16 (ctlF p w) (fld w 18 7) (fld w 11 7)) else
  if w / 2 ^ 4 % 128 = 9 then some (.fcvtE4m3F32 (ctlF p w) (fld w 18 7) (fld w 11 7)) else
  if w / 2 ^ 4 % 128 = 10 then some (.fcvtE4m3nF32 (ctlF p w) (fld w 18 7) (fld w 11 7)) else
  if w / 2 ^ 4 % 128 = 11 then some (.fcvtE5m2F32 (ctlF p w) (fld w 18 7) (fld w 11 7)) else
  if w / 2 ^ 6 % 32 = 3 then some (.fcvtF32E4m3 (ctlF p w) (fld w 18 7) (fld w 11 7) (fld w 4 2)) else
  if w / 2 ^ 6 % 32 = 4 then some (.fcvtF32E5m2 (ctlF p w) (fld w 18 7) (fld w 11 7) (fld w 4 2)) else
  if w / 2 ^ 4 % 128 = 20 then some (.fcvtF32F64 (ctlF p w) (fld w 18 7) (fld w 11 7)) else
  if w / 2 ^ 4 % 128 = 21 then some (.fcvtF64F32 (ctlF p w) (fld w 18 7) (fld w 11 7)) else
  if w / 2 ^ 4 % 128 = 22 then some (.fcvtF64I32 (ctlF p w) (fld w 18 7) (fld w 11 7)) else
  if w / 2 ^ 4 % 128 = 23 then some (.fcvtI32F64 (ctlF p w) (fld w 18 7) (fld w 11 7)) else
  none

/-- The rows of major opcode 0x53 (R44, R45); a word that none of them matches is no instruction. -/
def rowsOf53 (p : Option Pfx) (w : Nat) : Option Instr :=
  if w / 2 ^ 4 % 128 = 0 then some (.dsub (ctlF p w) (fld w 18 7) (fld w 11 7)) else
  if w / 2 ^ 4 % 128 = 1 then some (.dmin (ctlF p w) (fld w 18 7) (fld w 11 7)) else
  if w / 2 ^ 4 % 128 = 2 then some (.dmax (ctlF p w) (fld w 18 7) (fld w 11 7)) else
  if w / 2 ^ 4 % 128 = 3 then some (.ddiv (ctlF p w) (fld w 18 7) (fld w 11 7)) else
  if w / 2 ^ 4 % 128 = 4 then some (.dsqrt (ctlF p w) (fld w 18 7) (fld w 11 7)) else
  if w / 2 ^ 4 % 128 = 5 then some (.dneg (ctlF p w) (fld w 18 7) (fld w 11 7)) else
  if w / 2 ^ 4 % 128 = 6 then some (.dabs (ctlF p w) (fld w 18 7) (fld w 11 7)) else
  none

/-- The rows of major opcode 0x55 (R44, R45); a word that none of them matches is no instruction. -/
def rowsOf55 (p : Option Pfx) (w : Nat) : Option Instr :=
  if w / 2 ^ 2 % 4 = 0 then some (.qpush (ctlTf p w) (fld w 18 7) (fld w 11 7) (fld w 4 7)) else
  if w / 2 ^ 2 % 4 = 1 then some (.qtry (ctlTf p w) (fld w 18 7) (fld w 11 7) (fld w 4 7)) else
  if w / 2 ^ 2 % 4 = 2 then some (.qspawn (ctlTf p w) (fld w 18 7) (fld w 11 7) (fld w 4 7)) else
  if w / 2 ^ 2 % 512 = 3 then some (.qlen (ctlTf p w) (fld w 18 7) (fld w 11 7)) else
  none

/-- The rows of major opcode 0x56 (R44, R45); a word that none of them matches is no instruction. -/
def rowsOf56 (p : Option Pfx) (w : Nat) : Option Instr :=
  if w / 2 ^ 2 % 4 = 0 then some (.ann (ctlTf p w) (fld w 18 7) (fld w 11 7) (fld w 4 7)) else
  if w / 2 ^ 2 % 512 = 1 then some (.wdr (ctlTf p w) (fld w 18 7) (fld w 11 7)) else
  if w / 2 ^ 2 % 512 = 2 then some (.promo (ctlTf p w) (fld w 18 7) (fld w 11 7)) else
  if w / 2 ^ 2 % 512 = 3 then some (.rqry (ctlTf p w) (fld w 18 7) (fld w 11 7)) else
  none

/-- The rows of major opcode 0x57 (R44, R45); a word that none of them matches is no instruction. -/
def rowsOf57 (p : Option Pfx) (w : Nat) : Option Instr :=
  if w / 2 ^ 4 % 128 = 0 then some (.lnkpark (ctlT p w) (fld w 18 7) (fld w 11 7)) else
  if w / 2 ^ 4 % 128 = 1 then some (.lnkwake (ctlT p w) (fld w 18 7) (fld w 11 7)) else
  if w / 2 ^ 4 % 128 = 2 then some (.lnkstat (ctlT p w) (fld w 18 7) (fld w 11 7)) else
  if w / 2 ^ 4 % 128 = 3 then some (.lnkdrain (ctlT p w) (fld w 18 7) (fld w 11 7)) else
  if w / 2 ^ 4 % 128 = 4 then some (.lnksched (ctlT p w) (fld w 18 7) (fld w 11 7)) else
  if w / 2 ^ 4 % 16384 = 5 then some (.semacq (ctlT p w) (fld w 18 7)) else
  if w / 2 ^ 4 % 16384 = 6 then some (.semrel (ctlT p w) (fld w 18 7)) else
  if w / 2 ^ 4 % 128 = 8 then some (.purge (ctlT p w) (fld w 18 7) (fld w 11 7)) else
  none

/-- The rows of major opcode 0x64 (R44, R45); a word that none of them matches is no instruction. -/
def rowsOf64 (p : Option Pfx) (w : Nat) : Option Instr :=
  if w / 2 ^ 2 % 4 = 0 ∧ w / 2 ^ 20 % 32 = 0 then some (.setbase (ctlTf p w) (fld w 18 2) (fld w 11 7) (fld w 4 7)) else
  if w / 2 ^ 2 % 512 = 1 ∧ w / 2 ^ 20 % 32 = 0 then some (.setidx (ctlTf p w) (fld w 18 2) (fld w 11 7)) else
  if w / 2 ^ 2 % 512 = 2 ∧ w / 2 ^ 20 % 32 = 0 then some (.addidx (ctlTf p w) (fld w 18 2) (fld w 11 7)) else
  if w / 2 ^ 2 % 512 = 3 ∧ w / 2 ^ 13 % 32 = 0 then some (.getidx (ctlTf p w) (fld w 18 7) (fld w 11 2)) else
  none

/-- The rows of major opcode 0x65 (R44, R45); a word that none of them matches is no instruction. -/
def rowsOf65 (p : Option Pfx) (w : Nat) : Option Instr :=
  if w / 2 ^ 0 % 4 = 0 then some (.frl (ctlM p w) (fld w 18 7) (fld w 11 7) (fld w 4 7)) else
  none

/-- The rows of major opcode 0x66 (R44, R45); a word that none of them matches is no instruction. -/
def rowsOf66 (p : Option Pfx) (w : Nat) : Option Instr :=
  if w / 2 ^ 0 % 4 = 0 then some (.frs (ctlM p w) (fld w 18 7) (fld w 11 7) (fld w 4 7)) else
  none

/-- The rows of major opcode 0x67 (R44, R45); a word that none of them matches is no instruction. -/
def rowsOf67 (p : Option Pfx) (w : Nat) : Option Instr :=
  if w / 2 ^ 4 % 128 = 0 then some (.wload (ctlT p w) (fld w 18 7) (fld w 11 7)) else
  if w / 2 ^ 4 % 128 = 1 then some (.mma (ctlT p w) (fld w 18 7) (fld w 11 7)) else
  if w / 2 ^ 4 % 128 = 2 then some (.accx (ctlT p w) (fld w 18 7) (fld w 11 7)) else
  if w / 2 ^ 4 % 128 = 3 ∧ w / 2 ^ 18 % 128 = 0 then some (.tclr (ctlT p w) (fld w 11 7)) else
  if w / 2 ^ 4 % 128 = 4 then some (.quant2 (ctlT p w) (fld w 18 7) (fld w 11 7)) else
  if w / 2 ^ 4 % 16384 = 5 then some (.tstat (ctlT p w) (fld w 18 7)) else
  if w / 2 ^ 4 % 128 = 6 then some (.tdep (ctlT p w) (fld w 18 7) (fld w 11 7)) else
  if w / 2 ^ 4 % 128 = 7 then some (.tarv (ctlT p w) (fld w 18 7) (fld w 11 7)) else
  if w / 2 ^ 4 % 128 = 8 then some (.tarm (ctlT p w) (fld w 18 7) (fld w 11 7)) else
  none

/-- The rows of major opcode 0x75 (R44, R45); a word that none of them matches is no instruction. -/
def rowsOf75 (p : Option Pfx) (w : Nat) : Option Instr :=
  if w / 2 ^ 9 % 4 = 0 ∧ w / 2 ^ 17 % 2 = 0 ∧ w / 2 ^ 24 % 2 = 0 then some (.fence (ctlT p w) (fld w 18 6) (fld w 11 6) (fld w 6 3) (fld w 4 2)) else
  none

/-- The rows of major opcode 0x76 (R44, R45); a word that none of them matches is no instruction. -/
def rowsOf76 (p : Option Pfx) (w : Nat) : Option Instr :=
  if w / 2 ^ 4 % 128 = 0 ∧ w / 2 ^ 16 % 4 = 0 then some (.barInit (ctlT p w) (fld w 18 7) (fld w 11 5)) else
  if w / 2 ^ 4 % 128 = 1 ∧ w / 2 ^ 16 % 512 = 0 then some (.barArrive (ctlT p w) (fld w 11 5)) else
  if w / 2 ^ 4 % 128 = 2 ∧ w / 2 ^ 16 % 512 = 0 then some (.barWait (ctlT p w) (fld w 11 5)) else
  if w / 2 ^ 4 % 128 = 3 ∧ w / 2 ^ 16 % 512 = 0 then some (.barSync (ctlT p w) (fld w 11 5)) else
  if w / 2 ^ 4 % 128 = 4 ∧ w / 2 ^ 16 % 4 = 0 then some (.barArrivec (ctlT p w) (fld w 18 7) (fld w 11 5)) else
  if w / 2 ^ 4 % 128 = 5 ∧ w / 2 ^ 16 % 4 = 0 then some (.barTest (ctlT p w) (fld w 18 7) (fld w 11 5)) else
  if w / 2 ^ 4 % 128 = 6 ∧ w / 2 ^ 16 % 512 = 0 then some (.barLeave (ctlT p w) (fld w 11 5)) else
  none

/-- The rows of major opcode 0x77 (R44, R45); a word that none of them matches is no instruction. -/
def rowsOf77 (p : Option Pfx) (w : Nat) : Option Instr :=
  if w / 2 ^ 18 % 128 = 0 then some (.drain (ctlT p w) (fld w 11 7) (fld w 4 7)) else
  none

/-- The rows of major opcode 0x78 (R44, R45); a word that none of them matches is no instruction. -/
def rowsOf78 (p : Option Pfx) (w : Nat) : Option Instr :=
  if w / 2 ^ 4 % 128 = 0 ∧ w / 2 ^ 15 % 8 = 0 ∧ w / 2 ^ 22 % 8 = 0 then some (.voteAny (ctlT p w) (fld w 18 4) (fld w 11 4)) else
  if w / 2 ^ 4 % 128 = 1 ∧ w / 2 ^ 15 % 8 = 0 ∧ w / 2 ^ 22 % 8 = 0 then some (.voteAll (ctlT p w) (fld w 18 4) (fld w 11 4)) else
  if w / 2 ^ 4 % 128 = 2 ∧ w / 2 ^ 15 % 8 = 0 then some (.voteBallot (ctlT p w) (fld w 18 7) (fld w 11 4)) else
  if w / 2 ^ 4 % 128 = 3 ∧ w / 2 ^ 15 % 8 = 0 ∧ w / 2 ^ 22 % 8 = 0 then some (.voteUni (ctlT p w) (fld w 18 4) (fld w 11 4)) else
  if w / 2 ^ 4 % 128 = 4 ∧ w / 2 ^ 22 % 8 = 0 then some (.voteFany (ctlT p w) (fld w 18 4) (fld w 11 7)) else
  if w / 2 ^ 4 % 128 = 5 ∧ w / 2 ^ 22 % 8 = 0 then some (.voteFall (ctlT p w) (fld w 18 4) (fld w 11 7)) else
  if w / 2 ^ 4 % 128 = 6 then some (.voteFballot (ctlT p w) (fld w 18 7) (fld w 11 7)) else
  none

/-- The rows of major opcode 0x79 (R44, R45); a word that none of them matches is no instruction. -/
def rowsOf79 (p : Option Pfx) (w : Nat) : Option Instr :=
  if w / 2 ^ 2 % 4 = 0 then some (.shflIdx (ctlTf p w) (fld w 18 7) (fld w 11 7) (fld w 4 7)) else
  if w / 2 ^ 2 % 4 = 1 then some (.shflUp (ctlTf p w) (fld w 18 7) (fld w 11 7) (fld w 4 7)) else
  if w / 2 ^ 2 % 4 = 2 then some (.shflDown (ctlTf p w) (fld w 18 7) (fld w 11 7) (fld w 4 7)) else
  if w / 2 ^ 2 % 4 = 3 then some (.shflXor (ctlTf p w) (fld w 18 7) (fld w 11 7) (fld w 4 7)) else
  none

/-- The rows of major opcode 0x7A (R44, R45); a word that none of them matches is no instruction. -/
noncomputable def rowsOf7A (p : Option Pfx) (w : Nat) : Option Instr :=
  if w / 2 ^ 4 % 128 = 0 then some (.redAdd (ctlT p w) (fld w 18 7) (fld w 11 7)) else
  if w / 2 ^ 4 % 128 = 1 then some (.redMin (ctlT p w) (fld w 18 7) (fld w 11 7)) else
  if w / 2 ^ 4 % 128 = 2 then some (.redMax (ctlT p w) (fld w 18 7) (fld w 11 7)) else
  if w / 2 ^ 4 % 128 = 3 then some (.redMinu (ctlT p w) (fld w 18 7) (fld w 11 7)) else
  if w / 2 ^ 4 % 128 = 4 then some (.redMaxu (ctlT p w) (fld w 18 7) (fld w 11 7)) else
  if w / 2 ^ 4 % 128 = 5 then some (.redAnd (ctlT p w) (fld w 18 7) (fld w 11 7)) else
  if w / 2 ^ 4 % 128 = 6 then some (.redOr (ctlT p w) (fld w 18 7) (fld w 11 7)) else
  if w / 2 ^ 4 % 128 = 7 then some (.redXor (ctlT p w) (fld w 18 7) (fld w 11 7)) else
  if w / 2 ^ 4 % 128 = 8 then some (.redFadd (ctlT p w) (fld w 18 7) (fld w 11 7)) else
  if w / 2 ^ 4 % 128 = 9 then some (.redFmin (ctlT p w) (fld w 18 7) (fld w 11 7)) else
  if w / 2 ^ 4 % 128 = 10 then some (.redFmax (ctlT p w) (fld w 18 7) (fld w 11 7)) else
  if w / 2 ^ 4 % 128 = 11 then some (.redAdd64 (ctlT p w) (fld w 18 7) (fld w 11 7)) else
  none

/-- The rows of major opcode 0x7B (R44, R45); a word that none of them matches is no instruction. -/
noncomputable def rowsOf7B (p : Option Pfx) (w : Nat) : Option Instr :=
  if w / 2 ^ 4 % 16 = 0 ∧ w / 2 ^ 9 % 4 = 0 then some (.scanAdd (ctlT p w) (fld w 18 7) (fld w 11 7) (fld w 8 1)) else
  if w / 2 ^ 4 % 16 = 1 ∧ w / 2 ^ 9 % 4 = 0 then some (.scanMin (ctlT p w) (fld w 18 7) (fld w 11 7) (fld w 8 1)) else
  if w / 2 ^ 4 % 16 = 2 ∧ w / 2 ^ 9 % 4 = 0 then some (.scanMax (ctlT p w) (fld w 18 7) (fld w 11 7) (fld w 8 1)) else
  if w / 2 ^ 4 % 16 = 3 ∧ w / 2 ^ 9 % 4 = 0 then some (.scanMinu (ctlT p w) (fld w 18 7) (fld w 11 7) (fld w 8 1)) else
  if w / 2 ^ 4 % 16 = 4 ∧ w / 2 ^ 9 % 4 = 0 then some (.scanMaxu (ctlT p w) (fld w 18 7) (fld w 11 7) (fld w 8 1)) else
  if w / 2 ^ 4 % 16 = 5 ∧ w / 2 ^ 9 % 4 = 0 then some (.scanAnd (ctlT p w) (fld w 18 7) (fld w 11 7) (fld w 8 1)) else
  if w / 2 ^ 4 % 16 = 6 ∧ w / 2 ^ 9 % 4 = 0 then some (.scanOr (ctlT p w) (fld w 18 7) (fld w 11 7) (fld w 8 1)) else
  if w / 2 ^ 4 % 16 = 7 ∧ w / 2 ^ 9 % 4 = 0 then some (.scanXor (ctlT p w) (fld w 18 7) (fld w 11 7) (fld w 8 1)) else
  if w / 2 ^ 4 % 16 = 8 ∧ w / 2 ^ 9 % 4 = 0 then some (.scanFadd (ctlT p w) (fld w 18 7) (fld w 11 7) (fld w 8 1)) else
  if w / 2 ^ 4 % 16 = 9 ∧ w / 2 ^ 9 % 4 = 0 then some (.scanFmin (ctlT p w) (fld w 18 7) (fld w 11 7) (fld w 8 1)) else
  if w / 2 ^ 4 % 16 = 10 ∧ w / 2 ^ 9 % 4 = 0 then some (.scanFmax (ctlT p w) (fld w 18 7) (fld w 11 7) (fld w 8 1)) else
  if w / 2 ^ 4 % 16 = 11 ∧ w / 2 ^ 9 % 4 = 0 then some (.scanAdd64 (ctlT p w) (fld w 18 7) (fld w 11 7) (fld w 8 1)) else
  none

/-- The rows of major opcode 0x7C (R44, R45); a word that none of them matches is no instruction. -/
noncomputable def rowsOf7C (p : Option Pfx) (w : Nat) : Option Instr :=
  if w / 2 ^ 4 % 128 = 0 then some (.matchEq32 (ctlT p w) (fld w 18 7) (fld w 11 7)) else
  if w / 2 ^ 4 % 128 = 1 then some (.matchEq64 (ctlT p w) (fld w 18 7) (fld w 11 7)) else
  if w / 2 ^ 4 % 128 = 2 then some (.matchLeader (ctlT p w) (fld w 18 7) (fld w 11 7)) else
  none

/-- The rows of major opcode 0x7D (R44, R45); a word that none of them matches is no instruction. -/
noncomputable def rowsOf7D (p : Option Pfx) (w : Nat) : Option Instr :=
  if w / 2 ^ 4 % 128 = 0 ∧ w / 2 ^ 18 % 128 = 0 then some (.part (ctlT p w) (fld w 11 7)) else
  none

/-- The rows of major opcode 0x7E (R44, R45); a word that none of them matches is no instruction. -/
noncomputable def rowsOf7E (p : Option Pfx) (w : Nat) : Option Instr :=
  if w / 2 ^ 4 % 128 = 0 then some (.cpy (ctlT p w) (fld w 18 7) (fld w 11 7)) else
  if w / 2 ^ 4 % 128 = 1 then some (.cpym (ctlT p w) (fld w 18 7) (fld w 11 7)) else
  if w / 2 ^ 4 % 128 = 2 then some (.chain (ctlT p w) (fld w 18 7) (fld w 11 7)) else
  if w / 2 ^ 4 % 128 = 3 then some (.psum (ctlT p w) (fld w 18 7) (fld w 11 7)) else
  if w / 2 ^ 4 % 128 = 4 then some (.rsort (ctlT p w) (fld w 18 7) (fld w 11 7)) else
  if w / 2 ^ 4 % 128 = 5 then some (.walk (ctlT p w) (fld w 18 7) (fld w 11 7)) else
  none

/-- The instruction whose opcode-table row the word `w` matches, with the fields as the word holds them and the prefix `p` before it. -/
noncomputable def rawDecode (p : Option Pfx) (w : Nat) : Option Instr :=
  match w / 2 ^ 25 with
  | 0x01 => some (.add (ctlT p w) (fld w 18 7) (fld w 11 7) (fld w 4 7))
  | 0x02 => some (.sub (ctlT p w) (fld w 18 7) (fld w 11 7) (fld w 4 7))
  | 0x03 => some (.mul (ctlT p w) (fld w 18 7) (fld w 11 7) (fld w 4 7))
  | 0x04 => some (.mulh (ctlT p w) (fld w 18 7) (fld w 11 7) (fld w 4 7))
  | 0x05 => some (.mulhu (ctlT p w) (fld w 18 7) (fld w 11 7) (fld w 4 7))
  | 0x06 => some (.div (ctlT p w) (fld w 18 7) (fld w 11 7) (fld w 4 7))
  | 0x07 => some (.divu (ctlT p w) (fld w 18 7) (fld w 11 7) (fld w 4 7))
  | 0x08 => some (.rem (ctlT p w) (fld w 18 7) (fld w 11 7) (fld w 4 7))
  | 0x09 => some (.remu (ctlT p w) (fld w 18 7) (fld w 11 7) (fld w 4 7))
  | 0x0A => some (.and (ctlT p w) (fld w 18 7) (fld w 11 7) (fld w 4 7))
  | 0x0B => some (.or (ctlT p w) (fld w 18 7) (fld w 11 7) (fld w 4 7))
  | 0x0C => some (.xor (ctlT p w) (fld w 18 7) (fld w 11 7) (fld w 4 7))
  | 0x0D => some (.andn (ctlT p w) (fld w 18 7) (fld w 11 7) (fld w 4 7))
  | 0x0E => some (.shl (ctlT p w) (fld w 18 7) (fld w 11 7) (fld w 4 7))
  | 0x0F => some (.shr (ctlT p w) (fld w 18 7) (fld w 11 7) (fld w 4 7))
  | 0x10 => some (.sra (ctlT p w) (fld w 18 7) (fld w 11 7) (fld w 4 7))
  | 0x11 => some (.rol (ctlT p w) (fld w 18 7) (fld w 11 7) (fld w 4 7))
  | 0x12 => some (.min (ctlT p w) (fld w 18 7) (fld w 11 7) (fld w 4 7))
  | 0x13 => some (.max (ctlT p w) (fld w 18 7) (fld w 11 7) (fld w 4 7))
  | 0x14 => some (.minu (ctlT p w) (fld w 18 7) (fld w 11 7) (fld w 4 7))
  | 0x15 => some (.maxu (ctlT p w) (fld w 18 7) (fld w 11 7) (fld w 4 7))
  | 0x16 => some (.mad (ctlT p w) (fld w 18 7) (fld w 11 7) (fld w 4 7))
  | 0x17 => some (.bfx (ctlT p w) (fld w 18 7) (fld w 11 7) (fld w 4 7))
  | 0x18 => some (.bfi (ctlT p w) (fld w 18 7) (fld w 11 7) (fld w 4 7))
  | 0x19 => some (.sel (ctlT p w) (fld w 18 7) (fld w 11 7) (fld w 4 7))
  | 0x1A => some (.add64 (ctlT p w) (fld w 18 7) (fld w 11 7) (fld w 4 7))
  | 0x1B => some (.sub64 (ctlT p w) (fld w 18 7) (fld w 11 7) (fld w 4 7))
  | 0x1C => rowsOf1C p w
  | 0x1D => some (.slt (ctlT p w) (fld w 18 7) (fld w 11 7) (fld w 4 7))
  | 0x1E => some (.sltu (ctlT p w) (fld w 18 7) (fld w 11 7) (fld w 4 7))
  | 0x1F => some (.seq (ctlT p w) (fld w 18 7) (fld w 11 7) (fld w 4 7))
  | 0x20 => some (.addi (ctlI p w) (fld w 18 7) (fld w 11 7) (fld w 2 9))
  | 0x21 => some (.andi (ctlI p w) (fld w 18 7) (fld w 11 7) (fld w 2 9))
  | 0x22 => some (.ori (ctlI p w) (fld w 18 7) (fld w 11 7) (fld w 2 9))
  | 0x23 => some (.xori (ctlI p w) (fld w 18 7) (fld w 11 7) (fld w 2 9))
  | 0x24 => some (.shli (ctlI p w) (fld w 18 7) (fld w 11 7) (fld w 2 9))
  | 0x25 => some (.shri (ctlI p w) (fld w 18 7) (fld w 11 7) (fld w 2 9))
  | 0x26 => some (.srai (ctlI p w) (fld w 18 7) (fld w 11 7) (fld w 2 9))
  | 0x27 => some (.muli (ctlI p w) (fld w 18 7) (fld w 11 7) (fld w 2 9))
  | 0x28 => some (.slti (ctlI p w) (fld w 18 7) (fld w 11 7) (fld w 2 9))
  | 0x29 => some (.sltui (ctlI p w) (fld w 18 7) (fld w 11 7) (fld w 2 9))
  | 0x2A => some (.seqi (ctlI p w) (fld w 18 7) (fld w 11 7) (fld w 2 9))
  | 0x2B => some (.mini (ctlI p w) (fld w 18 7) (fld w 11 7) (fld w 2 9))
  | 0x2C => some (.maxi (ctlI p w) (fld w 18 7) (fld w 11 7) (fld w 2 9))
  | 0x2D => some (.li (ctlL p w) (fld w 18 7) (fld w 0 18))
  | 0x2E => some (.lih (ctlL p w) (fld w 18 7) (fld w 0 18))
  | 0x2F => some (.cmp (ctlT p w) (fld w 21 4) (fld w 18 3) (fld w 11 7) (fld w 4 7))
  | 0x30 => some (.cmpi (ctlI p w) (fld w 21 4) (fld w 18 3) (fld w 11 7) (fld w 2 9))
  | 0x31 => rowsOf31 p w
  | 0x32 => rowsOf32 p w
  | 0x33 => some (.br (fld w 21 4) (fld w 20 1) (fld w 0 20))
  | 0x34 => some (.jmp (fld w 0 25))
  | 0x35 => some (.call (fld w 0 25))
  | 0x36 => rowsOf36 p w
  | 0x37 => rowsOf37 p w
  | 0x38 => rowsOf38 p w
  | 0x39 => rowsOf39 p w
  | 0x3A => rowsOf3A p w
  | 0x3B => rowsOf3B p w
  | 0x3C => rowsOf3C p w
  | 0x3D => rowsOf3D p w
  | 0x3E => rowsOf3E p w
  | 0x3F => rowsOf3F p w
  | 0x40 => some (.fadd (ctlF p w) (fld w 18 7) (fld w 11 7) (fld w 4 7))
  | 0x41 => some (.fsub (ctlF p w) (fld w 18 7) (fld w 11 7) (fld w 4 7))
  | 0x42 => some (.fmul (ctlF p w) (fld w 18 7) (fld w 11 7) (fld w 4 7))
  | 0x43 => some (.fma (ctlF p w) (fld w 18 7) (fld w 11 7) (fld w 4 7))
  | 0x44 => some (.fnma (ctlF p w) (fld w 18 7) (fld w 11 7) (fld w 4 7))
  | 0x45 => some (.fmin (ctlF p w) (fld w 18 7) (fld w 11 7) (fld w 4 7))
  | 0x46 => some (.fmax (ctlF p w) (fld w 18 7) (fld w 11 7) (fld w 4 7))
  | 0x47 => some (.fdiv (ctlF p w) (fld w 18 7) (fld w 11 7) (fld w 4 7))
  | 0x48 => rowsOf48 p w
  | 0x49 => rowsOf49 p w
  | 0x4A => rowsOf4A p w
  | 0x4B => some (.fcmp (ctlF p w) (fld w 21 4) (fld w 18 3) (fld w 11 7) (fld w 4 7))
  | 0x4C => some (.hfma2 (ctlF p w) (fld w 18 7) (fld w 11 7) (fld w 4 7))
  | 0x4D => some (.hadd2 (ctlF p w) (fld w 18 7) (fld w 11 7) (fld w 4 7))
  | 0x4E => some (.hmul2 (ctlF p w) (fld w 18 7) (fld w 11 7) (fld w 4 7))
  | 0x4F => some (.bfma2 (ctlF p w) (fld w 18 7) (fld w 11 7) (fld w 4 7))
  | 0x50 => some (.dadd (ctlF p w) (fld w 18 7) (fld w 11 7) (fld w 4 7))
  | 0x51 => some (.dmul (ctlF p w) (fld w 18 7) (fld w 11 7) (fld w 4 7))
  | 0x52 => some (.dfma (ctlF p w) (fld w 18 7) (fld w 11 7) (fld w 4 7))
  | 0x53 => rowsOf53 p w
  | 0x54 => some (.dp4 (ctlT p w) (fld w 18 7) (fld w 11 7) (fld w 4 7))
  | 0x55 => rowsOf55 p w
  | 0x56 => rowsOf56 p w
  | 0x57 => rowsOf57 p w
  | 0x58 => some (.lb (ctlM p w) (fld w 18 7) (fld w 11 7) (fld w 4 7))
  | 0x59 => some (.lbu (ctlM p w) (fld w 18 7) (fld w 11 7) (fld w 4 7))
  | 0x5A => some (.lh (ctlM p w) (fld w 18 7) (fld w 11 7) (fld w 4 7))
  | 0x5B => some (.lhu (ctlM p w) (fld w 18 7) (fld w 11 7) (fld w 4 7))
  | 0x5C => some (.lw (ctlM p w) (fld w 18 7) (fld w 11 7) (fld w 4 7))
  | 0x5D => some (.ld (ctlM p w) (fld w 18 7) (fld w 11 7) (fld w 4 7))
  | 0x5E => some (.lq (ctlM p w) (fld w 18 7) (fld w 11 7) (fld w 4 7))
  | 0x5F => some (.sb (ctlM p w) (fld w 18 7) (fld w 11 7) (fld w 4 7))
  | 0x60 => some (.sh (ctlM p w) (fld w 18 7) (fld w 11 7) (fld w 4 7))
  | 0x61 => some (.sw (ctlM p w) (fld w 18 7) (fld w 11 7) (fld w 4 7))
  | 0x62 => some (.sd (ctlM p w) (fld w 18 7) (fld w 11 7) (fld w 4 7))
  | 0x63 => some (.sq (ctlM p w) (fld w 18 7) (fld w 11 7) (fld w 4 7))
  | 0x64 => rowsOf64 p w
  | 0x65 => rowsOf65 p w
  | 0x66 => rowsOf66 p w
  | 0x67 => rowsOf67 p w
  | 0x68 => some (.aadd (ctlA p w) (fld w 18 7) (fld w 11 7) (fld w 4 7))
  | 0x69 => some (.aand (ctlA p w) (fld w 18 7) (fld w 11 7) (fld w 4 7))
  | 0x6A => some (.aor (ctlA p w) (fld w 18 7) (fld w 11 7) (fld w 4 7))
  | 0x6B => some (.axor (ctlA p w) (fld w 18 7) (fld w 11 7) (fld w 4 7))
  | 0x6C => some (.amin (ctlA p w) (fld w 18 7) (fld w 11 7) (fld w 4 7))
  | 0x6D => some (.amax (ctlA p w) (fld w 18 7) (fld w 11 7) (fld w 4 7))
  | 0x6E => some (.aminu (ctlA p w) (fld w 18 7) (fld w 11 7) (fld w 4 7))
  | 0x6F => some (.amaxu (ctlA p w) (fld w 18 7) (fld w 11 7) (fld w 4 7))
  | 0x70 => some (.aswp (ctlA p w) (fld w 18 7) (fld w 11 7) (fld w 4 7))
  | 0x71 => some (.acas (ctlA p w) (fld w 18 7) (fld w 11 7) (fld w 4 7))
  | 0x72 => some (.afadd (ctlA p w) (fld w 18 7) (fld w 11 7) (fld w 4 7))
  | 0x73 => some (.amaxp (ctlA p w) (fld w 18 7) (fld w 11 7) (fld w 4 7))
  | 0x74 => some (.aincm (ctlA p w) (fld w 18 7) (fld w 11 7) (fld w 4 7))
  | 0x75 => rowsOf75 p w
  | 0x76 => rowsOf76 p w
  | 0x77 => rowsOf77 p w
  | 0x78 => rowsOf78 p w
  | 0x79 => rowsOf79 p w
  | 0x7A => rowsOf7A p w
  | 0x7B => rowsOf7B p w
  | 0x7C => rowsOf7C p w
  | 0x7D => rowsOf7D p w
  | 0x7E => rowsOf7E p w
  | _ => none

/-- The prefix word of R33, if the word is one (R31). -/
def decodePfx (w : Nat) : Option Pfx :=
  if w / 2 ^ 25 = 0x7F then
    some { guard5 := fld w 20 5, nf := bitAt w 19, rm := fld w 17 2, w64 := bitAt w 16, scope := fld w 13 3, immext := fld w 0 13 }
  else none

/-- What decoding gives: an instruction, or the word at which illegal instruction is raised (R47 step 2, R48). -/
inductive Decoded where
  | ok (i : Instr)
  | illegal (w : Nat)
deriving DecidableEq, Repr

/-- The formats no prefix may stand before, whatever its fields (R42). -/
def noPrefix (f : Fmt) : Bool := f == .b || f == .j || f == .lp || f == .c

/-- Decode the word `w` under the prefix `p`, whose own word is `pw`. A word that is no instruction is reported itself, whatever its
prefix holds: it does not say which prefix fields it would accept (DESIGN CHOICE, log entry 68). -/
noncomputable def decodeUnder (p : Option Pfx) (pw w : Nat) : Decoded :=
  match rawDecode p w with
  | none => .illegal w
  | some i =>
    if p.isSome && noPrefix (sigOf i).fmt then .illegal pw
    else match verdict i with
    | .good => .ok i
    | .badPrefix => .illegal pw
    | .badWord => .illegal w

/-- Decode one instruction from the word at the program counter and the word after it (R30, R31, R42, R47). A
word with no prefix uses only `w0`. A prefix before a prefix is refused at the first (R42). -/
noncomputable def decode (w0 w1 : Nat) : Decoded :=
  match decodePfx w0 with
  | none => decodeUnder none w0 w0
  | some p => if w1 / 2 ^ 25 = 0x7F then .illegal w0 else decodeUnder (some p) w0 w1

/-- Words an instruction occupies. -/
def sizeOf (w0 : Nat) : Nat := if w0 / 2 ^ 25 = 0x7F then 8 else 4

/-- A word with the field `v` set at bit `lo`. -/
def put {n : Nat} (w : Nat) (v : BitVec n) (lo : Nat) : Nat := w + v.toNat * 2 ^ lo

/-- The low bits of formats T and S. -/
def loT (ct : Ctl) : Nat := ct.g.toNat * 4 + ct.s.toNat
/-- The low bits of formats Tf and I beside the function code. -/
def loTf (ct : Ctl) : Nat := ct.s.toNat
/-- The low bits of format M. -/
def loM (ct : Ctl) : Nat := ct.g.toNat * 4 + ct.h.toNat
/-- The low bits of format F. -/
def loF (ct : Ctl) : Nat := ct.fzi.toNat * 8 + ct.fzo.toNat * 4 + ct.s.toNat
/-- The low bits of format A. -/
def loA (ct : Ctl) : Nat := ct.ord.toNat * 4 + ct.sc.toNat


/-- The instruction word of an instruction, written from the layouts of R33 and the codes of R44 and R45. Events have none and answer 0. -/
def encodeWord : Instr → Nat
  | .add ct d a b => Nat.add (put (put (put 0x02000000 d 18) a 11) b 4) (loT ct)
  | .sub ct d a b => Nat.add (put (put (put 0x04000000 d 18) a 11) b 4) (loT ct)
  | .mul ct d a b => Nat.add (put (put (put 0x06000000 d 18) a 11) b 4) (loT ct)
  | .mulh ct d a b => Nat.add (put (put (put 0x08000000 d 18) a 11) b 4) (loT ct)
  | .mulhu ct d a b => Nat.add (put (put (put 0x0A000000 d 18) a 11) b 4) (loT ct)
  | .div ct d a b => Nat.add (put (put (put 0x0C000000 d 18) a 11) b 4) (loT ct)
  | .divu ct d a b => Nat.add (put (put (put 0x0E000000 d 18) a 11) b 4) (loT ct)
  | .rem ct d a b => Nat.add (put (put (put 0x10000000 d 18) a 11) b 4) (loT ct)
  | .remu ct d a b => Nat.add (put (put (put 0x12000000 d 18) a 11) b 4) (loT ct)
  | .and ct d a b => Nat.add (put (put (put 0x14000000 d 18) a 11) b 4) (loT ct)
  | .or ct d a b => Nat.add (put (put (put 0x16000000 d 18) a 11) b 4) (loT ct)
  | .xor ct d a b => Nat.add (put (put (put 0x18000000 d 18) a 11) b 4) (loT ct)
  | .andn ct d a b => Nat.add (put (put (put 0x1A000000 d 18) a 11) b 4) (loT ct)
  | .shl ct d a b => Nat.add (put (put (put 0x1C000000 d 18) a 11) b 4) (loT ct)
  | .shr ct d a b => Nat.add (put (put (put 0x1E000000 d 18) a 11) b 4) (loT ct)
  | .sra ct d a b => Nat.add (put (put (put 0x20000000 d 18) a 11) b 4) (loT ct)
  | .rol ct d a b => Nat.add (put (put (put 0x22000000 d 18) a 11) b 4) (loT ct)
  | .min ct d a b => Nat.add (put (put (put 0x24000000 d 18) a 11) b 4) (loT ct)
  | .max ct d a b => Nat.add (put (put (put 0x26000000 d 18) a 11) b 4) (loT ct)
  | .minu ct d a b => Nat.add (put (put (put 0x28000000 d 18) a 11) b 4) (loT ct)
  | .maxu ct d a b => Nat.add (put (put (put 0x2A000000 d 18) a 11) b 4) (loT ct)
  | .mad ct d a b => Nat.add (put (put (put 0x2C000000 d 18) a 11) b 4) (loT ct)
  | .bfx ct d a b => Nat.add (put (put (put 0x2E000000 d 18) a 11) b 4) (loT ct)
  | .bfi ct d a b => Nat.add (put (put (put 0x30000000 d 18) a 11) b 4) (loT ct)
  | .sel ct d a b => Nat.add (put (put (put 0x32000000 d 18) a 11) b 4) (loT ct)
  | .add64 ct d a b => Nat.add (put (put (put 0x34000000 d 18) a 11) b 4) (loT ct)
  | .sub64 ct d a b => Nat.add (put (put (put 0x36000000 d 18) a 11) b 4) (loT ct)
  | .slt ct d a b => Nat.add (put (put (put 0x3A000000 d 18) a 11) b 4) (loT ct)
  | .sltu ct d a b => Nat.add (put (put (put 0x3C000000 d 18) a 11) b 4) (loT ct)
  | .seq ct d a b => Nat.add (put (put (put 0x3E000000 d 18) a 11) b 4) (loT ct)
  | .mov ct d a => Nat.add (put (put 0x38000000 d 18) a 11) (loT ct)
  | .not ct d a => Nat.add (put (put 0x38000010 d 18) a 11) (loT ct)
  | .neg ct d a => Nat.add (put (put 0x38000020 d 18) a 11) (loT ct)
  | .abs ct d a => Nat.add (put (put 0x38000030 d 18) a 11) (loT ct)
  | .clz ct d a => Nat.add (put (put 0x38000040 d 18) a 11) (loT ct)
  | .ctz ct d a => Nat.add (put (put 0x38000050 d 18) a 11) (loT ct)
  | .popc ct d a => Nat.add (put (put 0x38000060 d 18) a 11) (loT ct)
  | .brev ct d a => Nat.add (put (put 0x38000070 d 18) a 11) (loT ct)
  | .sext8 ct d a => Nat.add (put (put 0x38000080 d 18) a 11) (loT ct)
  | .sext16 ct d a => Nat.add (put (put 0x38000090 d 18) a 11) (loT ct)
  | .zext8 ct d a => Nat.add (put (put 0x380000A0 d 18) a 11) (loT ct)
  | .zext16 ct d a => Nat.add (put (put 0x380000B0 d 18) a 11) (loT ct)
  | .bswap ct d a => Nat.add (put (put 0x380000C0 d 18) a 11) (loT ct)
  | .mov64 ct d a => Nat.add (put (put 0x380000D0 d 18) a 11) (loT ct)
  | .addi ct d a i => Nat.add (put (put (put 0x40000000 d 18) a 11) i 2) (loTf ct)
  | .andi ct d a i => Nat.add (put (put (put 0x42000000 d 18) a 11) i 2) (loTf ct)
  | .ori ct d a i => Nat.add (put (put (put 0x44000000 d 18) a 11) i 2) (loTf ct)
  | .xori ct d a i => Nat.add (put (put (put 0x46000000 d 18) a 11) i 2) (loTf ct)
  | .shli ct d a i => Nat.add (put (put (put 0x48000000 d 18) a 11) i 2) (loTf ct)
  | .shri ct d a i => Nat.add (put (put (put 0x4A000000 d 18) a 11) i 2) (loTf ct)
  | .srai ct d a i => Nat.add (put (put (put 0x4C000000 d 18) a 11) i 2) (loTf ct)
  | .muli ct d a i => Nat.add (put (put (put 0x4E000000 d 18) a 11) i 2) (loTf ct)
  | .slti ct d a i => Nat.add (put (put (put 0x50000000 d 18) a 11) i 2) (loTf ct)
  | .sltui ct d a i => Nat.add (put (put (put 0x52000000 d 18) a 11) i 2) (loTf ct)
  | .seqi ct d a i => Nat.add (put (put (put 0x54000000 d 18) a 11) i 2) (loTf ct)
  | .mini ct d a i => Nat.add (put (put (put 0x56000000 d 18) a 11) i 2) (loTf ct)
  | .maxi ct d a i => Nat.add (put (put (put 0x58000000 d 18) a 11) i 2) (loTf ct)
  | .li _ d i => put (put 0x5A000000 d 18) i 0
  | .lih _ d i => put (put 0x5C000000 d 18) i 0
  | .cmp ct p c a b => Nat.add (put (put (put (put 0x5E000000 p 21) c 18) a 11) b 4) (loT ct)
  | .cmpi ct p c a i => Nat.add (put (put (put (put 0x60000000 p 21) c 18) a 11) i 2) (loTf ct)
  | .pand ct d p q => Nat.add (put (put (put 0x62000000 d 18) p 11) q 4) (loT ct)
  | .por ct d p q => Nat.add (put (put (put 0x62000100 d 18) p 11) q 4) (loT ct)
  | .pxor ct d p q => Nat.add (put (put (put 0x62000200 d 18) p 11) q 4) (loT ct)
  | .pandn ct d p q => Nat.add (put (put (put 0x62000300 d 18) p 11) q 4) (loT ct)
  | .porn ct d p q => Nat.add (put (put (put 0x62000400 d 18) p 11) q 4) (loT ct)
  | .pmv ct d p => Nat.add (put (put 0x62000500 d 18) p 11) (loT ct)
  | .pnot ct d p => Nat.add (put (put 0x62000600 d 18) p 11) (loT ct)
  | .pset ct d => Nat.add (put 0x62008700 d 18) (loT ct)
  | .pclr ct d => Nat.add (put 0x62000700 d 18) (loT ct)
  | .pmovToRegister ct d => Nat.add (put 0x64000000 d 18) (loT ct)
  | .pmovFromRegister ct a => Nat.add (put 0x64000010 a 11) (loT ct)
  | .br p v o => put (put (put 0x66000000 p 21) v 20) o 0
  | .jmp o => put 0x68000000 o 0
  | .call o => put 0x6A000000 o 0
  | .callr ct a => Nat.add (put 0x6C000000 a 11) (loT ct)
  | .jr ct a => Nat.add (put 0x6E000000 a 11) (loT ct)
  | .nop ct => Nat.add (0x70000000) (loT ct)
  | .ret ct => Nat.add (0x70000010) (loT ct)
  | .exit ct => Nat.add (0x70000020) (loT ct)
  | .yield ct => Nat.add (0x70000030) (loT ct)
  | .trap ct n => Nat.add (put 0x70000040 n 11) (loT ct)
  | .brk ct => Nat.add (0x70000050) (loT ct)
  | .eret ct => Nat.add (0x70000060) (loT ct)
  | .safept ct h n => Nat.add (put (put 0x70000070 h 18) n 11) (loT ct)
  | .win ct k => Nat.add (put 0x70000080 k 11) (loT ct)
  | .mwait ct d a => Nat.add (put (put 0x70000090 d 18) a 11) (loT ct)
  | .cyc ct d => Nat.add (put 0x700000A0 d 18) (loT ct)
  | .cych ct d => Nat.add (put 0x700000B0 d 18) (loT ct)
  | .getsr ct d a => Nat.add (put (put 0x700000C0 d 18) a 11) (loT ct)
  | .setsr ct d a => Nat.add (put (put 0x700000D0 d 18) a 11) (loT ct)
  | .loopCnt a l r => put (put (put 0x72000000 a 18) l 10) r 2
  | .loopPipe a l s r => put (put (put (put 0x72000001 a 18) l 10) s 7) r 2
  | .loopWhile p l r => put (put (put 0x72000002 p 18) l 10) r 2
  | .lexit ct => Nat.add (0x74000000) (loT ct)
  | .lbrk ct => Nat.add (0x74000010) (loT ct)
  | .lrd ct d p i => Nat.add (put (put (put 0x74000020 d 18) p 13) i 11) (loT ct)
  | .lwr ct p i a => Nat.add (put (put (put 0x74000030 p 20) i 18) a 11) (loT ct)
  | .cap c r n a e => put (put (put (put (put 0x76000000 c 21) r 20) n 16) a 7) e 0
  | .apply ct k => Nat.add (put 0x78000000 k 11) (loT ct)
  | .cpin ct k => Nat.add (put 0x7A000000 k 11) (loT ct)
  | .cdrop ct k => Nat.add (put 0x7A000010 k 11) (loT ct)
  | .cmov ct d a => Nat.add (put (put 0x7A000020 d 18) a 11) (loT ct)
  | .cst ct d k => Nat.add (put (put 0x7A000030 d 18) k 11) (loT ct)
  | .cld ct k a => Nat.add (put (put 0x7A000040 k 18) a 11) (loT ct)
  | .cenv ct d k => Nat.add (put (put 0x7A000050 d 18) k 11) (loT ct)
  | .clive ct p k => Nat.add (put (put 0x7A000060 p 18) k 11) (loT ct)
  | .fref ct d a => Nat.add (put (put 0x7A000070 d 18) a 11) (loT ct)
  | .xget ct d k o => Nat.add (put (put (put 0x7C000000 d 18) k 16) o 11) (loT ct)
  | .xput ct d k o => Nat.add (put (put (put 0x7E000000 d 18) k 16) o 11) (loT ct)
  | .fadd ct d a b => Nat.add (put (put (put 0x80000000 d 18) a 11) b 4) (loF ct)
  | .fsub ct d a b => Nat.add (put (put (put 0x82000000 d 18) a 11) b 4) (loF ct)
  | .fmul ct d a b => Nat.add (put (put (put 0x84000000 d 18) a 11) b 4) (loF ct)
  | .fma ct d a b => Nat.add (put (put (put 0x86000000 d 18) a 11) b 4) (loF ct)
  | .fnma ct d a b => Nat.add (put (put (put 0x88000000 d 18) a 11) b 4) (loF ct)
  | .fmin ct d a b => Nat.add (put (put (put 0x8A000000 d 18) a 11) b 4) (loF ct)
  | .fmax ct d a b => Nat.add (put (put (put 0x8C000000 d 18) a 11) b 4) (loF ct)
  | .fdiv ct d a b => Nat.add (put (put (put 0x8E000000 d 18) a 11) b 4) (loF ct)
  | .fsqrt ct d a => Nat.add (put (put 0x90000000 d 18) a 11) (loF ct)
  | .fabs ct d a => Nat.add (put (put 0x92000000 d 18) a 11) (loF ct)
  | .fneg ct d a => Nat.add (put (put 0x92000010 d 18) a 11) (loF ct)
  | .frcp ct d a => Nat.add (put (put 0x92000020 d 18) a 11) (loF ct)
  | .frsq ct d a => Nat.add (put (put 0x92000030 d 18) a 11) (loF ct)
  | .fexp2 ct d a => Nat.add (put (put 0x92000040 d 18) a 11) (loF ct)
  | .flog2 ct d a => Nat.add (put (put 0x92000050 d 18) a 11) (loF ct)
  | .fsinpi ct d a => Nat.add (put (put 0x92000060 d 18) a 11) (loF ct)
  | .fcospi ct d a => Nat.add (put (put 0x92000070 d 18) a 11) (loF ct)
  | .ftanh ct d a => Nat.add (put (put 0x92000080 d 18) a 11) (loF ct)
  | .ffloor ct d a => Nat.add (put (put 0x92000090 d 18) a 11) (loF ct)
  | .fceil ct d a => Nat.add (put (put 0x920000A0 d 18) a 11) (loF ct)
  | .ftrunc ct d a => Nat.add (put (put 0x920000B0 d 18) a 11) (loF ct)
  | .frint ct d a => Nat.add (put (put 0x920000C0 d 18) a 11) (loF ct)
  | .fclass ct d a => Nat.add (put (put 0x920000D0 d 18) a 11) (loF ct)
  | .fcvtF32I32 ct d a => Nat.add (put (put 0x94000000 d 18) a 11) (loF ct)
  | .fcvtF32Ui32 ct d a => Nat.add (put (put 0x94000010 d 18) a 11) (loF ct)
  | .fcvtI32F32 ct d a => Nat.add (put (put 0x94000020 d 18) a 11) (loF ct)
  | .fcvtI32rF32 ct d a => Nat.add (put (put 0x94000030 d 18) a 11) (loF ct)
  | .fcvtUi32F32 ct d a => Nat.add (put (put 0x94000040 d 18) a 11) (loF ct)
  | .fcvtF16F32 ct d a => Nat.add (put (put 0x94000050 d 18) a 11) (loF ct)
  | .fcvtF32F16 ct d a => Nat.add (put (put 0x94000060 d 18) a 11) (loF ct)
  | .fcvtBf16F32 ct d a => Nat.add (put (put 0x94000070 d 18) a 11) (loF ct)
  | .fcvtF32Bf16 ct d a => Nat.add (put (put 0x94000080 d 18) a 11) (loF ct)
  | .fcvtE4m3F32 ct d a => Nat.add (put (put 0x94000090 d 18) a 11) (loF ct)
  | .fcvtE4m3nF32 ct d a => Nat.add (put (put 0x940000A0 d 18) a 11) (loF ct)
  | .fcvtE5m2F32 ct d a => Nat.add (put (put 0x940000B0 d 18) a 11) (loF ct)
  | .fcvtF32E4m3 ct d a n => Nat.add (put (put (put 0x940000C0 d 18) a 11) n 4) (loF ct)
  | .fcvtF32E5m2 ct d a n => Nat.add (put (put (put 0x94000100 d 18) a 11) n 4) (loF ct)
  | .fcvtF32F64 ct d a => Nat.add (put (put 0x94000140 d 18) a 11) (loF ct)
  | .fcvtF64F32 ct d a => Nat.add (put (put 0x94000150 d 18) a 11) (loF ct)
  | .fcvtF64I32 ct d a => Nat.add (put (put 0x94000160 d 18) a 11) (loF ct)
  | .fcvtI32F64 ct d a => Nat.add (put (put 0x94000170 d 18) a 11) (loF ct)
  | .fcmp ct p c a b => Nat.add (put (put (put (put 0x96000000 p 21) c 18) a 11) b 4) (loF ct)
  | .hfma2 ct d a b => Nat.add (put (put (put 0x98000000 d 18) a 11) b 4) (loF ct)
  | .hadd2 ct d a b => Nat.add (put (put (put 0x9A000000 d 18) a 11) b 4) (loF ct)
  | .hmul2 ct d a b => Nat.add (put (put (put 0x9C000000 d 18) a 11) b 4) (loF ct)
  | .bfma2 ct d a b => Nat.add (put (put (put 0x9E000000 d 18) a 11) b 4) (loF ct)
  | .dadd ct d a b => Nat.add (put (put (put 0xA0000000 d 18) a 11) b 4) (loF ct)
  | .dmul ct d a b => Nat.add (put (put (put 0xA2000000 d 18) a 11) b 4) (loF ct)
  | .dfma ct d a b => Nat.add (put (put (put 0xA4000000 d 18) a 11) b 4) (loF ct)
  | .dsub ct d a => Nat.add (put (put 0xA6000000 d 18) a 11) (loF ct)
  | .dmin ct d a => Nat.add (put (put 0xA6000010 d 18) a 11) (loF ct)
  | .dmax ct d a => Nat.add (put (put 0xA6000020 d 18) a 11) (loF ct)
  | .ddiv ct d a => Nat.add (put (put 0xA6000030 d 18) a 11) (loF ct)
  | .dsqrt ct d a => Nat.add (put (put 0xA6000040 d 18) a 11) (loF ct)
  | .dneg ct d a => Nat.add (put (put 0xA6000050 d 18) a 11) (loF ct)
  | .dabs ct d a => Nat.add (put (put 0xA6000060 d 18) a 11) (loF ct)
  | .dp4 ct d a b => Nat.add (put (put (put 0xA8000000 d 18) a 11) b 4) (loT ct)
  | .qpush ct d a b => Nat.add (put (put (put 0xAA000000 d 18) a 11) b 4) (loTf ct)
  | .qtry ct d a b => Nat.add (put (put (put 0xAA000004 d 18) a 11) b 4) (loTf ct)
  | .qspawn ct d a b => Nat.add (put (put (put 0xAA000008 d 18) a 11) b 4) (loTf ct)
  | .qlen ct d a => Nat.add (put (put 0xAA00000C d 18) a 11) (loTf ct)
  | .ann ct d a b => Nat.add (put (put (put 0xAC000000 d 18) a 11) b 4) (loTf ct)
  | .wdr ct d a => Nat.add (put (put 0xAC000004 d 18) a 11) (loTf ct)
  | .promo ct d a => Nat.add (put (put 0xAC000008 d 18) a 11) (loTf ct)
  | .rqry ct d a => Nat.add (put (put 0xAC00000C d 18) a 11) (loTf ct)
  | .lnkpark ct d a => Nat.add (put (put 0xAE000000 d 18) a 11) (loT ct)
  | .lnkwake ct d a => Nat.add (put (put 0xAE000010 d 18) a 11) (loT ct)
  | .lnkstat ct d a => Nat.add (put (put 0xAE000020 d 18) a 11) (loT ct)
  | .lnkdrain ct d a => Nat.add (put (put 0xAE000030 d 18) a 11) (loT ct)
  | .lnksched ct d a => Nat.add (put (put 0xAE000040 d 18) a 11) (loT ct)
  | .semacq ct d => Nat.add (put 0xAE000050 d 18) (loT ct)
  | .semrel ct d => Nat.add (put 0xAE000060 d 18) (loT ct)
  | .purge ct d a => Nat.add (put (put 0xAE000080 d 18) a 11) (loT ct)
  | .lb ct d a o => Nat.add (put (put (put 0xB0000000 d 18) a 11) o 4) (loM ct)
  | .lbu ct d a o => Nat.add (put (put (put 0xB2000000 d 18) a 11) o 4) (loM ct)
  | .lh ct d a o => Nat.add (put (put (put 0xB4000000 d 18) a 11) o 4) (loM ct)
  | .lhu ct d a o => Nat.add (put (put (put 0xB6000000 d 18) a 11) o 4) (loM ct)
  | .lw ct d a o => Nat.add (put (put (put 0xB8000000 d 18) a 11) o 4) (loM ct)
  | .ld ct d a o => Nat.add (put (put (put 0xBA000000 d 18) a 11) o 4) (loM ct)
  | .lq ct d a o => Nat.add (put (put (put 0xBC000000 d 18) a 11) o 4) (loM ct)
  | .sb ct d a o => Nat.add (put (put (put 0xBE000000 d 18) a 11) o 4) (loM ct)
  | .sh ct d a o => Nat.add (put (put (put 0xC0000000 d 18) a 11) o 4) (loM ct)
  | .sw ct d a o => Nat.add (put (put (put 0xC2000000 d 18) a 11) o 4) (loM ct)
  | .sd ct d a o => Nat.add (put (put (put 0xC4000000 d 18) a 11) o 4) (loM ct)
  | .sq ct d a o => Nat.add (put (put (put 0xC6000000 d 18) a 11) o 4) (loM ct)
  | .setbase ct k a b => Nat.add (put (put (put 0xC8000000 k 18) a 11) b 4) (loTf ct)
  | .setidx ct k a => Nat.add (put (put 0xC8000004 k 18) a 11) (loTf ct)
  | .addidx ct k a => Nat.add (put (put 0xC8000008 k 18) a 11) (loTf ct)
  | .getidx ct d k => Nat.add (put (put 0xC800000C d 18) k 11) (loTf ct)
  | .frl ct d a o => Nat.add (put (put (put 0xCA000000 d 18) a 11) o 4) (ct.g.toNat * 4)
  | .frs ct d a o => Nat.add (put (put (put 0xCC000000 d 18) a 11) o 4) (ct.g.toNat * 4)
  | .wload ct d a => Nat.add (put (put 0xCE000000 d 18) a 11) (loT ct)
  | .mma ct d a => Nat.add (put (put 0xCE000010 d 18) a 11) (loT ct)
  | .accx ct d a => Nat.add (put (put 0xCE000020 d 18) a 11) (loT ct)
  | .tclr ct a => Nat.add (put 0xCE000030 a 11) (loT ct)
  | .quant2 ct d a => Nat.add (put (put 0xCE000040 d 18) a 11) (loT ct)
  | .tstat ct d => Nat.add (put 0xCE000050 d 18) (loT ct)
  | .tdep ct d a => Nat.add (put (put 0xCE000060 d 18) a 11) (loT ct)
  | .tarv ct d a => Nat.add (put (put 0xCE000070 d 18) a 11) (loT ct)
  | .tarm ct d a => Nat.add (put (put 0xCE000080 d 18) a 11) (loT ct)
  | .aadd ct d a b => Nat.add (put (put (put 0xD0000000 d 18) a 11) b 4) (loA ct)
  | .aand ct d a b => Nat.add (put (put (put 0xD2000000 d 18) a 11) b 4) (loA ct)
  | .aor ct d a b => Nat.add (put (put (put 0xD4000000 d 18) a 11) b 4) (loA ct)
  | .axor ct d a b => Nat.add (put (put (put 0xD6000000 d 18) a 11) b 4) (loA ct)
  | .amin ct d a b => Nat.add (put (put (put 0xD8000000 d 18) a 11) b 4) (loA ct)
  | .amax ct d a b => Nat.add (put (put (put 0xDA000000 d 18) a 11) b 4) (loA ct)
  | .aminu ct d a b => Nat.add (put (put (put 0xDC000000 d 18) a 11) b 4) (loA ct)
  | .amaxu ct d a b => Nat.add (put (put (put 0xDE000000 d 18) a 11) b 4) (loA ct)
  | .aswp ct d a b => Nat.add (put (put (put 0xE0000000 d 18) a 11) b 4) (loA ct)
  | .acas ct d a b => Nat.add (put (put (put 0xE2000000 d 18) a 11) b 4) (loA ct)
  | .afadd ct d a b => Nat.add (put (put (put 0xE4000000 d 18) a 11) b 4) (loA ct)
  | .amaxp ct d a b => Nat.add (put (put (put 0xE6000000 d 18) a 11) b 4) (loA ct)
  | .aincm ct d a b => Nat.add (put (put (put 0xE8000000 d 18) a 11) b 4) (loA ct)
  | .fence ct d a w k => Nat.add (put (put (put (put 0xEA000000 d 18) a 11) w 6) k 4) (loT ct)
  | .barInit ct d n => Nat.add (put (put 0xEC000000 d 18) n 11) (loT ct)
  | .barArrive ct n => Nat.add (put 0xEC000010 n 11) (loT ct)
  | .barWait ct n => Nat.add (put 0xEC000020 n 11) (loT ct)
  | .barSync ct n => Nat.add (put 0xEC000030 n 11) (loT ct)
  | .barArrivec ct d n => Nat.add (put (put 0xEC000040 d 18) n 11) (loT ct)
  | .barTest ct d n => Nat.add (put (put 0xEC000050 d 18) n 11) (loT ct)
  | .barLeave ct n => Nat.add (put 0xEC000060 n 11) (loT ct)
  | .drain ct a b => Nat.add (put (put 0xEE000000 a 11) b 4) (loT ct)
  | .voteAny ct d p => Nat.add (put (put 0xF0000000 d 18) p 11) (loT ct)
  | .voteAll ct d p => Nat.add (put (put 0xF0000010 d 18) p 11) (loT ct)
  | .voteBallot ct d p => Nat.add (put (put 0xF0000020 d 18) p 11) (loT ct)
  | .voteUni ct d p => Nat.add (put (put 0xF0000030 d 18) p 11) (loT ct)
  | .voteFany ct d m => Nat.add (put (put 0xF0000040 d 18) m 11) (loT ct)
  | .voteFall ct d m => Nat.add (put (put 0xF0000050 d 18) m 11) (loT ct)
  | .voteFballot ct d m => Nat.add (put (put 0xF0000060 d 18) m 11) (loT ct)
  | .shflIdx ct d a b => Nat.add (put (put (put 0xF2000000 d 18) a 11) b 4) (loTf ct)
  | .shflUp ct d a b => Nat.add (put (put (put 0xF2000004 d 18) a 11) b 4) (loTf ct)
  | .shflDown ct d a b => Nat.add (put (put (put 0xF2000008 d 18) a 11) b 4) (loTf ct)
  | .shflXor ct d a b => Nat.add (put (put (put 0xF200000C d 18) a 11) b 4) (loTf ct)
  | .redAdd ct d a => Nat.add (put (put 0xF4000000 d 18) a 11) (loT ct)
  | .redMin ct d a => Nat.add (put (put 0xF4000010 d 18) a 11) (loT ct)
  | .redMax ct d a => Nat.add (put (put 0xF4000020 d 18) a 11) (loT ct)
  | .redMinu ct d a => Nat.add (put (put 0xF4000030 d 18) a 11) (loT ct)
  | .redMaxu ct d a => Nat.add (put (put 0xF4000040 d 18) a 11) (loT ct)
  | .redAnd ct d a => Nat.add (put (put 0xF4000050 d 18) a 11) (loT ct)
  | .redOr ct d a => Nat.add (put (put 0xF4000060 d 18) a 11) (loT ct)
  | .redXor ct d a => Nat.add (put (put 0xF4000070 d 18) a 11) (loT ct)
  | .redFadd ct d a => Nat.add (put (put 0xF4000080 d 18) a 11) (loT ct)
  | .redFmin ct d a => Nat.add (put (put 0xF4000090 d 18) a 11) (loT ct)
  | .redFmax ct d a => Nat.add (put (put 0xF40000A0 d 18) a 11) (loT ct)
  | .redAdd64 ct d a => Nat.add (put (put 0xF40000B0 d 18) a 11) (loT ct)
  | .scanAdd ct d a e => Nat.add (put (put (put 0xF6000000 d 18) a 11) e 8) (loT ct)
  | .scanMin ct d a e => Nat.add (put (put (put 0xF6000010 d 18) a 11) e 8) (loT ct)
  | .scanMax ct d a e => Nat.add (put (put (put 0xF6000020 d 18) a 11) e 8) (loT ct)
  | .scanMinu ct d a e => Nat.add (put (put (put 0xF6000030 d 18) a 11) e 8) (loT ct)
  | .scanMaxu ct d a e => Nat.add (put (put (put 0xF6000040 d 18) a 11) e 8) (loT ct)
  | .scanAnd ct d a e => Nat.add (put (put (put 0xF6000050 d 18) a 11) e 8) (loT ct)
  | .scanOr ct d a e => Nat.add (put (put (put 0xF6000060 d 18) a 11) e 8) (loT ct)
  | .scanXor ct d a e => Nat.add (put (put (put 0xF6000070 d 18) a 11) e 8) (loT ct)
  | .scanFadd ct d a e => Nat.add (put (put (put 0xF6000080 d 18) a 11) e 8) (loT ct)
  | .scanFmin ct d a e => Nat.add (put (put (put 0xF6000090 d 18) a 11) e 8) (loT ct)
  | .scanFmax ct d a e => Nat.add (put (put (put 0xF60000A0 d 18) a 11) e 8) (loT ct)
  | .scanAdd64 ct d a e => Nat.add (put (put (put 0xF60000B0 d 18) a 11) e 8) (loT ct)
  | .matchEq32 ct d a => Nat.add (put (put 0xF8000000 d 18) a 11) (loT ct)
  | .matchEq64 ct d a => Nat.add (put (put 0xF8000010 d 18) a 11) (loT ct)
  | .matchLeader ct d a => Nat.add (put (put 0xF8000020 d 18) a 11) (loT ct)
  | .part ct a => Nat.add (put 0xFA000000 a 11) (loT ct)
  | .cpy ct d a => Nat.add (put (put 0xFC000000 d 18) a 11) (loT ct)
  | .cpym ct d a => Nat.add (put (put 0xFC000010 d 18) a 11) (loT ct)
  | .chain ct d a => Nat.add (put (put 0xFC000020 d 18) a 11) (loT ct)
  | .psum ct d a => Nat.add (put (put 0xFC000030 d 18) a 11) (loT ct)
  | .rsort ct d a => Nat.add (put (put 0xFC000040 d 18) a 11) (loT ct)
  | .walk ct d a => Nat.add (put (put 0xFC000050 d 18) a 11) (loT ct)
  | _ => 0

/-- The prefix word (R33, format X). -/
def encodePfx (p : Pfx) : Nat :=
  0xFE000000 + p.guard5.toNat * 2 ^ 20 + p.nf.toNat * 2 ^ 19 + p.rm.toNat * 2 ^ 17 + p.w64.toNat * 2 ^ 16
    + p.scope.toNat * 2 ^ 13 + p.immext.toNat

/-- The words of a well-formed instruction in address order: its prefix word, if any, and its own word (R31). -/
def encode (i : Instr) : List Nat :=
  match (ctlOf i).pfx with
  | none => [encodeWord i]
  | some p => [encodePfx p, encodeWord i]

/-- Decode a list of words: the first one or two of them. -/
noncomputable def decodeWords (ws : List Nat) : Decoded := decode (ws.headD 0) (ws.tail.headD 0)

/-- The instruction read from the opcode table's bit string: word 0 is bits 31..0, word 1 bits 63..32. -/
noncomputable def decodeTableWord (_nbits w : Nat) : Option Instr :=
  match decode (w % 2 ^ 32) (w / 2 ^ 32 % 2 ^ 32) with
  | .ok i => some i
  | .illegal _ => none

end Sys2Proof
end

