-- ==== Sys2Proof/Machine/Map.lean ====
section
/-! DEFINITION. Map: finite tables as lists of key and value. A key that is not listed holds the table's default,
which the reader names. -/

namespace Sys2Proof

/-- A finite table. -/
abbrev AMap (κ : Type) (α : Type) := List (κ × α)

/-- The value at a key, if it is listed. -/
def AMap.find {κ α : Type} [DecidableEq κ] : AMap κ α → κ → Option α
  | [], _ => none
  | (k', v) :: m, k => if k' = k then some v else AMap.find m k

/-- The value at a key, `d` where it is not listed. -/
def AMap.getD {κ α : Type} [DecidableEq κ] (m : AMap κ α) (k : κ) (d : α) : α :=
  match AMap.find m k with
  | some v => v
  | none => d

/-- The table with `v` at `k`: in place where `k` is listed, else at the end. -/
def AMap.set {κ α : Type} [DecidableEq κ] : AMap κ α → κ → α → AMap κ α
  | [], k, v => [(k, v)]
  | (k', v') :: m, k, v => if k' = k then (k, v) :: m else (k', v') :: AMap.set m k v

/-- The table without `k`. -/
def AMap.del {κ α : Type} [DecidableEq κ] (m : AMap κ α) (k : κ) : AMap κ α := m.filter fun e => !decide (e.1 = k)

end Sys2Proof
end

