-- ==== Sys2Proof/Machine/State.lean ====
section
/-! DEFINITION. State: everything the manual gives one K4 package, as plain data, and the state right after reset. -/

namespace Sys2Proof.Machine

open Sys2Proof

/-! ### Threads (R76, R79, R143, R167, R263) -/

/-- A register with its poison bit (R110, R192). -/
structure Reg where
  v : Word := 0
  p : Bool := false
deriving DecidableEq, Repr

/-- An index register (R106). -/
structure Ix where
  base : Word := 0
  bound : Word := 0
  idx : Word := 0
deriving DecidableEq, Repr

/-- A closure register c0-c15 and its poison (R156, R163). -/
structure CReg where
  v : DWord := 0
  p : Bool := false
deriving DecidableEq, Repr

/-- A loop frame (R143). `kind`: 0 counted, 1 pipelined, 2 while. -/
structure Frame where
  start : Nat
  len : Nat
  kind : Nat
  stages : Nat
  rot : Nat
  rrb : Nat
  cnt : Word
  epi : Nat
  stop : Bool
  pidx : Nat
  level : Word
deriving DecidableEq, Repr

/-- A result not yet written (R39, R40, R111): due cycle, registers, predicates, fsr flags, and whether its instruction can set
a flag at all. -/
structure Pend where
  due : Nat := 0
  regs : List (Nat × Reg) := []
  preds : List (Nat × Bool) := []
  flags : BitVec 7 := 0
  may : Bool := false
deriving DecidableEq, Repr

/-- A scoreboarded destination (R39). -/
inductive Dest where
  | reg (n : Nat)
  | pred (n : Nat)
  | clos (k : Nat)
deriving DecidableEq, Repr

/-- Why a thread in long wait cannot issue (R81). An instruction that waits has had no effect yet, unless the
constructor says so; it is issued again when its condition holds. -/
inductive Wait where
  /-- A scoreboarded register, predicate or closure register (R39). -/
  | score
  /-- 63 loads and atomics outstanding (R179). -/
  | limit
  /-- A fixed-latency flag writer is not done (R111); until the cycle given. -/
  | flags (till : Nat)
  /-- `drain`: the transfers of its set still outstanding (R217). -/
  | drain (set : List Nat)
  /-- `fence`, an ordered atomic or a push's release: earlier accesses of the thread on the source paths (R251). -/
  | order
  /-- A full engine queue or core share (R203). -/
  | engine (e : EngineId)
  /-- The partition's matrix unit is full or bound to another group (R221, R222). -/
  | unit
  /-- Operations at an environment port (R161). -/
  | port
  /-- A read the instruction needs before it can act (R88, R96, R237, R310); the accesses that bring it. -/
  | sync
  /-- A push that its queue has not accepted, or whose response is out (R291); access number. -/
  | push (n : Nat)
  /-- The response of a single access whose completion ends the instruction; access number. -/
  | resp (n : Nat)
  /-- A later instruction held by an acquire (R245, R251). -/
  | acquire
  /-- A device, route or semaphore function whose result is out (R333, R355, R363). -/
  | dev
  /-- A commit point: the twin copy has not reached its own (R360). -/
  | twin
deriving DecidableEq, Repr

/-- A wait of `mwait` (R103): address, where its word is held, last value read, cycle of the limit, whether the home is on
the die, whether a write has been applied to the word since; the destination registers, the instruction's size, and the cycle of
its issue. -/
structure MWait where
  va : Nat
  fa : Nat
  last : Reg
  limit : Nat
  near : Bool
  hit : Bool
  dest : List Nat
  size : Nat
  start : Nat
deriving DecidableEq, Repr

/-- The states of R81. -/
inductive Status where
  | ready
  | yielding (till : Nat)
  | mwait (m : MWait)
  | waiting (w : Wait)
  /-- At barrier n, the arrival counted (R264, R265). -/
  | barrier (n : Nat)
  /-- Arrived at the collective at its program counter (R132); `active` is its guard. -/
  | collective (i : Instr) (active : Bool)
  /-- Its access stands in the fault buffer (R314). -/
  | parked
  /-- Parked as saved by a safe-point routine (R276). -/
  | saved
  /-- Stopped by poison consumption, a failed comparison or a group fault (R279, R357). -/
  | stopped
  | draining
  | exited
deriving DecidableEq, Repr

/-- An entry of the commit buffer (R360): the number its access will have, the cycle of its store, address, home address, bytes and
poisoned words. -/
structure Held where
  num : Nat := 0
  born : Nat := 0
  va : Nat
  fa : Nat
  cells : List Host.Cell
  pois : List Nat
deriving DecidableEq, Repr

/-- Who made an access or an engine request. -/
inductive Owner where
  | thread (t : ThreadId)
  | engine (e : EngineId) (cmd : Nat)
  | unit (p : PartId) (cmd : Nat)
  | launch (l : Nat)
  | part
  /-- The swap-out or the restore of the group at a slot (R274, R275). -/
  | block (g : GroupId)
  /-- The management firmware of a die, reading for a call (R379). -/
  | firmware (d : Nat)
deriving DecidableEq, Repr

/-- An engine or matrix command (R202, R209, R222): function, tuple, and its progress. -/
structure Cmd where
  num : Nat
  fn : Nat
  tup : List Word
  tag : BitVec 16
  owner : ThreadId
  gnum : BitVec 64
  ctx : Nat
  sys : Bool
  region : Nat
  launch : Option Nat
  core : CoreId
  part : Nat
  /-- The follow-on tuple of `cpym`, or the destination of `tstat`. -/
  extra : List Word
  dest : List Nat
  /-- Cycle of its acceptance, and the saturation-trap flag of its group's header (R233). -/
  born : Nat := 0
  sattrap : Bool := false
  /-- Units done, and the machine's own counters while it runs. -/
  i : Nat := 0
  j : Nat := 0
  acc : Nat := 0
  aux : List Nat := []
  /-- Data read for the unit in progress. -/
  buf : List (Nat × Byte × Bool) := []
  /-- Accesses outstanding. -/
  outs : List Nat := []
  /-- Lowest and highest destination byte, once known (R210). -/
  lo : Nat := 0
  hi : Nat := 0
  started : Bool := false
  done : Bool := false
  stopped : Bool := false
  satTrapped : Bool := false
  waiting : Bool := false
  /-- A ragged wait ended as if its counter had closed (R228). -/
  closed : Bool := false
  /-- Its thread's home-read when it was made (R248). -/
  homeRead : BitVec 6 := 0
deriving DecidableEq, Repr

/-- What a thread's operation at an environment port came to (R159): what it reads, or the cause it raises. -/
inductive PortRes where
  | ok (rs : List Reg)
  | bad (cause : Nat) (val : DWord)
  /-- A cause for which the manual names no trapval. -/
  | badFree (cause : Nat)
deriving DecidableEq, Repr

/-- One thread (R76) with the state later chapters add to it. -/
structure Thread where
  pc : DWord := 0
  regs : AMap Nat Reg := []
  wb : Nat := 0
  /-- p0-p7 in bits 0-7, sp0-sp7 in bits 8-15; bit 0 is never written (R35). -/
  preds : BitVec 16 := 0
  ix : AMap Nat Ix := []
  clos : AMap Nat CReg := []
  fsr : Word := 0
  tsp : DWord := 0
  trapcause : Word := 0
  trappc : DWord := 0
  trapval : DWord := 0
  tag : BitVec 16 := 0
  /-- A lost access has marked the tag (R87, R191); no rule reads the mark (log entry 38). -/
  marked : Bool := false
  /-- The value `cyc` latched, if any has executed (R104). -/
  latch : Option DWord := none
  /-- Open frames, innermost first (R143). -/
  loops : List Frame := []
  /-- Activation level A (R144). -/
  level : Word := 0
  /-- Head of the anchor list: 1,024 × (64 × the die's index + the core's number) + the slot of its environment store (R167). -/
  anchor : Option Nat := none
  handler : Bool := false
  /-- Home-read (R248): the paths on which loads go to the home of their location. -/
  homeRead : BitVec 6 := 0
  /-- Barrier pending and left bits (R263). -/
  bpend : BitVec 32 := 0
  bleft : BitVec 32 := 0
  /-- Barriers at which it has arrived, and the loads for whose return its later accesses wait since a `bar.test` that found its
  arrival's generation over (R253, R266). -/
  arrived : BitVec 32 := 0
  after : List Nat := []
  status : Status := .exited
  /-- The thread's next issue is no earlier than this cycle (R38). -/
  notBefore : Nat := 0
  /-- Cycle since which it has been ready (R83). -/
  since : Nat := 0
  /-- Fixed-latency results not yet written, in issue order (R39, R40). -/
  pend : List Pend := []
  /-- Variable-latency results not from memory, not yet written (R39). -/
  vpend : List Pend := []
  /-- Scoreboard (R39). -/
  busy : List Dest := []
  /-- Imprecise faults to be delivered at the next issue: cause and trapval (R90). -/
  impr : List (BitVec 8 × DWord) := []
  /-- A cause being taken whose handler entry waits for a read: cause, trappc and trapval (R88). -/
  raise : Option (Nat × DWord × DWord) := none
  /-- Saving level while a save routine runs (R276). -/
  saving : Option Word := none
  /-- The safe point whose routine saved it (R276, R277). -/
  safept : Nat := 0
  /-- Restored as saved: it enters that point's restore routine before it issues (R277). -/
  restoring : Bool := false
  /-- What the environment port has answered to the instruction in progress (R159). -/
  port : Option PortRes := none
  /-- Cycle in which the instruction in progress issued, while it waits or is parked: it has read its operands in that cycle
  (R162, R203), so results that fall due later are written when it is over. -/
  issued : Option Nat := none
  /-- The limit of an `mwait` whose reading of its word waits or is parked (R103). -/
  mwaitBy : Option Nat := none
  /-- Store signature and the stores it covers (R359, R360). -/
  sig : BitVec 64 := 0
  nstores : Nat := 0
  held : List Held := []
  /-- Engine and tile commands held with them: where they go, and the registers that get their acceptance numbers (R360). -/
  cmds : List (Owner × Cmd) := []
  /-- At a commit point (R360): 0 no, 1 waiting for its twin, 2 passed, 3 waiting for its twin because a buffer is full. -/
  atCommit : Nat := 0
deriving DecidableEq, Repr

/-! ### Groups and sheaves (R130, R131, R270, R271, R282) -/

/-- The states of R271. A retired group stands nowhere in the machine. -/
inductive GState where
  | resident | preempting | out | restoring | ending | retired
deriving DecidableEq, Repr

/-- One sheaf (R131, R272): its partition register and whether it is in the active set. -/
structure Sheaf where
  dk : Nat := 5
  active : Bool := false
deriving DecidableEq, Repr

/-- One group: its bind record's fields and the header values dispatch read once (R282). -/
structure Group where
  st : GState := .resident
  /-- Its number within its launch in the low 32 bits (R286); above them a serial number of the model's own, which tells groups
  apart. -/
  num : BitVec 64 := 0
  region : Nat := 0
  ctx : Nat := 0
  sys : Bool := false
  tag : BitVec 16 := 0
  header : Nat := 0
  threads : Nat := 1
  count : Nat := 32
  strict : Bool := false
  inttrap : Bool := false
  sattrap : Bool := false
  /-- Shadow mode 0 none, 1 lane pair, 2 block pair (R281). -/
  shadow : Nat := 0
  /-- This copy is the shadow of a block pair, and the slot of its twin. -/
  isShadow : Bool := false
  twin : Option GroupId := none
  safeOff : Nat := 0
  safeCount : Nat := 0
  handOff : Nat := 0
  nbar : Nat := 0
  vbase : DWord := 0
  vaultBytes : Nat := 0
  vaultOff : Nat := 0
  /-- Context block address (R273). -/
  block : Nat := 0
  sheaves : AMap Nat Sheaf := []
  /-- Launch number of State.launches, and the cycle of the present bind. -/
  launch : Option Nat := none
  bound : Nat := 0
  /-- Cycles of earlier bindings (R297). -/
  cycles : Nat := 0
  /-- Cycle of the pre-emption request (R278). -/
  preAt : Nat := 0
  /-- A retry has been taken (R362). -/
  retried : Bool := false
  /-- A group fault or a purge has ended it (R279). -/
  faulted : Bool := false
  /-- The block state it goes out with, while its block is written (R274, R277): its threads issue nothing. -/
  leaving : Option Nat := none
  /-- How far that is: 0 records and images to be written, 1 the vault copy, 2 the acknowledgements to come. -/
  leaveStep : Nat := 0
  /-- While it is restored: the core it was on before (R240). -/
  from_ : Option CoreId := none
deriving DecidableEq, Repr

/-- A causal view or table (R242): (origin, home) stand positions and a count. -/
abbrev View := AMap (Nat × Nat) Nat

/-- A group that is swapped out (R273, R274): the group, its threads and its block state. What its block holds of them in a layout the
manual gives (barriers, register images, vault copy) is read from there at its restore. -/
structure OutGroup where
  g : Group
  thr : AMap (Nat × Bool) Thread
  /-- Block state 1, 2 or 3. -/
  kind : Nat
  /-- The slot it left, to which accesses still under way were addressed (R275). -/
  was : GroupId
  /-- The views of the core it left, by path: what its threads have written and read there (R240). -/
  views : AMap Nat View := []
deriving DecidableEq, Repr

/-- A retry point of a thread (R361). -/
structure Retry where
  t : ThreadId
  copy : Thread
deriving DecidableEq, Repr

/-! ### Objects of a core (R11) -/

/-- A named barrier bound to a group (R263). -/
structure Bar where
  e : Nat := 0
  c : Nat := 0
  lv : Nat := 0
  g : BitVec 16 := 0
deriving DecidableEq, Repr

/-- The state of an environment slot (R157). -/
inductive SlotState where
  | free | closure | anchor
deriving DecidableEq, Repr

/-- An environment slot (R157). `w` holds the entry or base and the captured words or the size. -/
structure EnvSlot where
  st : SlotState := .free
  gen : Nat := 1
  count : Nat := 0
  n : Nat := 0
  ref : Bool := false
  region : Nat := 0
  base : DWord := 0
  words : List Reg := []
  owner : Option ThreadId := none
  level : Word := 0
  /-- The previous anchor, numbered as `Thread.anchor` numbers it. -/
  link : Option Nat := none
deriving DecidableEq, Repr

/-- What an instruction asks of environment ports, as it was when the instruction issued (R162, R168): the handles to be tested in
turn, and for a new slot its entry or base, its words, its region, its owner's level and previous anchor. -/
structure EnvReq where
  i : Instr
  handles : List Nat := []
  ent : DWord := 0
  words : List Reg := []
  region : Nat := 0
  level : Word := 0
  link : Option Nat := none
deriving DecidableEq, Repr

/-- An operation queued at a core's environment port (R159), by a thread of the group with a number: its request, with the
references of a `cap.ref` checked so far; or the release of anchors. -/
inductive EnvOp where
  | instr (t : ThreadId) (gnum : BitVec 64) (q : EnvReq) (checked : Nat)
  | release (t : ThreadId) (gnum : BitVec 64) (slots : List Nat)
deriving DecidableEq, Repr

/-- A TLB entry (R312): context, virtual page base, log2 size, fabric base, permission bits [8:5] of R309. -/
structure TlbE where
  ctx : Nat
  va : Nat
  size : Nat
  fa : Nat
  perm : BitVec 4
deriving DecidableEq, Repr

/-- An L1 line (R178, R244): 128 bytes, poisoned words, generation at fill, home position, streaming mark. -/
structure Line where
  seg : Nat
  cells : List Byte
  pois : List Nat
  home : Option Nat
  gen : Nat
  str : Bool
deriving DecidableEq, Repr

/-- A parked access (R314): what waits for a translation. -/
structure Parked where
  owner : Owner
  ctx : Nat
  va : Nat
  level : Nat
  kind : Nat
  tag : BitVec 16
  group : BitVec 64
  at_ : Nat
deriving DecidableEq, Repr

/-- An engine (R202). -/
structure Engine where
  q : List Cmd := []
  fly : List Cmd := []
  /-- Commands accepted from each core since reset (R203). -/
  accepted : AMap Nat Nat := []
deriving DecidableEq, Repr

/-- A weight bank (R220): loaded, I8; for each column, its 128 elements, its 4 scales and its 4 sums. -/
structure Bank where
  loaded : Bool := false
  i8 : Bool := false
  el : List (List Int) := []
  scale : List (List Nat) := []
  sum : List (List Int) := []
deriving DecidableEq, Repr

/-- An accumulator row (R220): clear bit, exponent, 128 words and invalid bits. -/
structure AccRow where
  clear : Bool := true
  e : Int := 0
  acc : List Int := []
  inv : List Bool := []
deriving DecidableEq, Repr

/-- A matrix unit (R220). -/
structure MUnit where
  bound : Option (BitVec 64) := none
  banks : AMap Nat Bank := []
  rows : AMap Nat AccRow := []
  /-- Row buffer: row, granule to (scale, the eight planes low first) (R66). -/
  buf : AMap (Nat × Nat) (Nat × List Nat) := []
  sat : Bool := false
  q : List Cmd := []
  accepted : Nat := 0
deriving DecidableEq, Repr

/-- A tile task (R237). -/
structure Task where
  num : Nat
  high : Bool
  inputs : List (Nat × Nat)
  target : Nat
  fn : Nat
  tup : List Word
  cmd : Cmd
  /-- Its inputs have all been met (R238). -/
  ready : Bool
deriving DecidableEq, Repr

/-- One core (R11). -/
structure Core where
  env : AMap Nat EnvSlot := []
  envq : List EnvOp := []
  ctrs : AMap Nat Word := []
  tasks : AMap Nat Task := []
  taskSeq : Nat := 0
  bars : AMap (Nat × Nat) Bar := []
  fbuf : List Parked := []
  l1 : List Line := []
  gens : AMap Nat (BitVec 16) := []
  tlb : List TlbE := []
  views : AMap Nat View := []
  /-- What the increments of each arrival counter carry (R236). -/
  ctrViews : AMap Nat View := []
  retry : List Retry := []
  /-- Vault space of groups that have retired, kept for their transfers still under way (R280): number, address, place and bytes. -/
  left : List (BitVec 64 × DWord × Nat × Nat) := []
deriving DecidableEq, Repr

/-- One partition (R11, R83, R85): tracked program counters with the cycle of their last issue, the overflow pool
with entry times, and one more than the cycle of the last pick. -/
structure Part where
  unit : MUnit := {}
  tracked : List (Nat × Nat) := []
  pool : List (Nat × Nat) := []
  lastPick : Nat := 0
deriving DecidableEq, Repr

/-- One cluster (R11). -/
structure Cluster where
  chain : Engine := {}
  psum : Engine := {}
  walk : Engine := {}
  tlb : List TlbE := []
deriving DecidableEq, Repr

/-! ### Accesses and packets (R175, R343) -/

/-- The kinds of access. -/
inductive AccKind where
  | load | store | atomic | push | qlen | sync | engineRead | engineWrite | skip
deriving DecidableEq, Repr

/-- An atomic's operation as a packet carries it (R344): opcode less 0x68, width, order, scope, operands, increment count. -/
structure AOp where
  op : Nat
  w : Nat
  ord : Nat
  scope : Nat
  v : Nat
  n : Nat
  incs : Nat
deriving DecidableEq, Repr

/-- An atomic whose requests may be merged (R194, R195): no `acas`, and not sc. -/
def AOp.merges (o : AOp) : Bool := o.op != 9 && o.ord != 3

/-- Accesses that write. -/
def AccKind.writes : AccKind → Bool
  | .store => true
  | .engineWrite => true
  | .push => true
  | .atomic => true
  | _ => false

/-- The packet kind of an access's request (R343). -/
def AccKind.packet : AccKind → Nat
  | .store => 16
  | .engineWrite => 1
  | .push => 1
  | .atomic => 2
  | _ => 0

/-- A lane of a request (R176, R194): its access, its atomic's operands and increment count, the byte offset of its location in the
segment; in a response `v` is the old value and `bad` its poison. -/
structure Lane where
  acc : Nat
  v : Nat := 0
  n : Nat := 0
  incs : Nat := 1
  off : Nat := 0
  bad : Bool := false
deriving DecidableEq, Repr

/-- A step that a request has taken (R200): from a die of the package over its direct link, or in by a local port from a neighbour. -/
inductive Hop where
  | die (j : Nat)
  | port (k via : Nat)
deriving DecidableEq, Repr

/-- An access under way. -/
structure Acc where
  owner : Owner
  core : CoreId
  path : Nat := 0
  kind : AccKind := .load
  va : Nat := 0
  fa : Nat := 0
  len : Nat := 0
  /-- Destination registers, low first; sign extension of a short load. -/
  dest : List Nat := []
  signed : Bool := false
  hint : Nat := 0
  aop : Option AOp := none
  cells : List Host.Cell := []
  pois : List Nat := []
  tag : BitVec 16 := 0
  redirects : Nat := 0
  born : Nat := 0
  /-- Cycle before which a held-back access is not sent again (R243). -/
  resend : Option Nat := none
  /-- Memories touched (R217): vault, DRAM of the package, or remote. -/
  touches : Nat := 0
  /-- Also written to the shadow lane (R358). -/
  shadow : Bool := false
  acked : Bool := false
  counted : Bool := false
  glean : Nat := 0
  /-- The first access of the vector packet it left in (R176). -/
  lead : Nat := 0
  /-- Its line may stand in the L1 (R178). -/
  cache : Bool := false
  /-- Number of the group it was issued for. -/
  gnum : BitVec 64 := 0
  /-- Holder and prefix length it was sent to, and a write's causal stamp (R242). -/
  home : Nat := 0
  plen : Nat := 0
  count : Nat := 0
  stamped : Bool := false
  view : View := []
deriving DecidableEq, Repr

/-- A packet (R343): `kind` is the packet kind of R343; `at_` the die index it is at, `port` the port it came in by. -/
structure Pkt where
  kind : Nat := 0
  at_ : Nat := 0
  port : Option Nat := none
  dst : Nat := 0
  src : Nat := 0
  plen : Nat := 0
  fa : Nat := 0
  tag : BitVec 16 := 0
  mixed : Bool := false
  sysRel : Bool := false
  cacheable : Bool := false
  relayed : Bool := false
  fwd : Bool := false
  hop : Nat := 0
  acc : Nat := 0
  want : List Nat := []
  cells : List Host.Cell := []
  pois : List Nat := []
  /-- Stamp: the origin and its count towards the home, and the entries (R242, R344). -/
  origin : Nat := 0
  count : Nat := 0
  stamped : Bool := false
  view : View := []
  ext : Nat := 0
  aop : Option AOp := none
  /-- Old value of an atomic response, or the fields of redirect, moved, skip and purge packets. -/
  val : Nat := 0
  val2 : Nat := 0
  poisoned : Bool := false
  /-- Combine trail (R200): die, switch, entry, innermost last. -/
  trail : List (Nat × Nat × Nat) := []
  /-- The access it answers is a push or qlen. -/
  push : Bool := false
  relay : Bool := false
  /-- A retry after a redirect goes to the origin that `dst` names (R329). -/
  retry : Bool := false
  /-- The lanes of a vector packet, ascending tid (R176). -/
  lanes : List Lane := []
  /-- An atomic request performed as one operand on one location (R194, R196). -/
  comb : Bool := false
  /-- Its lanes store one or two bytes each, which clears no word's poison (R192). -/
  sub : Bool := false
  /-- The way the request has come, last step first (R200). -/
  back : List Hop := []
  /-- The switch it is queued in, 0 the die's router, 1 to 4 the relay point of a local port (R344); the cycle in which it entered it,
  and by which input port (R196). -/
  sw : Nat := 0
  came : Nat := 0
  inp : Nat := 0
  /-- Its place among what has come in by the ports (R248). -/
  nth : Nat := 0
  /-- Further counts a combined request takes when it is performed: origin and count (R196, R242). -/
  also : List (Nat × Nat) := []
  /-- The neighbour for which it is queued at a port (R349). -/
  via : Nat := 0xFFFF
  /-- A write parked during a move by the home named, on its way to the new home (R331). -/
  parkedBy : Option Nat := none
deriving DecidableEq, Repr

/-- A combine wait-buffer entry (R193, R195, R198). -/
structure Pair where
  early : Pkt
  late : Pkt
  born : Nat
  killE : Bool
  killL : Bool
deriving DecidableEq, Repr

/-! ### Routes (R321, R322) -/

/-- The states of a route entry (R322). -/
inductive RState where
  | installed | orphan | suppressed
deriving DecidableEq, Repr

/-- A route table entry (R322). `next`: 0-3 local port, 4-7 die-to-die link to die index next - 4, 8 the die itself. -/
structure Route where
  pre : Nat
  len : Nat
  cls : Nat
  ready : Bool
  hold : Bool
  ver : Nat
  origin : Nat
  cost : Nat
  next : Nat
  path : List Nat
  st : RState
  /-- Where the origin's own memory holds the prefix (R335). -/
  backing : Nat
  /-- Region whose thread announced it (R332); none for the firmware. -/
  region : Option Nat
  movedFrom : Option Nat
  /-- A withdrawn home kept in the table: one withdrawn by a move before the new home's announcement has come (R331), and a die's own
  that has lost a conflict or moved away (R332). It serves nothing. -/
  gone : Bool := false
deriving DecidableEq, Repr

/-- A control message on its way (R345): receiving die, link it arrives on, and its 255 payload bytes. -/
structure Ctl345 where
  at_ : Nat
  link : Nat
  bytes : List Byte
  /-- It came through a relay (R323, R350). -/
  relay : Bool := false
deriving DecidableEq, Repr

/-- A route function of a thread that has not completed (R334-R337): the thread, its destination register,
function, prefix, length, version, dies that have acknowledged, cycle of issue, phase of a promo. -/
structure RouteOp where
  t : Option ThreadId
  d : Nat
  fn : Nat
  pre : Nat
  len : Nat
  ver : Nat
  acks : List Nat
  born : Nat
  phase : Nat
  /-- The entry withdrawn: until the withdrawal completes its holder still serves loads (R330). -/
  old : Option Route := none
  /-- The thread's group number; the die a moved home has gone to. -/
  gnum : BitVec 64 := 0
  movedTo : Option Nat := none
deriving DecidableEq, Repr

/-- A prefix being moved (R331): at the old home the writes parked; at the new home the list and what is held. -/
structure Move where
  pre : Nat
  len : Nat
  peer : Nat
  ver : Nat
  parked : List Pkt
  list : List Nat
  ended : Bool
  old : Bool
deriving DecidableEq, Repr

/-- A replica's bookkeeping (R326-R328): words marked while filling and the counts its home's stream has carried. -/
structure Replica where
  marks : List Nat := []
  counts : View := []
  /-- The home whose stream it follows, and what another home has sent before that stream's final marker (R331). -/
  src : Option Nat := none
  waiting : List Pkt := []
deriving DecidableEq, Repr

/-! ### Ports (R339-R354) -/

/-- The states of a port (R339). -/
inductive PState where
  | dark | training | active | parked | waking | reconfiguring | failed
deriving DecidableEq, Repr

/-- The states of a transmit wavelength (R339). -/
inductive LState where
  | dark | carrying | parked | waking | failed
deriving DecidableEq, Repr

/-- Send-allowance counters of one peer and class (R347). -/
structure Allow where
  s : Nat := 0
  k : Nat := 0
  a : Nat := 0
  /-- Receiver side: flits whose buffers are freed. -/
  freed : Nat := 0
deriving DecidableEq, Repr

/-- A decoded flit waiting for its event: header class, kind, start, end, poisoned, sequence and 256 payload bytes. -/
structure Flit where
  cls : Nat
  kind : Nat
  first : Bool
  last : Bool
  poisoned : Bool
  seq : Nat
  bytes : List Byte
deriving DecidableEq, Repr

/-- A link function accepted or waiting for acceptance (R355, R399). -/
structure LinkOp where
  t : ThreadId
  d : Nat
  fn : Nat
  port : Nat
  mask : Nat
  thresh : Nat
  slots : List Nat
  badTable : Bool
  born : Nat
  gnum : BitVec 64 := 0
deriving DecidableEq, Repr

/-- What a request sent through a port leaves behind for its response (R200, R344): lanes, trail, way back, bytes wanted, and for a
write its place among what has come in. -/
structure Rider where
  lanes : List Lane := []
  comb : Bool := false
  trail : List (Nat × Nat × Nat) := []
  back : List Hop := []
  want : List Nat := []
  push : Bool := false
  aop : Option AOp := none
  nth : Nat := 0
  write : Bool := false
deriving DecidableEq, Repr

/-- One Galzan port (R339, R347, R349, R352). -/
structure Port where
  st : PState := .dark
  lanes : List LState := [.dark, .dark, .dark, .dark, .dark, .dark, .dark, .dark]
  /-- Packets, control messages (kind 200) and markers (kind 201) queued for transmission, oldest first. -/
  txq : List Pkt := []
  /-- Flits still to go of the packet in transmission to each peer in each class. -/
  prog : AMap (Nat × Nat) (List Flit) := []
  /-- Flits of the frame in progress, and the frame last sent, by wavelength (R341). -/
  frame : List (List Byte) := []
  out : List (Nat × List Byte) := []
  group : Nat := 0
  sinceRefresh : Nat := 0
  /-- Wavelengths the frames are striped over, and their number; those decided, and those marked in a header sent (R399). -/
  carry : List Nat := []
  width : Nat := 0
  newCarry : Option (List Nat) := none
  marked : Option (List Nat) := none
  /-- Allowances, and sequences out and in, by peer and class (R342, R347). -/
  allow : AMap (Nat × Nat) Allow := []
  seqOut : AMap (Nat × Nat) Nat := []
  seqIn : AMap (Nat × Nat) Nat := []
  retClass : Nat := 0
  /-- Refresh and marker flits received, each waiting for its event; flits of packets in progress by peer and class. -/
  rxq : List Flit := []
  halves : AMap (Nat × Nat) (List Flit) := []
  peer : Nat := 0xFFFF
  sched : List Nat := []
  slot : Nat := 0
  epoch : Nat := 0
  lastMarker : Nat := 0
  slotLen : Nat := 0
  ver : Nat := 0
  /-- The stand number each peer's meeting marker has carried (R381). -/
  peerStand : AMap Nat Nat := []
  thresh : Nat := 0
  depthWord : Nat := 0
  depthFlag : Nat := 0
  lastRewrite : Option Nat := none
  corrected : Nat := 0
  poisonedFrames : Nat := 0
  dropped : Nat := 0
  dropAnn : Nat := 0
  ignored : Nat := 0
  relocks : Nat := 0
  changedAt : Nat := 0
  /-- Training, waking or reconfiguration in progress: its start, the function it serves, the wavelengths still to lock, and
  whether one has failed. -/
  since : Nat := 0
  op : Option LinkOp := none
  named : List Nat := []
  someFailed : Bool := false
  /-- Wavelengths to be parked once the narrower width is in force. -/
  parking : List Nat := []
  /-- Peers to which a meeting marker has gone, and those from which one has come, since training began (R351). -/
  greeted : List Nat := []
  met : List Nat := []
  drainSent : Bool := false
  drainGot : Bool := false
  /-- Requests received before the peer's drain marker whose responses are owed (R354 step 3). -/
  owed : List (Nat × Nat) := []
  finalSent : Bool := false
  finalGot : Bool := false
  /-- After darkness under `lnksched`: the schedule waits for a slot marker of a new epoch (R354 step 5). -/
  newSched : Option (List Nat) := none
  oldEpoch : Nat := 0
  newMark : Option (Nat × Nat) := none
deriving DecidableEq, Repr

/-! ### Work (R284, R289, R296, R299, R300) -/

/-- A record held by a queue (R284, R292): its number, words with poison, the launch made of it. -/
structure Entry where
  num : Nat
  words : List Reg
  launch : Option Nat
  /-- Its poison has been consumed; the purge will remove it (R292). -/
  done : Bool
  /-- It names a region that was no longer active when it was pushed (R307). -/
  late : Bool := false
  /-- The push's stamp (R293). -/
  view : View := []
  /-- Which 64 bytes of the queue's storage hold it (log entry 37). -/
  slot : Nat := 0
deriving DecidableEq, Repr

/-- A queue (R289). -/
structure Queue where
  die : Nat
  push : Nat
  cap : Nat
  region : Nat
  quantum : Nat
  storage : Nat
  accepted : Nat := 0
  refused : Nat := 0
  entries : List Entry := []
  deficit : Int := 0
  /-- A call queue (R377). -/
  call : Bool := false
  /-- Address of its control block, none for a call queue (R289). -/
  block : Nat := 0
deriving DecidableEq, Repr

/-- A record that dispatch has read (R284-R286, R292). `phase`: 0 waits for its predecessors, 1 for its wait counter, 2 for its count,
3 for its header where the count is zero, 4 its groups are handed out, 5 complete, its completion add to be made, 6 the add is out. -/
structure Launch where
  die : Nat
  q : Option Nat
  num : Nat
  words : List Word
  region : Nat
  ctx : Nat
  phase : Nat
  count : Nat := 0
  next : Nat := 0
  live : Nat := 0
  /-- Killed by a purge (R287, R292). -/
  dead : Bool := false
  /-- Found invalid (R285): its entry has been written, and its words are not trusted. -/
  invalid : Bool := false
  /-- For a closure task: entry address and words (R165). -/
  env : Option (DWord × List Reg) := none
  view : View := []
  /-- Cycle since which it has found no fitting slot (R304). -/
  since : Option Nat := none
  /-- The kernel header's 256 bytes, once dispatch has read them (R282). -/
  header : List Byte := []
  /-- For a task of a dependency table: its core (R238, R298). -/
  core : Option CoreId := none
  /-- Numbers of the groups bound for it. -/
  gnums : List (BitVec 64) := []
  /-- Address of its record, 0 if it has none. -/
  entry : Nat := 0
deriving DecidableEq, Repr

/-- A bind record of the slot table (R296). -/
structure Bind where
  valid : Bool := false
  restore : Bool := false
  partner : Bool := false
  slot : Nat := 0
  core : Nat := 0
  num : BitVec 64 := 0
  /-- Launch number of State.launches, and the address of its record entry. -/
  launch : Nat := 0
  entry : Nat := 0
  block : Nat := 0
  region : Nat := 0
  /-- 0 pending, 1 bound, 2 refused, and 256 × the first unmet row of R270. -/
  status : Nat := 0
deriving DecidableEq, Repr

/-- A context (R299): root, fault area, capacity, notice word; state 1 building, 2 live. -/
structure Ctx where
  root : Nat
  area : Nat
  cap : Nat
  notice : Nat
  live : Bool
deriving DecidableEq, Repr

/-- A region (R300) with its retry setting (R361). -/
structure Region where
  parent : Nat
  ctx : Nat
  sys : Bool
  boundary : Bool
  fail : Bool
  shadow : Nat
  prio : Nat
  ovr : BitVec 6
  budget : Nat
  consumed : Nat
  tagLo : Nat
  tagHi : Nat
  st : Nat
  frec : Nat
  retryOn : Bool := false
  retryOver : Bool := false
  /-- Fault-record entries written and lost (R305). -/
  written : Nat := 0
  lost : Nat := 0
  /-- The fail domain has stopped (R306). -/
  stopped : Bool := false
  /-- Address of its control block (R300). -/
  block : Nat := 0
deriving DecidableEq, Repr

/-- A purge this die started (R364): tag, acknowledgements, cause, region, waiting thread. -/
structure PurgeOp where
  tag : BitVec 16
  acks : List Nat
  cause : Nat
  region : Nat
  t : Option (ThreadId × Nat)
  released : Bool
deriving DecidableEq, Repr

/-- A line of the host-coherence directory (R318, R319): holders, and the holders still to acknowledge a recall. -/
structure HostLine where
  line : Nat
  /-- Host attachments recorded since the last recall. -/
  holders : List Nat
  /-- Holders recalled that have not acknowledged, and when the recall was sent. -/
  waiting : List (Nat × Nat) := []
  /-- Answers that leave when the recall ends: acknowledgements of writes and the responses of atomics. -/
  writes : List Pkt := []
deriving DecidableEq, Repr

/-- A firmware call whose outputs are out (R377): the writes to be acknowledged, and what the completion word will hold. -/
structure FwEnd where
  ids : List Nat
  addr : Nat
  status : Nat
  result : Nat
deriving DecidableEq, Repr

/-- One die (R11, R242, R289, R296, R322). -/
structure Die where
  cycle : BitVec 64 := 0
  routes : List Route := []
  /-- Bring-up entries of R317 replaced or withdrawn: prefix, length, origin. -/
  dropped : List (Nat × Nat × Nat) := []
  issued : AMap Nat Nat := []
  applied : View := []
  /-- Counts skipped ahead of their turn (R243), by origin. -/
  skips : List (Nat × Nat) := []
  holdW : List Pkt := []
  holdL : List Pkt := []
  /-- Stamp extensions received ahead of their write (R344). -/
  exts : List Pkt := []
  /-- By 128 times the switch plus the entry's place in its wait buffer. -/
  pairs : AMap Nat Pair := []
  fwd : AMap (Nat × Nat) (List Nat) := []
  /-- The applied column last sent to each replica die. -/
  fwdSent : AMap (Nat × Nat × Nat) View := []
  fwdDue : Option Nat := none
  replicas : AMap (Nat × Nat) Replica := []
  moves : List Move := []
  rops : List RouteOp := []
  /-- Withdrawals acknowledged already (R323): prefix, length, origin, version. -/
  wdrSeen : List (Nat × Nat × Nat × Nat) := []
  slots : AMap Nat Bind := []
  lastQueue : Option Nat := none
  /-- Starved candidates whose pre-emption of a group has not completed (R304): the launch and that group's number. -/
  starving : List (Nat × BitVec 64) := []
  /-- Outstanding spans (R315) by context and span, and sequence numbers by context. -/
  spans : List (Nat × Nat) := []
  dseq : AMap Nat Nat := []
  /-- Notice words to be raised once a descriptor's write, an access, has been acknowledged (R315). -/
  notices : List (Nat × Nat) := []
  hostDir : List HostLine := []
  linkq : List LinkOp := []
  purges : List PurgeOp := []
  /-- Purge filter (R364, R365): tag, starts less releases. -/
  filter : AMap Nat Nat := []
  purgeWait : List Pkt := []
  gated : Bool := false
  preLimit : Nat := 65536
  fw : Option FwEnd := none
  relay : List Pkt := []
  /-- Firmware events, newest first: a code and a value (R319, R322, R332, R339, R381). -/
  events : List (Nat × Nat) := []
deriving DecidableEq, Repr

/-- The IEEE 1149.1 test port (R384): selected instruction, die, boundary register, bypass bit, data out. -/
structure Tap where
  ir : Nat := 0
  die : Nat := 0
  boundary : List Bool := []
  preload : List Bool := []
  /-- What EXTEST drives the pins with; none: the pins have their own function. -/
  driven : Option (List Bool) := none
  bypass : Bool := false
  out : BitVec 64 := 0
deriving DecidableEq, Repr

/-- Flash and fuses (R376, R381, R387): the ports of masters 0 and 1, stand tables, image slots with their state. -/
structure Flash where
  master0 : Nat := 0
  master1 : Nat := 8
  stand : Nat := 0
  pkgs : List Nat := [0]
  newStand : Option (Nat × List Nat) := none
  slot0 : List Byte := []
  slot1 : List Byte := []
  active : Nat := 0
  nextActive : Nat := 0
  minVer : Nat := 0
deriving DecidableEq, Repr

/-- An imprecise fault report on its way to a core (R90). -/
structure Report where
  t : ThreadId
  gnum : BitVec 64
  cause : BitVec 8
  va : DWord
  /-- Tag and region of the work, for a group that has retired (R207). -/
  tag : BitVec 16 := 0
  region : Nat := 0
deriving DecidableEq, Repr

/-- What happens next where the manual leaves the order open: an event, a pick of a partition, or a cycle of a die. -/
inductive Choice where
  | event (i : Instr)
  | pick (p : PartId)
  | tick
deriving DecidableEq, Repr

/-- The words being issued: the prefix word, if any, and the instruction word (R48). -/
structure Ir where
  pfx : Option Nat := none
  word : Nat := 0
deriving DecidableEq, Repr

/-- The whole package. -/
structure State where
  mem : List Host.Cell := []
  /-- Poisoned aligned words of the part's memory, by address, rising (R192). -/
  poison : List Nat := []
  dies : AMap Nat Die := []
  clusters : AMap (Nat × Nat) Cluster := []
  cores : AMap CoreId Core := []
  copies : AMap CoreId Engine := []
  parts : AMap PartId Part := []
  groups : AMap GroupId Group := []
  threads : AMap ThreadId Thread := []
  outs : List OutGroup := []
  ports : AMap Nat Port := []
  accs : AMap Nat Acc := []
  /-- By requesting die and access. -/
  riders : AMap (Nat × Nat) Rider := []
  /-- Accesses of the glean in progress that have not yet left their core (R175 stage 4). -/
  stage : List Nat := []
  /-- Data that reads of work in progress have brought: whose, fabric address, byte, poison of its word. -/
  syncBuf : List (Owner × Nat × Byte × Bool) := []
  /-- Such reads that failed: whose, fabric address, cause. -/
  syncFail : List (Owner × Nat × Nat) := []
  /-- What the lane issuing has sent out of its partition, for the comparison of R358 (empty between steps). -/
  evlog : List Nat := []
  net : AMap Nat Pkt := []
  ctl : AMap Nat Ctl345 := []
  reports : List Report := []
  nextId : Nat := 1
  queues : AMap Nat Queue := []
  launches : AMap Nat Launch := []
  ctxs : AMap Nat Ctx := []
  regions : AMap Nat Region := []
  /-- Views presented to each sequencer, by scope level and instance (R247). -/
  seqs : AMap (Nat × Nat) View := []
  /-- The sc atomic a sequencer has admitted and not released: its access. -/
  seqHold : AMap (Nat × Nat) Nat := []
  /-- Designated system sequencer (R380). -/
  sysSeq : Option Nat := none
  /-- Semaphore holder code (R382). -/
  sem : Nat := 0
  /-- Bring-up has still to start the training of the ports (R385 step 5). -/
  boot : Bool := true
  pkg : Nat := 0
  flash : Flash := {}
  tap : Tap := {}
  frozen : Bool := false
  power : Nat := 0
  fraction : Nat := 16
  /-- The lane issuing, and the lanes of the same glean still to issue (R83). -/
  cur : ThreadId := ⟨0, 0, 0, 0, false⟩
  glean : List ThreadId := []
  gleanNo : Nat := 0
  ir : Ir := {}
  choices : List Choice := []
  /-- Whether the loads to come that find a valid L1 line are served from it, which R178 leaves open; none once the list is
  used up (log entry 10). -/
  l1Serve : List Bool := []
  /-- Whether the stores to come of cores with stores outstanding find the store buffer full, for whose size the manual gives no
  number (R179); no once the list is used up (log entry 73). -/
  storeFull : List Bool := []
  /-- The addresses the management core gives the context blocks to come (R273), a free value once the list is used up (log entry 27). -/
  blocks : List Nat := []
  /-- The views that dies of other packages present to a stand's or the system's sequencer before the tickets to come (R247, log
  entry 15). -/
  seqViews : List View := []
  /-- Free values drawn so far (the model's own field). -/
  freeCtr : Nat := 0
deriving DecidableEq, Repr

/-- Where the machine stops for good. -/
inductive Fault where
  /-- Raised by step alone: the package is frozen and only the test port or a reset can act (R384). Safe: the
  manual says that nothing issues, transfers or counts. -/
  | frozen
deriving DecidableEq, Repr

/-- Steps the model gives no meaning. -/
inductive Refusal where
  /-- Raised by the dispatch arm of a step that is not modelled. Safe: no next state is given. -/
  | notModelled (mnemonic : String)
deriving DecidableEq, Repr

/-- The package right after reset (R385): memory zero and unpoisoned (nothing listed reads as other than 0), own
memory announced (the bring-up entries of R317 stand unless a die's `dropped` lists them), ports dark, semaphore
free, no context, region, queue, group or thread. -/
def State.reset : State := {}

end Sys2Proof.Machine
end

