-- ==== Sys2Proof/Machine/Mem.lean ====
section
/-! DEFINITION. Mem: the memory's list of cells in its canonical form, bytes and little-endian words (R2), and poisoned
words (R192). -/

namespace Sys2Proof.Machine

open Sys2Proof

/-- What a byte reads as. An unlisted address reads 0, as bring-up leaves it (R385 step 3). -/
def Memory.read : List Host.Cell → Nat → Byte
  | [], _ => 0
  | (x, b) :: m, a => if x = a then b else Memory.read m a

/-- The memory with one byte written, in canonical form. -/
def Memory.write : List Host.Cell → Nat → Byte → List Host.Cell
  | [], a, b => if b = 0 then [] else [(a, b)]
  | (x, c) :: m, a, b =>
    if a < x then (if b = 0 then (x, c) :: m else (a, b) :: (x, c) :: m)
    else if a = x then (if b = 0 then m else (a, b) :: m)
    else (x, c) :: Memory.write m a b

/-- Canonical form: addresses strictly rising, no byte that an unlisted address reads as. -/
def Memory.wf : List Host.Cell → Bool
  | [] => true
  | (x, b) :: m => (b != 0) && (m.all fun e => decide (x < e.1)) && Memory.wf m

/-- Several bytes written, in order. -/
def Memory.writeAll (m : List Host.Cell) (cs : List Host.Cell) : List Host.Cell :=
  cs.foldl (fun m c => Memory.write m c.1 c.2) m

/-- `n` bytes from `a`. -/
def Memory.bytes (m : List Host.Cell) (a n : Nat) : List Byte := (List.range n).map fun i => Memory.read m (a + i)

/-- The number little-endian bytes hold (R2). -/
def leNat : List Byte → Nat
  | [] => 0
  | b :: bs => b.toNat + 256 * leNat bs

/-- The low `n` bytes of a number, low first (R2). -/
def leBytes : Nat → Nat → List Byte
  | 0, _ => []
  | n + 1, v => BitVec.ofNat 8 v :: leBytes n (v / 256)

/-- Bytes placed from an address on. -/
def cellsAt (a : Nat) (bs : List Byte) : List Host.Cell := bs.zipIdx.map fun p => (a + p.2, p.1)

/-- A rising list of numbers with one added. -/
def insertNat : List Nat → Nat → List Nat
  | [], a => [a]
  | x :: l, a => if a < x then a :: x :: l else if a = x then x :: l else x :: insertNat l a

/-- The addresses of the aligned words that the bytes at some addresses lie in, without repeats. -/
def wordsOf (as : List Nat) : List Nat := as.foldl (fun l a => insertNat l (a / 4 * 4)) []

/-- The poisoned words after a write of `cs` whose poisoned words are `pois` (R192): a poisoned word is marked; a whole
word of unpoisoned data clears the mark; a part of one leaves it. -/
def poisonAfter (old : List Nat) (cs : List Host.Cell) (pois : List Nat) : List Nat :=
  (wordsOf (cs.map (·.1))).foldl (fun l w =>
    if pois.contains w then insertNat l w
    else if [w, w + 1, w + 2, w + 3].all fun a => cs.any fun c => c.1 == a then l.filter (· != w)
    else l) old

/-- Bits `lo` to `lo + n - 1` of a number. -/
def bits (v lo n : Nat) : Nat := v / 2 ^ lo % 2 ^ n

/-- Bit `k` of a number. -/
def bit (v k : Nat) : Bool := v / 2 ^ k % 2 == 1

/-- A number below 2^n read as two's complement. -/
def signedOf (n v : Nat) : Int := if v % 2 ^ n < 2 ^ (n - 1) then (v % 2 ^ n : Nat) else ((v % 2 ^ n : Nat) : Int) - (2 ^ n : Nat)

/-- An integer as an n-bit number, two's complement. -/
def ofInt (n : Nat) (v : Int) : Nat := (v % (2 ^ n : Nat)).toNat

end Sys2Proof.Machine
end

