-- ==== Sys2Proof/Machine/Flags.lean ====
section
/-! DEFINITION. Flags: the bits of fsr, the floating-point formats, one rounding of an exact value and the flags it
raises, and the flags of integer division (R50-R57, R62). -/

namespace Sys2Proof.Machine

open Sys2Proof

/-! ### fsr (R57) -/

abbrev Fl := BitVec 7
def flNone : Fl := 0
def flInvalid : Fl := 0x01
def flDivZero : Fl := 0x02
def flOverflow : Fl := 0x04
def flUnderflow : Fl := 0x08
def flInexact : Fl := 0x10
def flIdz : Fl := 0x20
def flIov : Fl := 0x40

/-! ### Formats (R50-R52) -/

/-- A format: widths of its exponent and fraction. -/
structure FFmt where
  ew : Nat
  fw : Nat
deriving DecidableEq, Repr

def f16 : FFmt := ⟨5, 10⟩
def bf16 : FFmt := ⟨8, 7⟩
def f32 : FFmt := ⟨8, 23⟩
def f64 : FFmt := ⟨11, 52⟩
def e5m2 : FFmt := ⟨5, 2⟩
def e4m3 : FFmt := ⟨4, 3⟩

def FFmt.bias (f : FFmt) : Int := 2 ^ (f.ew - 1) - 1
def FFmt.width (f : FFmt) : Nat := f.ew + f.fw + 1
/-- Exponent of the least significant bit of a subnormal. -/
def FFmt.emin (f : FFmt) : Int := 1 - FFmt.bias f - f.fw
def FFmt.signBit (f : FFmt) (neg : Bool) : Nat := if neg then 2 ^ (f.ew + f.fw) else 0
def FFmt.infBits (f : FFmt) (neg : Bool) : Nat := FFmt.signBit f neg + (2 ^ f.ew - 1) * 2 ^ f.fw
def FFmt.maxBits (f : FFmt) (neg : Bool) : Nat := FFmt.infBits f neg - 1
/-- The canonical NaN (R52). -/
def FFmt.nan (f : FFmt) : Nat := (2 ^ f.ew - 1) * 2 ^ f.fw + 2 ^ (f.fw - 1)

/-- A floating-point value: a NaN (signalling or not), an infinity, or (-1)^neg × m × 2^e. -/
inductive FVal where
  | nan (sig : Bool)
  | inf (neg : Bool)
  | fin (neg : Bool) (m : Nat) (e : Int)
deriving DecidableEq, Repr

/-- The value of an encoding; under fzi a subnormal reads as a zero of its sign (R56). -/
def FFmt.decode (f : FFmt) (fzi : Bool) (v : Nat) : FVal :=
  let neg := bit v (f.ew + f.fw)
  let x := bits v f.fw f.ew
  let m := bits v 0 f.fw
  if x = 2 ^ f.ew - 1 then (if m = 0 then .inf neg else .nan (!bit m (f.fw - 1)))
  else if x = 0 then .fin neg (if fzi then 0 else m) (FFmt.emin f)
  else .fin neg (2 ^ f.fw + m) (x - 1 + FFmt.emin f)

/-- An E4M3 byte (R51): no infinity, one NaN per sign. -/
def decodeE4m3 (v : Nat) : FVal :=
  let neg := bit v 7
  let x := bits v 3 4
  let m := bits v 0 3
  if x = 15 ∧ m = 7 then .nan false
  else if x = 0 then .fin neg m (-9)
  else .fin neg (8 + m) (x - 10)

/-! ### One rounding (R54-R56) -/

/-- The rounding modes of R41's prefix rm. -/
def roundsUp (rm : BitVec 2) (neg odd : Bool) (half : Ordering) (exact : Bool) : Bool :=
  match rm.toNat with
  | 0 => half == .gt || (half == .eq && odd)
  | 1 => false
  | 2 => neg && !exact
  | _ => !neg && !exact

/-- (m + sticky) × 2^e as a multiple of 2^q, for q > e or no sticky; and whether it was exact. -/
def roundAt (rm : BitVec 2) (neg : Bool) (m : Nat) (e : Int) (sticky : Bool) (q : Int) : Nat × Bool :=
  if q ≤ e then (m * 2 ^ (e - q).toNat, !sticky)
  else
    let k := (q - e).toNat
    let hi := m / 2 ^ k
    let lo := m % 2 ^ k
    let exact := lo == 0 && !sticky
    let half := if 2 * lo > 2 ^ k then Ordering.gt else if 2 * lo = 2 ^ k then (if sticky then .gt else .eq) else .lt
    (if roundsUp rm neg (hi % 2 == 1) half exact then hi + 1 else hi, exact)

def bitLen (m : Nat) : Nat := if m = 0 then 0 else Nat.log2 m + 1

/-- A nonzero exact value rounded to precision `fw + 1` and least exponent `emin`: magnitude, its exponent, whether
exact, and whether tiny after rounding (R55). `m` has at least two bits beyond the precision where `sticky` is set. -/
def roundMag (fw : Nat) (emin : Int) (rm : BitVec 2) (neg : Bool) (m : Nat) (e : Int) (sticky : Bool) : Nat × Int × Bool × Bool :=
  let q0 := e + bitLen m - (fw + 1 : Nat)
  let q := if q0 < emin then emin else q0
  let (h, exact) := roundAt rm neg m e sticky q
  let (h0, _) := roundAt rm neg m e sticky q0
  let tiny := if q0 < emin then decide (h0 < 2 ^ fw * 2 ^ (emin - q0).toNat) else false
  (h, q, exact, tiny)

/-- The exact value (m + sticky) × 2^e delivered in a format (R54-R56), and its flags. -/
def FFmt.round (f : FFmt) (rm : BitVec 2) (fzo neg : Bool) (m : Nat) (e : Int) (sticky : Bool) : Nat × Fl :=
  if m = 0 ∧ sticky = false then (FFmt.signBit f neg, 0)
  else
    let (h, q, exact, tiny) := roundMag f.fw (FFmt.emin f) rm neg m e sticky
    let (h, q) := if h = 2 ^ (f.fw + 1) then (2 ^ f.fw, q + 1) else (h, q)
    let inx : Fl := if exact then 0 else flInexact
    let unf : Fl := if tiny && !exact then flUnderflow else 0
    if h < 2 ^ f.fw then
      if fzo && h != 0 then (FFmt.signBit f neg, flUnderflow ||| flInexact)
      else (FFmt.signBit f neg + h, inx ||| unf)
    else
      let x := q - FFmt.emin f + 1
      if x ≥ (2 ^ f.ew - 1 : Nat) then
        let toMax := rm = 1 || (rm = 2 && !neg) || (rm = 3 && neg)
        (if toMax then FFmt.maxBits f neg else FFmt.infBits f neg, flOverflow ||| flInexact)
      else (FFmt.signBit f neg + x.toNat * 2 ^ f.fw + (h - 2 ^ f.fw), inx ||| unf)

/-! ### Integer division (R62, R115) -/

/-- The exceptional cases: quotient, remainder and fsr bit. -/
def divCase (sgn : Bool) (a b : Word) : Option (Word × Word × Fl) :=
  if b = 0 then some (0xFFFFFFFF, a, flIdz)
  else if sgn && a == 0x80000000 && b == 0xFFFFFFFF then some (0x80000000, 0, flIov)
  else none

end Sys2Proof.Machine
end

