-- ==== Sys2Proof/Config.lean ====
section
/-! DEFINITION. Config: what an implementation fixes and the values the manual leaves open. Each is an opaque
constant, so no proof can rest on its value. -/

namespace Sys2Proof.Config

/-- The n-th value the manual leaves open (State.freeCtr counts them; log entry 2). -/
opaque freeValue : Nat → BitVec 64

/-- The special functions of R127 where the manual gives a bound and no exact result: function code, source bits
(log entry 9). -/
opaque approx : Nat → BitVec 32 → BitVec 32

/-- A closure handle whose home die is another package: whether its slot is live, as that package holds it (log entry 24). -/
opaque remoteLive : Nat → BitVec 64 → Bool

/-- The environment another package returns for a live closure handle: entry address and words (log entry 24). -/
opaque remoteEnv : Nat → BitVec 64 → BitVec 64 × List (BitVec 32 × Bool)

/-- A closure in another package has the count 65,535, which no `cpin` raises (log entry 24). -/
opaque remoteFull : Nat → BitVec 64 → Bool

/-- The frame that a live frame reference of another package names: base and size (log entry 24). -/
opaque remoteFrame : Nat → BitVec 64 → BitVec 64 × BitVec 32

/-- A die number outside the stand names a host attachment (R239; log entry 74). -/
opaque hostAt : Nat → Bool

/-- The Umaholt public key beside the flash slots: the coordinates of a point (R387, R389). -/
opaque umaholtKey : Nat × Nat

/-- The image of the manufacturer in the flash slot that is active at first: the SHA-384 of its signed bytes, and its security
version (R387, R388). -/
opaque factoryDigest : Nat
opaque factoryVersion : Nat

/-- The device key's signature over a digest: r and s (R388). -/
opaque deviceSign : Nat → Nat × Nat

/-- The bytes 0-159 of the device certificate and its r and s (R390). -/
opaque certificate : List (BitVec 8)

/-- The SHA-384 of the boot ROM (R388). -/
opaque bootRomDigest : Nat

end Sys2Proof.Config
end

