-- ==== Sys2Proof/Machine/Parts.lean ====
section
/-! DEFINITION. Parts: the package's parts by name, causal views, the route tables, packets, fault records, group
faults and the start of a purge. -/

namespace Sys2Proof.Machine

open Sys2Proof

/-! ### Parts -/

/-- A thread. -/
def State.thr (s : State) (t : ThreadId) : Thread := AMap.getD s.threads t {}
def State.setThr (s : State) (t : ThreadId) (th : Thread) : State := { s with threads := AMap.set s.threads t th }
/-- The thread of the lane issuing. -/
def State.me (s : State) : Thread := s.thr s.cur
def State.setMe (s : State) (th : Thread) : State := s.setThr s.cur th
/-- A group's number within its launch (R286 step 4). -/
def gnoOf (n : BitVec 64) : Nat := n.toNat % 2 ^ 32
/-- The slot a thread's group occupies. -/
def gidOf (t : ThreadId) : GroupId := ⟨t.die, t.core, t.slot⟩
def coreOf (t : ThreadId) : CoreId := ⟨t.die, t.core⟩
def State.grp (s : State) (g : GroupId) : Group := AMap.getD s.groups g {}
def State.setGrp (s : State) (g : GroupId) (x : Group) : State := { s with groups := AMap.set s.groups g x }
def State.myGrp (s : State) : Group := s.grp (gidOf s.cur)
def State.core (s : State) (c : CoreId) : Core := AMap.getD s.cores c {}
def State.setCore (s : State) (c : CoreId) (x : Core) : State := { s with cores := AMap.set s.cores c x }
def State.die (s : State) (d : Nat) : Die := AMap.getD s.dies d {}
def State.setDie (s : State) (d : Nat) (x : Die) : State := { s with dies := AMap.set s.dies d x }
def State.part (s : State) (p : PartId) : Part := AMap.getD s.parts p {}
def State.setPart (s : State) (p : PartId) (x : Part) : State := { s with parts := AMap.set s.parts p x }
def State.cluster (s : State) (d c : Nat) : Cluster := AMap.getD s.clusters (d, c) {}
def State.setCluster (s : State) (d c : Nat) (x : Cluster) : State := { s with clusters := AMap.set s.clusters (d, c) x }
def State.port (s : State) (q : Nat) : Port := AMap.getD s.ports q {}
def State.setPort (s : State) (q : Nat) (x : Port) : State := { s with ports := AMap.set s.ports q x }

/-- A die's number (R8). -/
def State.dieNo (s : State) (d : Nat) : Nat := s.pkg * 4 + d
/-- The die index of this package that a die number names, if it is one. -/
def State.local? (s : State) (n : Nat) : Option Nat := if n / 4 = s.pkg then some (n % 4) else none
/-- The cycle count of a die (R104). -/
def State.now (s : State) (d : Nat) : Nat := (s.die d).cycle.toNat
/-- cno (R8): core number | die number << 8. -/
def State.cno (s : State) (c : CoreId) : Nat := c.core + 256 * s.dieNo c.die
/-- The lowest-numbered die of the stand (R247, R381). -/
def State.firstDie (s : State) : Nat := 4 * s.flash.pkgs.foldl Nat.min (s.flash.pkgs.headD 0)
/-- A die of the stand (R381). -/
def State.inStand (s : State) (n : Nat) : Bool :=
  s.flash.pkgs.contains (n / 4) && !(s.ports.any fun e => e.2.peerStand.any fun m => m.1 / 4 == n / 4 && m.2 != s.flash.stand)

/-- A home that is a host attachment (R192, R239): a master's, or another outside the stand that the part knows as one. -/
def State.hostHome (s : State) (n : Nat) : Bool :=
  !s.inStand n && (n == (s.port s.flash.master0).peer || n == (s.port s.flash.master1).peer || Config.hostAt n)

/-- The sheaf a thread belongs to, and its lane (R130, R281). -/
def sheafOf (g : Group) (t : Nat) : Nat := if g.shadow = 1 then t / 16 else t / 32
def laneOf (g : Group) (t : Nat) : Nat := if g.shadow = 1 then t % 16 else t % 32
/-- The partition a thread resides on (R9). -/
def State.partOf (s : State) (t : ThreadId) : PartId := ⟨t.die, t.core, sheafOf (s.grp (gidOf t)) t.t % 4⟩
/-- A lane is live until its thread is exited (R130). -/
def liveThr (th : Thread) : Bool := !(th.status == .exited || th.status == .draining)

/-- A free value (log entry 2), and the state that has drawn it. -/
def State.fresh (s : State) : BitVec 64 × State := (Config.freeValue s.freeCtr, { s with freeCtr := s.freeCtr + 1 })

/-- A thread whose wait ends in cycle `c`: it is ready from then on, or from the end of its stall (R38, R81, R83). -/
def Thread.wakeAt (th : Thread) (c : Nat) : Thread :=
  { th with status := .ready, notBefore := Nat.max th.notBefore c, since := Nat.max th.notBefore c }

/-- A wait that its own event ends; every other wait ends when the instruction, looked at again, would no longer wait (R81). -/
def Wait.byEvent : Wait → Bool
  | .drain _ => true
  | .push _ => true
  | .resp _ => true
  | .port => true
  | .dev => true
  | .twin => true
  | _ => false

/-! ### A core's room (R10) -/

/-- Groups bound on a core. -/
def State.onCore (s : State) (c : CoreId) : List (GroupId × Group) :=
  s.groups.filter fun e => decide (e.1.die = c.die) && decide (e.1.core = c.core) && e.2.st != .retired

/-- A sheaf of a group holds a live thread. -/
def State.sheafLive (s : State) (g : GroupId) (x : Group) (k : Nat) : Bool :=
  s.threads.any fun e => decide (gidOf e.1 = g) && sheafOf x e.1.t == k && liveThr e.2

/-- Bytes of a pending sheaf's image, and of one thread's share of it (R10, R361). -/
def imageBytes (count : Nat) : Nat := 32 * (4 * count + 512) + 128
def retryBytes (count : Nat) : Nat := 4 * count + 512

/-- Sheaves of a core in its pending set: group and number. -/
def State.pendingOn (s : State) (c : CoreId) : List (GroupId × Group × Nat) :=
  (s.onCore c).flatMap fun e => (e.2.sheaves.filter fun h => !h.2.active && s.sheafLive e.1 e.2 h.1).map fun h => (e.1, e.2, h.1)

/-- Active sheaves of a partition. -/
def State.activeOn (s : State) (p : PartId) : List (GroupId × Group × Nat) :=
  (s.onCore ⟨p.die, p.core⟩).flatMap fun e =>
    (e.2.sheaves.filter fun h => h.1 % 4 == p.part && h.2.active && s.sheafLive e.1 e.2 h.1).map fun h => (e.1, e.2, h.1)

/-- Vault bytes in use on a core: images, allocations, commit buffers, retry points. The manual gives an image, a commit buffer or
a retry point no place and no layout in the vault; the model counts its bytes and keeps its contents as they are (DESIGN CHOICE,
log entry 71). -/
def State.vaultUsed (s : State) (c : CoreId) : Nat :=
  ((s.pendingOn c).map fun e => imageBytes e.2.1.count).sum +
    ((s.onCore c).map fun e => e.2.vaultBytes + if e.2.shadow = 2 then 131072 else 0).sum +
    ((s.core c).retry.map fun r => retryBytes (s.grp (gidOf r.t)).count).sum

/-- A partition's active set has room for a sheaf of a group with `count` registers (R10). -/
def State.activeRoom (s : State) (p : PartId) (count : Nat) : Bool :=
  let a := s.activeOn p
  decide (a.length < 8) && decide ((a.map fun e => 32 * e.2.1.count).sum + 32 * count ≤ 32768)

/-! ### Causal views (R242) -/

def View.get (v : View) (o x : Nat) : Nat := AMap.getD v (o, x) 0
def View.raise (v : View) (o x n : Nat) : View := if View.get v o x < n then AMap.set v (o, x) n else v
/-- The element-wise maximum. -/
def View.max (v w : View) : View := w.foldl (fun u e => View.raise u e.1.1 e.1.2 e.2) v
/-- The column of a home. -/
def View.col (v : View) (x : Nat) : View := v.filter fun e => e.1.2 == x
/-- Every count of `v`'s column for `x` stands in `w` (the holds of R242). -/
def View.covered (v w : View) (x : Nat) : Bool := (View.col v x).all fun e => decide (e.2 ≤ View.get w e.1.1 x)

def State.view (s : State) (c : CoreId) (path : Nat) : View := AMap.getD (s.core c).views path []

/-- The lsu generation of a home advances when a merge raises an entry of its column (R244). -/
def bumpGens (g : AMap Nat (BitVec 16)) (old new : View) : AMap Nat (BitVec 16) :=
  let homes := (new.filter fun e => decide (View.get old e.1.1 e.1.2 < e.2)).map fun e => e.1.2
  homes.dedup.foldl (fun g x => AMap.set g x (AMap.getD g x 0 + 1)) g

/-- A response's counts are merged into a path's view (R242, R244). -/
def State.merge (s : State) (c : CoreId) (path : Nat) (w : View) : State :=
  let k := s.core c
  let v := s.view c path
  let v' := View.max v w
  s.setCore c { k with views := AMap.set k.views path v'
                       gens := if path = 0 then bumpGens k.gens v v' else k.gens }

/-- The stamp of a write of a path of a core to home die number `x` (R242): its count and the view it carries. -/
def State.stamp (s : State) (c : CoreId) (path x : Nat) : State × Nat × View :=
  let d := s.die c.die
  let n := AMap.getD d.issued x 0 + 1
  let s := s.setDie c.die { d with issued := AMap.set d.issued x n }
  let v := s.view c path
  let k := s.core c
  (s.setCore c { k with views := AMap.set k.views path (View.raise v (s.dieNo c.die) x n) }, n, v)

/-! ### Fabric addresses and routes (R317, R322, R324) -/

def dramBase (n : Nat) : Nat := n * 2 ^ 48
def vaultBase (n v : Nat) : Nat := n * 2 ^ 48 + 0xF00000000000 + v * 2 ^ 22

/-- A fabric address lies in some die's vaults, as R317 lays them out. -/
def inVaults (fa : Nat) : Bool := decide (0xF00000000000 ≤ fa % 2 ^ 48) && decide (fa % 2 ^ 48 < 0xF00000000000 + 2 ^ 28)
/-- A fabric address lies in some die's own memory (R317). -/
def ownMem (fa : Nat) : Bool := decide (fa % 2 ^ 48 < 0x1800000000) || inVaults fa

/-- The prefix that die number `n` announces at bring-up for an address of its own: base, length, class (R317, R377). -/
def bringUp (n fa : Nat) : Option (Nat × Nat × Nat) :=
  let o := fa % 2 ^ 48
  if fa / 2 ^ 48 ≠ n then none
  else if o < 2 ^ 36 then some (n * 2 ^ 48, 28, 0)
  else if o < 0x1800000000 then some (n * 2 ^ 48 + 2 ^ 36, 29, 0)
  else if inVaults fa then some (fa / 2 ^ 22 * 2 ^ 22, 42, 0)
  else if o / 64 = 0xFE0000000400 / 64 then some (fa / 64 * 64, 58, 2)
  else none

/-- The bring-up entry of die index `j` for an address, in die index `i`'s table. -/
def State.bringUpRoute (s : State) (i j fa : Nat) : List Route :=
  match bringUp (s.dieNo j) fa with
  | none => []
  | some (pre, len, cls) =>
    if (s.die i).dropped.contains (pre, len, s.dieNo j) then []
    else [{ pre, len, cls, ready := false, hold := false, ver := 1, origin := s.dieNo j
            cost := if i = j then 0 else 1, next := if i = j then 8 else 4 + j
            path := if i = j then [s.dieNo j] else [s.dieNo j], st := .installed, backing := pre, region := none
            movedFrom := none }]

def prefixOf (len fa : Nat) : Nat := fa / 2 ^ (64 - len) * 2 ^ (64 - len)
def Route.covers (r : Route) (fa : Nat) : Bool := prefixOf r.len fa == r.pre

/-- The entries of a die's table that match an address. -/
def State.matching (s : State) (i fa : Nat) : List Route :=
  [0, 1, 2, 3].flatMap (fun j => s.bringUpRoute i j fa) ++ (s.die i).routes.filter fun r => Route.covers r fa

/-- Usable for a load (R324). -/
def Route.usable (r : Route) : Bool := r.st == .installed && (r.cls != 1 || r.ready)
/-- A target of a store, an atomic, a push or a `qlen` (R324). -/
def Route.home (r : Route) : Bool := r.st == .installed && r.cls != 1

/-- `a` goes before `b` among entries: longer, then lower cost, then no replica, then lower origin (R324). -/
def Route.before (a b : Route) : Bool :=
  let k (r : Route) : List Nat := [60 - r.len, r.cost, if r.cls = 1 then 1 else 0, r.origin]
  decide (k a < k b)

def bestRoute : List Route → Option Route
  | [] => none
  | r :: rs => match bestRoute rs with
    | none => some r
    | some q => if Route.before q r then some q else some r

/-- The holder of a load (R324). -/
def State.loadRoute (s : State) (i fa : Nat) : Option Route := bestRoute ((s.matching i fa).filter Route.usable)
/-- The home of a store, an atomic, a push or a `qlen` (R324). -/
def State.homeRoute (s : State) (i fa : Nat) : Option Route := bestRoute ((s.matching i fa).filter Route.home)

/-- Where a holder of this package keeps an address of a prefix (R335). -/
def Route.physical (r : Route) (fa : Nat) : Nat := r.backing + fa % 2 ^ (64 - r.len)

/-- Die `i`'s own entry of the prefix length a request was sent for. -/
def State.ownRoute (s : State) (i fa len : Nat) : Option Route :=
  (s.matching i fa).find? fun r => r.len == len && r.origin == s.dieNo i

/-- Where this package keeps an address that a route leads to, if one of its dies is the holder (R322, R335). -/
def State.placeOf (s : State) (r : Route) (fa : Nat) : Option Nat :=
  ((s.local? r.origin).bind fun j => s.ownRoute j fa r.len).map fun q => Route.physical q fa

/-- In the quiet power state the DRAM is in self-refresh, and accesses to it wait (R391). -/
def State.dramWaits (s : State) (a : Nat) : Bool := s.power == 2 && ownMem a && !inVaults a

/-! ### The status block of a port (R352) -/

def pstateCode : PState → Nat
  | .dark => 0
  | .training => 1
  | .active => 2
  | .parked => 3
  | .waking => 4
  | .reconfiguring => 5
  | .failed => 6

def maskOf (l : List LState) (f : LState) : Nat := (l.zipIdx).foldl (fun m x => if x.1 = f then m + 2 ^ x.2 else m) 0

/-- The 64 bytes of a port's status block. -/
def Port.status (x : Port) : List Byte :=
  leBytes 1 (pstateCode x.st + 16 * x.width) ++ leBytes 1 (maskOf x.lanes .carrying) ++ leBytes 1 (maskOf x.lanes .parked) ++
    leBytes 1 (maskOf x.lanes .failed) ++ leBytes 4 x.depthWord ++ leBytes 4 x.depthFlag ++ leBytes 4 x.thresh ++
    leBytes 2 x.ver ++ leBytes 2 x.peer ++ leBytes 2 x.slot ++ leBytes 2 x.epoch ++ leBytes 8 x.corrected ++
    leBytes 4 x.poisonedFrames ++ leBytes 4 x.dropped ++ leBytes 4 x.dropAnn ++ leBytes 4 x.ignored ++ leBytes 4 x.relocks ++
    leBytes 4 0 ++ leBytes 8 x.changedAt

/-- The window of the four status blocks of a die (R352). -/
def inStatus (fa : Nat) : Bool := decide (0xFE0000000000 ≤ fa % 2 ^ 48) && decide (fa % 2 ^ 48 < 0xFE0000000100)

/-- A byte of a status block of this package. -/
def State.statusByte (s : State) (fa : Nat) : Byte :=
  match s.local? (fa / 2 ^ 48) with
  | some j => ((s.port (4 * j + bits fa 6 2)).status).getD (fa % 64) 0
  | none => 0

/-- A byte and its poison. -/
def State.byteAt (s : State) (a : Nat) : Byte × Bool :=
  if inStatus a then (s.statusByte a, false) else (Memory.read s.mem a, s.poison.contains (a / 4 * 4))
def State.bytesAt (s : State) (a n : Nat) : List (Byte × Bool) := (List.range n).map fun i => s.byteAt (a + i)

/-- The counts of writes applied at a holder for an address: a home's own, or those its stream has carried (R242, R328). -/
def State.appliedAt (s : State) (i : Nat) (r : Route) : View :=
  if r.cls = 1 then (AMap.getD (s.die i).replicas (r.pre, r.len) {}).counts else (s.die i).applied

/-! ### Queues (R289, R377) -/

/-- The call queue of a die stands in the table under this key; it is announced at bring-up and not created by a call. -/
def callKey (d : Nat) : Nat := 1048576 + d
def callAddr (dieNo : Nat) : Nat := dramBase dieNo + 0xFE0000000400

def State.queue? (s : State) (k : Nat) : Option Queue :=
  match AMap.find s.queues k with
  | some y => some y
  | none => if 1048576 ≤ k ∧ k < 1048580 then
      some { die := k - 1048576, push := callAddr (s.dieNo (k - 1048576)), cap := 64, region := 0, quantum := 1, storage := 0, call := true }
    else none
/-- The queue whose push address a die is home of. -/
def State.queueAt (s : State) (d fa : Nat) : Option (Nat × Queue) :=
  match s.queues.find? fun e => e.2.die == d && e.2.push == fa && !e.2.call with
  | some e => some e
  | none => if fa = callAddr (s.dieNo d) then (s.queue? (callKey d)).map fun y => (callKey d, y) else none

/-! ### Packets -/

def State.send (s : State) (p : Pkt) : State := { s with net := AMap.set s.net s.nextId p, nextId := s.nextId + 1 }

def State.addAcc (s : State) (a : Acc) : State × Nat :=
  ({ s with accs := AMap.set s.accs s.nextId a, nextId := s.nextId + 1 }, s.nextId)

/-- What memory an address is, for `drain` (R217): 0 vault, 1 DRAM of this package, 2 remote. -/
def State.memCode (s : State) (r : Route) (fa : Nat) : Nat :=
  if (s.local? r.origin).isNone then 2
  else if (s.placeOf r fa).any inVaults then 0 else 1

/-! ### Accesses leave their core (R175, R176, R242) -/

/-- A load brings the whole line for the L1 (R178). -/
def Acc.fill (a : Acc) : Bool := a.kind == .load && a.cache && decide (a.hint ≤ 1)

/-- The bytes an access reads. -/
def Acc.want (a : Acc) : List Nat :=
  match a.kind with
  | .qlen => [a.fa]
  | _ => if a.kind.writes then [] else if a.fill then (List.range 128).map (a.fa / 128 * 128 + ·) else (List.range a.len).map (a.fa + ·)

/-- The data of stores that follow one another: a later store's bytes replace an earlier one's (R176), and its poison (R192). -/
def mergeStores (l : List Acc) : List Host.Cell × List Nat :=
  l.foldl (fun r a => (r.1.filter (fun c => !(a.cells.any fun d => d.1 == c.1)) ++ a.cells, poisonAfter r.2 a.cells a.pois)) ([], [])

/-- The lane of an access. -/
def Acc.lane (a : Acc) (id : Nat) : Lane :=
  { acc := id, v := (a.aop.map (·.v)).getD 0, n := (a.aop.map (·.n)).getD 0, off := a.fa % 128 }

/-- The accesses name one location, and their operation may be merged (R194). -/
def oneOperand (a : Acc) (l : List Acc) : Bool := a.aop.any AOp.merges && l.all fun b => b.fa == a.fa

/-- The request of accesses that leave together, in ascending tid order (R176). Lanes of different tags travel under tag 0 with the
mixed bit, as a pair of different tags does (R198; log entry 6). A read names in `origin` the home whose column its stamp is. -/
def State.packetOf (s : State) (l : List (Nat × Acc)) : Pkt :=
  match l with
  | [] => {}
  | (id, a) :: _ =>
    let as := l.map (·.2)
    let w := mergeStores as
    let data := a.kind.writes && a.kind != .atomic
    let same := as.all fun b => b.tag == a.tag
    { kind := a.kind.packet, at_ := a.core.die, dst := a.home, src := s.dieNo a.core.die, plen := a.plen, fa := a.fa
      tag := if same then a.tag else 0, mixed := !same, acc := id, want := (as.flatMap Acc.want).dedup
      cells := if data then w.1 else [], pois := if data then w.2 else [], count := a.count, stamped := a.stamped, view := a.view
      origin := if a.kind.writes then s.dieNo a.core.die else (match s.homeRoute a.core.die a.fa with
        | some h => h.origin
        | none => a.home)
      aop := a.aop, comb := oneOperand a as, sub := a.kind == .store && decide (a.len < 4), lanes := l.map fun e => e.2.lane e.1
      push := a.kind == .push || a.kind == .qlen, val := a.hint, came := s.now a.core.die, inp := a.core.core }

/-- The accesses of some numbers. -/
def State.accsOf (s : State) (ids : List Nat) : List (Nat × Acc) := ids.filterMap fun id => (AMap.find s.accs id).map fun a => (id, a)

def State.setAccs (s : State) (l : List (Nat × Acc)) : State := { s with accs := l.foldl (fun m e => AMap.set m e.1 e.2) s.accs }

/-- Accesses leave in one packet: a write takes one stamp where its home lies in the stand, a read carries its view's column for the
home of its location, or no stamp (R242). `retry`: towards the holder a redirect named (R329). -/
def State.sendVec (s : State) (ids : List Nat) (retry : Bool := false) : State :=
  match s.accsOf ids with
  | [] => s
  | (id, a) :: l =>
    let st := s.inStand a.home && decide (a.path ≤ 5)
    let home := match s.homeRoute a.core.die a.fa with
      | some h => h.origin
      | none => a.home
    let r : State × Nat × View := if !st then (s, 0, []) else if a.kind.writes then s.stamp a.core a.path a.home
      else (s, 0, View.col (s.view a.core a.path) home)
    let l := ((id, a) :: l).map fun e => (e.1, { e.2 with count := r.2.1, stamped := st, view := r.2.2, lead := id, resend := none })
    let s := r.1.setAccs l
    s.send { s.packetOf l with retry }

/-- An access of a core is made, towards a holder. -/
def State.newAcc (s : State) (a : Acc) (r : Route) : State × Nat :=
  s.addAcc { a with home := r.origin, plen := r.len, born := s.now a.core.die, touches := s.memCode r a.fa }

/-- A lane's access of the glean in progress: its packet leaves with the glean's others (R175 stage 4, R176). -/
def State.form (s : State) (a : Acc) (r : Route) : State × Nat :=
  let r := s.newAcc a r
  ({ r.1 with stage := r.1.stage ++ [r.2] }, r.2)

/-- An access that leaves by itself. -/
def State.sendAcc (s : State) (a : Acc) (r : Route) : State × Nat :=
  let r := s.newAcc a r
  (r.1.sendVec [r.2], r.2)

/-! ### Fault records, group faults and purges (R87, R279, R305, R306, R364) -/

def State.region (s : State) (r : Nat) : Option Region := AMap.find s.regions r

/-- The top region of a region's fault domain (R305). -/
def State.domainTop (s : State) : Nat → Nat → Nat
  | 0, r => r
  | k + 1, r => match s.region r with
    | none => r
    | some x => if x.boundary || x.parent = 0 then r else s.domainTop k x.parent

/-- The effective value of a field that an override bit replaces (R301): nearest ancestor-or-self that owns it. -/
def State.effTag (s : State) : Nat → Nat → Nat × Nat
  | 0, _ => (0, 0)
  | k + 1, r => match s.region r with
    | none => (0, 0)
    | some x => if x.parent = 0 || x.ovr.getLsbD 2 then (x.tagLo, x.tagHi) else s.effTag k x.parent

/-- Effective fail domain, system privilege, shadow policy, priority and retry of a region (R301, R361). -/
def State.effFail (s : State) : Nat → Nat → Bool
  | 0, _ => false
  | k + 1, r => match s.region r with
    | none => false
    | some x => if x.parent = 0 || x.ovr.getLsbD 5 then x.fail else s.effFail k x.parent
def State.effSys (s : State) : Nat → Nat → Bool
  | 0, _ => false
  | k + 1, r => match s.region r with
    | none => false
    | some x => if x.parent = 0 then x.sys else if x.ovr.getLsbD 4 then x.sys && s.effSys k x.parent else s.effSys k x.parent
def State.effShadow (s : State) : Nat → Nat → Nat
  | 0, _ => 0
  | k + 1, r => match s.region r with
    | none => 0
    | some x => if x.parent = 0 then x.shadow else if x.ovr.getLsbD 3 then Nat.max x.shadow (s.effShadow k x.parent) else s.effShadow k x.parent
def State.effPrio (s : State) : Nat → Nat → Nat
  | 0, _ => 0
  | k + 1, r => match s.region r with
    | none => 0
    | some x => if x.parent = 0 then x.prio else if x.ovr.getLsbD 0 then Nat.min x.prio (s.effPrio k x.parent) else s.effPrio k x.parent
def State.effRetry (s : State) : Nat → Nat → Bool
  | 0, _ => false
  | k + 1, r => match s.region r with
    | none => false
    | some x => if x.parent = 0 then x.retryOn else if x.retryOver then x.retryOn || s.effRetry k x.parent else s.effRetry k x.parent

/-- Longest chain of regions (R300: region numbers are 16 bits). -/
def treeDepth : Nat := 65536

/-- `r` lies in the subtree under `top`. -/
def State.below (s : State) : Nat → Nat → Nat → Bool
  | 0, _, _ => false
  | k + 1, top, r => r == top || (match s.region r with
    | none => false
    | some x => x.parent != 0 && s.below k top x.parent)

/-- A write that the management core of a die makes by fabric address; it carries no stamp. -/
def State.partWrite (s : State) (d fa : Nat) (bs : List Byte) : State × Nat :=
  match s.homeRoute d fa with
  | none => (s, 0)
  | some r => s.sendAcc { owner := .part, core := ⟨d, 0⟩, path := 6, kind := .store, fa, len := bs.length, cells := cellsAt fa bs } r

/-- What the home maintains in a queue's control block: pushes accepted and refused, and entries held (R289). A block that another
holder than the package's own memory keeps is written there by fabric address. -/
def State.writeBlock (s : State) (y : Queue) : State :=
  let bs := leBytes 8 y.accepted ++ leBytes 4 y.refused ++ leBytes 4 y.entries.length
  if y.block = 0 then s
  else if (s.local? (y.block / 2 ^ 48)).isNone ∨ !ownMem y.block then (s.partWrite y.die (y.block + 32) bs).1
  else
    let cells := cellsAt (y.block + 32) bs
    { s with mem := Memory.writeAll s.mem cells, poison := poisonAfter s.poison cells [] }
def State.setQueue (s : State) (k : Nat) (y : Queue) : State := State.writeBlock { s with queues := AMap.set s.queues k y } y

/-- Entries of queues are removed where `gone` says; the blocks of the queues that lost one follow. -/
def State.dropEntries (s : State) (gone : Nat → Queue → Entry → Bool) : State :=
  (s.queues.filter fun e => e.2.entries.any (gone e.1 e.2)).foldl
    (fun s e => s.setQueue e.1 { e.2 with entries := e.2.entries.filter fun n => !gone e.1 e.2 n }) s

/-- An atomic addition that the management core of a die makes by fabric address, as a release at system scope. -/
def State.partAdd (s : State) (d fa w n : Nat) : State :=
  match s.homeRoute d fa with
  | none => s
  | some r =>
    let aop : AOp := { op := 0, w, ord := 2, scope := 7, v := n, n := 0, incs := 1 }
    (s.sendAcc { owner := .part, core := ⟨d, 0⟩, path := 6, kind := .atomic, fa, len := w, aop := some aop } r).1

/-- An entry of a fault record (R305). -/
structure Record where
  kind : Nat
  cause : Nat := 0
  tag : Nat := 0
  region : Nat := 0
  group : Nat := 0
  cno : Nat := 0
  trapval : Nat := 0
  launch : Nat := 0
deriving DecidableEq, Repr

/-- Writes an entry of the fault record of the domain with a top region, or raises its lost count (R305). -/
def State.recordIn (s : State) (d top : Nat) (e : Record) : State :=
  match s.region top with
  | none => s
  | some x =>
    if x.written < 63 then
      let bs := leBytes 1 e.kind ++ leBytes 1 e.cause ++ leBytes 2 e.tag ++ leBytes 4 e.region ++ leBytes 8 e.group ++
        leBytes 4 e.cno ++ leBytes 8 e.trapval ++ leBytes 8 e.launch ++ leBytes 8 (s.now d) ++ leBytes 20 0
      let (s, _) := s.partWrite d (x.frec + 64 + 64 * (x.written % 63)) bs
      let (s, _) := s.partWrite d x.frec (leBytes 8 (x.written + 1))
      { s with regions := AMap.set s.regions top { x with written := x.written + 1 } }
    else
      let (s, _) := s.partWrite d (x.frec + 8) (leBytes 8 (x.lost + 1))
      { s with regions := AMap.set s.regions top { x with lost := x.lost + 1 } }

/-- An entry for the domain of the region it names (R305). -/
def State.record (s : State) (d : Nat) (e : Record) : State := s.recordIn d (s.domainTop treeDepth e.region) e

/-- Every thread of a copy of a group stops before its next issue and the copy enters the ending state (R279); a push its queue has not
accepted is over (R291). -/
def State.endCopy (s : State) (g : GroupId) : State :=
  let x := s.grp g
  let s := s.setGrp g { x with st := .ending, faulted := true, leaving := none }
  { s with threads := s.threads.map fun e =>
      if gidOf e.1 = g && liveThr e.2 then (e.1, { e.2 with status := .stopped }) else e
           glean := s.glean.filter (fun t => gidOf t != g)
           accs := s.accs.filter fun e => !(e.2.gnum == x.num && e.2.kind == .push && e.2.acked) }

/-- A group ends by a fault (R279); a block pair's copies together (R281). -/
def State.endGroup (s : State) (g : GroupId) : State :=
  match (s.grp g).twin with
  | some h => (s.endCopy g).endCopy h
  | none => s.endCopy g

/-- A launch record's address, for a fault-record entry (R305). -/
def State.launchAddr (s : State) (l : Option Nat) : Nat :=
  match l with
  | none => 0
  | some l => match AMap.find s.launches l with
    | none => 0
    | some x => x.entry

/-- An invalid record's entry (R285, R286, R305). -/
def State.invalidEntry (s : State) (l : Nat) (x : Launch) (region : Nat) : State :=
  s.record x.die { kind := 2, cause := 0x1C, tag := bits (x.words.getD 1 0).toNat 16 16, region, launch := s.launchAddr (some l) }

/-- The entry of a group, for a cause and a value. -/
def State.groupRecord (s : State) (g : GroupId) (kind cause : Nat) (tag : BitVec 16) (val : BitVec 64) : Record :=
  let x := s.grp g
  { kind, cause, tag := tag.toNat, region := x.region, group := gnoOf x.num, cno := s.cno ⟨g.die, g.core⟩
    trapval := val.toNat, launch := s.launchAddr x.launch }

/-- The record an entry of a queue holds: its 64 bytes of the queue's storage (R289); a call queue keeps its own words. -/
def State.heldWords (s : State) (y : Queue) (e : Entry) : List Reg :=
  if y.call then e.words
  else (List.range 16).map fun k =>
    let bs := s.bytesAt (y.storage + 64 * e.slot + 4 * k) 4
    { v := BitVec.ofNat 32 (leNat (bs.map (·.1))), p := bs.any (·.2) }

/-- A queue has a candidate, a launch past steps 1-3 of R286 with groups not yet handed out; a queue without one keeps no positive
deficit (R298). -/
def Launch.unbound (x : Launch) : Bool := x.phase == 4 && decide (x.next < x.count) && !x.dead
def State.hasCand (s : State) (q : Nat) : Bool := s.launches.any fun l => l.2.q == some q && l.2.unbound
def State.clamp (s : State) : State :=
  let f (e : Nat × Queue) : Nat × Queue := if s.hasCand e.1 || e.2.deficit ≤ 0 then e else (e.1, { e.2 with deficit := 0 })
  { s with queues := s.queues.map f }

/-- A record has not begun dispatch: it has not passed steps 1 to 3 of R286 (log entry 39). -/
def State.notBegun (s : State) (e : Entry) : Bool :=
  match e.launch with
  | none => true
  | some l => match AMap.find s.launches l with
    | some x => decide (x.phase < 4)
    | none => false

/-- Records that have not begun dispatch are removed where `hit` says, and what dispatch has read of them is forgotten (R292, R306). -/
def State.removeRecords (s : State) (hit : Queue → Entry → Bool) : State :=
  let gone (y : Queue) (e : Entry) : Bool := !y.call && s.notBegun e && hit y e
  let ids := s.queues.flatMap fun q => (q.2.entries.filter (gone q.2)).filterMap (·.launch)
  let own (o : Owner) : Bool := match o with
    | .launch l => ids.contains l
    | _ => false
  let s := s.dropEntries fun _ y e => gone y e
  let s : State := { s with launches := s.launches.filter (fun l => !ids.contains l.1), accs := s.accs.filter (fun a => !own a.2.owner)
                            syncBuf := s.syncBuf.filter (fun e => !own e.1), syncFail := s.syncFail.filter fun e => !own e.1 }
  { s with cores := s.cores.map fun c => if c.2.fbuf.any fun p => own p.owner then (c.1, { c.2 with fbuf := c.2.fbuf.filter fun p => !own p.owner }) else c }

/-- The fault domain that a region lies in has stopped (R306). -/
def State.halted (s : State) (r : Nat) : Bool :=
  (s.region r).any (·.stopped) || (s.region (s.domainTop treeDepth r)).any (·.stopped)

/-- The fail domain of a region stops: nothing further is bound, resident groups end, records are removed (R306). -/
def State.stopDomain (s : State) (r : Nat) : State :=
  let top := s.domainTop treeDepth r
  let inDom (q : Nat) : Bool := s.domainTop treeDepth q == top
  let s' : State := { s with
    regions := s.regions.map (fun e => if inDom e.1 then (e.1, { e.2 with stopped := true }) else e)
    dies := s.dies.map fun d => (d.1, { d.2 with slots := d.2.slots.map fun b => if b.2.valid && inDom b.2.region then (b.1, { b.2 with valid := false }) else b }) }
  let s' := s'.removeRecords fun y e => inDom (((s.heldWords y e).getD 15 {}).v.toNat)
  (s.groups.filter fun e => inDom e.2.region && e.2.st != .out && e.2.st != .retired).foldl (fun s e => s.endGroup e.1) s'

/-- A group fault (R87, R279, R306). -/
def State.groupFault (s : State) (g : GroupId) (cause : Nat) (tag : BitVec 16) (val : BitVec 64) : State :=
  let s := s.record g.die (s.groupRecord g 0 cause tag val)
  let s := s.endGroup g
  if s.effFail treeDepth (s.grp g).region then s.stopDomain (s.grp g).region else s

/-- A cause recorded against a thread's group as an event (R87). -/
def State.groupEvent (s : State) (t : ThreadId) (cause : Nat) (val : BitVec 64) : State :=
  s.record t.die (s.groupRecord (gidOf t) 1 cause (s.thr t).tag val)

/-- The same for a thread of a group that is swapped out. -/
def State.outEvent (s : State) (o : OutGroup) (t cause : Nat) (val : BitVec 64) : State :=
  s.record o.was.die { kind := 1, cause, tag := (AMap.getD o.thr (t, false) {}).tag.toNat, region := o.g.region, group := gnoOf o.g.num
                       cno := s.cno ⟨o.was.die, o.was.core⟩, trapval := val.toNat, launch := s.launchAddr o.g.launch }

/-- A purge of a tag starts at a die: a purge packet goes to every die of the stand (R364 phase 1). -/
def State.startPurge (s : State) (d : Nat) (tag : BitVec 16) (cause region : Nat) (t : Option (ThreadId × Nat)) : State :=
  let x := s.die d
  let s := s.setDie d { x with purges := x.purges ++ [{ tag, acks := [], cause, region, t, released := false }] }
  (s.flash.pkgs.flatMap fun p => [4 * p, 4 * p + 1, 4 * p + 2, 4 * p + 3]).foldl
    (fun s n => s.send { kind := 13, at_ := d, dst := n, src := s.dieNo d, tag, origin := s.dieNo d, val := tag.toNat, val2 := 0 }) s

/-- A thread consumes poison (R357): it issues nothing further and a purge of its tag starts. -/
def State.consume (s : State) (t : ThreadId) (cause : Nat) : State :=
  let th := s.thr t
  (s.setThr t { th with status := .stopped }).startPurge t.die th.tag cause (s.grp (gidOf t)).region none

end Sys2Proof.Machine
end

