-- ==== Sys2Proof/Machine/Ops.lean ====
section
/-! DEFINITION. Ops: translation, the reads and writes of a thread or a unit, taking an exception and returning from one. -/

namespace Sys2Proof.Machine

open Sys2Proof

/-! ### What an instruction's execution in one lane comes to -/

/-- The ways an instruction ends for one lane. -/
inductive Res where
  /-- It completes; the next address is the following word. -/
  | next (s : State)
  /-- It transfers control (R150). -/
  | jump (s : State) (dst : Nat)
  /-- It goes on at an address without leaving a frame: a call, a loop's start. -/
  | enter (s : State) (dst : Nat)
  /-- It arrives at an address by sequential flow (R147). -/
  | arrive (s : State) (at_ : Nat)
  /-- It resumes at an address, and takes the back edge of a frame that ends there, or leaves frames (R147, R150). -/
  | resume (s : State) (at_ : Nat)
  /-- It raises a cause with a trapval; `after`: trappc is the following word (R88). -/
  | trap (s : State) (cause : Nat) (val : DWord) (after : Bool)
  /-- It consumes poison (R357). -/
  | consume (s : State)
  /-- It has no effect yet and is issued again when its wait ends. -/
  | wait (s : State) (w : Wait)
  /-- The lane's status says what it is doing; the program counter stays. -/
  | stay (s : State)
  /-- The lane's status says what it is doing; the program counter is past the instruction. -/
  | past (s : State)

/-- A cause for which the manual names no trapval: a free value (log entry 2), one for both copies of a lane pair. -/
def trapFree (s : State) (cause : Nat) : Res :=
  if s.cur.sh then .trap s cause (s.thr { s.cur with sh := false }).trapval false
  else let (v, s') := s.fresh; .trap s' cause v false

/-- A cause with its trapval. -/
def trapAt (s : State) (cause val : Nat) : Res := .trap s cause (BitVec.ofNat 64 val) false

/-! ### Reads that an instruction or a unit needs before it can act -/

/-- Who translates: the owner of the access, its core, its context and privilege, and its path. -/
structure Space where
  owner : Owner
  core : CoreId
  ctx : Nat
  sys : Bool
  path : Nat
  tag : BitVec 16 := 0
  gnum : BitVec 64 := 0
deriving DecidableEq, Repr

inductive SRes where
  | ok (s : State) (bs : List (Byte × Bool))
  | fault (cause : Nat)
  | wait (s : State)

def State.syncGet (s : State) (o : Owner) (a : Nat) : Option (Byte × Bool) :=
  (s.syncBuf.find? fun e => e.1 == o && e.2.1 == a).map (·.2.2)

/-- A read of `n` bytes at one holder: at once where the holder is on this package and its hold admits it; else the
bytes that a packet has brought; else the packet leaves, and the work waits. -/
def State.syncRead (s : State) (sp : Space) (r : Route) (fa n : Nat) : SRes :=
  let as := (List.range n).map (fa + ·)
  match s.syncFail.find? fun e => e.1 == sp.owner && e.2.1 == fa with
  | some e => .fault e.2.2
  | none =>
    let got := as.filterMap (s.syncGet sp.owner)
    if got.length = n then .ok s got
    else
      let packet : SRes :=
        if (s.accs.any fun e => e.2.owner == sp.owner && e.2.kind == .sync && e.2.fa == fa) then .wait s
        else .wait (s.sendAcc { owner := sp.owner, core := sp.core, path := sp.path, kind := .sync, fa, len := n
                                tag := sp.tag, gnum := sp.gnum } r).1
      match s.local? r.origin with
      | none => packet
      | some j => match s.ownRoute j fa r.len with
        | none => packet
        | some q =>
          let home := match s.homeRoute sp.core.die fa with | some h => h.origin | none => r.origin
          if s.dramWaits (Route.physical q fa) then .wait s
          else if !s.inStand r.origin || View.covered (s.view sp.core sp.path) (s.appliedAt j q) home then
            .ok (if s.inStand r.origin then s.merge sp.core sp.path (s.appliedAt j q) else s) (s.bytesAt (Route.physical q fa) n)
          else .wait s

/-! ### Translation (R308-R312) -/

inductive XRes where
  | ok (s : State) (fa : Nat)
  | miss (s : State) (level : Nat)
  | fault (cause : Nat)
  | poison
  | wait (s : State)

/-- R309: a malformed entry at a level. -/
def malformed (e lv : Nat) : Bool :=
  bits e 9 7 != 0 || bits e 2 3 != 0 || (!bit e 1 && bits e 5 4 != 0) || (bit e 1 && lv == 0) || (!bit e 1 && lv == 2)
    || (bit e 1 && lv == 1 && bits e 16 13 != 0)

def vaIndex (va lv : Nat) : Nat := if lv = 0 then bits va 42 13 else if lv = 1 then bits va 29 13 else bits va 16 13

inductive WRes where
  | leaf (s : State) (e : TlbE)
  | miss (s : State) (level : Nat)
  | fault (cause : Nat)
  | poison
  | wait (s : State)

/-- What reads have brought to some work, or failed to, is forgotten: the work is over. -/
def State.dropSync (s : State) (o : Owner) : State :=
  { s with syncBuf := s.syncBuf.filter (fun e => e.1 != o), syncFail := s.syncFail.filter fun e => e.1 != o }

/-- A walk that has ended keeps nothing of an entry it has read: the next walk reads it again (R311). -/
def State.dropWalk (s : State) (o : Owner) (a : Nat) : State :=
  { s with syncBuf := s.syncBuf.filter fun e => !(e.1 == o && decide (a ≤ e.2.1) && decide (e.2.1 < a + 8)) }
def WRes.dropWalk (o : Owner) (a : Nat) : WRes → WRes
  | .leaf s e => .leaf (s.dropWalk o a) e
  | .miss s lv => .miss (s.dropWalk o a) lv
  | r => r

/-- R310's walk from level `3 - k`, the table at `base`. The data of a read that has expired is poisoned (R191). -/
def State.walk (sp : Space) (va : Nat) : Nat → State → Nat → WRes
  | 0, s, _ => .miss s 2
  | k + 1, s, base =>
    let lv := 2 - k
    let a := base + 8 * vaIndex va lv
    match s.homeRoute sp.core.die a with
    | none => .fault 0x0E
    | some r => match s.syncRead { sp with path := 0 } r a 8 with
      | .fault c => if c = 0x11 then .poison else .fault c
      | .wait s' => .wait s'
      | .ok s' bs =>
        let e := leNat (bs.map (·.1))
        if bs.any (·.2) then .poison
        else WRes.dropWalk sp.owner a (if !bit e 0 then .miss s' lv
        else if malformed e lv then .fault 0x0D
        else if bit e 1 then
          let size := if lv = 1 then 29 else 16
          .leaf s' { ctx := sp.ctx, va := va / 2 ^ size * 2 ^ size, size, fa := bits e 16 48 * 2 ^ 16
                     perm := BitVec.ofNat 4 (bits e 5 4) }
        else State.walk sp va k s' (bits e 16 48 * 2 ^ 16))

/-- The TLB entry that translates an address. -/
def tlbHit (l : List TlbE) (ctx va : Nat) : Option TlbE := l.find? fun e => e.ctx == ctx && va / 2 ^ e.size * 2 ^ e.size == e.va

/-- A fill keeps the newest entries (which one it replaces is not architected: log entry 10). -/
def tlbFill (l : List TlbE) (cap : Nat) (e : TlbE) : List TlbE := (e :: l).take cap

/-- R310's permission check: `need` bit 0 read, bit 1 write, bit 2 fetch. -/
def permits (e : TlbE) (sys : Bool) (need : BitVec 3) : Bool :=
  (!e.perm.getLsbD 3 || sys) && (!need.getLsbD 0 || e.perm.getLsbD 0) && (!need.getLsbD 1 || e.perm.getLsbD 1)
    && (!need.getLsbD 2 || e.perm.getLsbD 2)

/-- Bytes of a group's allocation: the allocation itself, or the 64 KiB pages of its vault that it lies in, which are mapped whole
(R308; log entry 26). -/
def Group.vaultHas (x : Group) (wide : Bool) (va : Nat) : Bool :=
  if wide then
    let lo := x.vaultOff % 65536
    decide (x.vbase.toNat ≤ va + lo) && decide (va + lo < x.vbase.toNat + (lo + x.vaultBytes + 65535) / 65536 * 65536) && x.vaultBytes != 0
  else decide (x.vbase.toNat ≤ va) && decide (va < x.vbase.toNat + x.vaultBytes)

/-- The vault of a core, where a group's allocation lies: the group whose work translates comes first, then any group of
its context. The management core's mapping of that address (R270) is kept here and not in page tables (log entry 26). The space of a group that
has retired stays mapped for its transfers (R280). -/
def State.vaultMap (s : State) (sp : Space) (va : Nat) : Option Nat :=
  let inside (wide : Bool) (x : Group) : Bool := x.ctx == sp.ctx && x.st != .retired && x.vaultHas wide va
  let place (e : GroupId × Group) : Nat := vaultBase (s.dieNo e.1.die) e.1.core + (e.2.vaultOff + va - e.2.vbase.toNat)
  let look (wide : Bool) : Option (GroupId × Group) :=
    match s.groups.find? fun e => e.2.num == sp.gnum && inside wide e.2 with
    | some e => some e
    | none => s.groups.find? fun e => inside wide e.2
  match look false with
  | some e => some (place e)
  | none => match (s.core sp.core).left.find? fun e => e.1 == sp.gnum && decide (e.2.1.toNat ≤ va) && decide (va < e.2.1.toNat + e.2.2.2) with
    | some e => some (vaultBase (s.dieNo sp.core.die) sp.core.core + (e.2.2.1 + va - e.2.1.toNat))
    | none => (look true).map place

/-- Translation of a virtual address below 2^55 (R310, R312); a miss in a span that already has a parked entry does
not walk (R314). -/
def State.xlate (s : State) (sp : Space) (va : Nat) (need : BitVec 3) : XRes :=
  let fin (s : State) (e : TlbE) : XRes := if permits e sp.sys need then .ok s (e.fa + va % 2 ^ e.size) else .fault 0x0D
  let k := s.core sp.core
  let cl := s.cluster sp.core.die (sp.core.core / 8)
  match s.vaultMap sp va with
  | some fa => if need.getLsbD 2 then .fault 0x0D else .ok s fa
  | none => match tlbHit k.tlb sp.ctx va with
  | some e => fin s e
  | none => match tlbHit cl.tlb sp.ctx va with
    | some e => fin (s.setCore sp.core { k with tlb := tlbFill k.tlb 64 e }) e
    | none =>
      match k.fbuf.find? fun p => p.ctx == sp.ctx && p.va / 65536 == va / 65536 && p.owner != sp.owner with
      | some p => .miss s p.level
      | none => match AMap.find s.ctxs sp.ctx with
        | none => .fault 0x0D
        | some c => match State.walk sp va 3 s c.root with
          | .leaf s e =>
            let k := s.core sp.core
            let cl := s.cluster sp.core.die (sp.core.core / 8)
            fin ((s.setCore sp.core { k with tlb := tlbFill k.tlb 64 e }).setCluster sp.core.die (sp.core.core / 8)
              { cl with tlb := tlbFill cl.tlb 4096 e }) e
          | .miss s lv => .miss s lv
          | .fault c => .fault c
          | .poison => .poison
          | .wait s => .wait s

/-! ### The accesses of the lane issuing -/

def State.space (s : State) : Space :=
  let g := s.myGrp
  { owner := .thread { s.cur with sh := false }, core := coreOf s.cur, ctx := g.ctx, sys := g.sys, path := 0, tag := s.me.tag
    gnum := g.num }

/-- What a lane of a lane-pair group sends out of its partition is kept for the comparison of R358. -/
def State.log (s : State) (l : List Nat) : State := if s.myGrp.shadow = 1 then { s with evlog := s.evlog ++ l } else s

/-- The access parks in its core's fault buffer and its thread is parked (R314); with the buffer full it waits. -/
def State.park (s : State) (va level kind : Nat) : Res :=
  let c := coreOf s.cur
  let k := s.core c
  if k.fbuf.any fun p => p.owner == .thread { s.cur with sh := false } then
    .stay (s.setMe { s.me with status := .parked })
  else if 256 ≤ k.fbuf.length then .wait s .sync
  else
    let p : Parked := { owner := .thread { s.cur with sh := false }, ctx := s.myGrp.ctx, va, level, kind, tag := s.me.tag, group := s.myGrp.num
                        at_ := s.now c.die }
    let s := s.setCore c { k with fbuf := k.fbuf ++ [p] }
    .stay (s.setMe { s.me with status := .parked })

/-- A translation that did not succeed, as the lane's result (R189 steps 3 and 4, R310, R357). -/
def XRes.toRes (x : XRes) (s : State) (va kind : Nat) : Res :=
  match x with
  | .ok s _ => .next s
  | .miss s lv => s.park va lv kind
  | .fault c => trapAt s c va
  | .poison => .consume s
  | .wait s => .wait s .sync

/-- A byte of the thread's own newest held store, if it holds one there (R360). -/
def heldByte (l : List Held) (a : Nat) : Option (Byte × Bool) :=
  (l.reverse.findSome? fun h => (h.cells.find? fun c => c.1 == a).map fun c => (c.2, h.pois.contains (a / 4 * 4)))

/-- Accesses that share a byte, by virtual address. -/
def Acc.meets (a : Acc) (va n : Nat) : Bool := decide (a.va < va + n) && decide (va < a.va + a.len)

/-- An outstanding store or atomic of the thread on these bytes whose home keeps no stamp (R180). -/
def State.ownPending (s : State) (va n : Nat) : Bool :=
  s.accs.any fun e => e.2.owner == .thread s.cur && (e.2.kind == .store || e.2.kind == .atomic) && !e.2.stamped && !e.2.acked && e.2.meets va n

/-- An outstanding load of the thread on these bytes, which this one takes effect after (R180, R255): it is held by a route of its own,
or may stand in the L1, so that nothing but the earlier one's return puts them in order. -/
def State.loadBefore (s : State) (va n : Nat) (elsewhere : Acc → Bool) : Bool :=
  s.accs.any fun e => e.2.owner == .thread s.cur && e.2.kind == .load && e.2.meets va n && elsewhere e.2

/-- An access of the lane issuing is held by an acquire: a load it follows has not returned (R251, R253, R266). -/
def State.heldBack (s : State) : Bool := s.me.after.any fun n => (AMap.find s.accs n).isSome

/-- Bytes read from memory for an instruction that acts on them at once, on the lsu path: 16-byte pieces. `lost`: the read has
expired and is recorded (R191). -/
inductive RRes where
  | ok (s : State) (bs : List (Byte × Bool))
  | lost (s : State)
  | stop (r : Res)

/-- What a fetch that has expired brings: the manual gives its destination, an instruction, no value (log entries 2 and 33). -/
def lostFetch (s : State) (n : Nat) : RRes := .ok s.fresh.2 ((leBytes n s.fresh.1.toNat).map fun b => (b, true))

def State.readPiece (s : State) (va n kind : Nat) (need : BitVec 3) : RRes :=
  if 2 ^ 55 ≤ va then .stop (trapAt s 0x0D va)
  else match s.xlate s.space va need with
    | .ok s fa =>
      if !need.getLsbD 2 && s.heldBack then .stop (.wait s .acquire)
      else if s.ownPending va n || s.loadBefore va n (fun _ => true) then .stop (.wait s .order)
      else match (if s.me.homeRead.getLsbD 0 then s.homeRoute s.cur.die fa else s.loadRoute s.cur.die fa) with
        | none => .stop (trapAt s 0x0E va)
        | some r => match s.syncRead s.space r fa n with
          | .ok s bs => .ok s (bs.zipIdx.map fun b => (heldByte s.me.held (va + b.2)).getD b.1)
          | .fault c => if c ≠ 0x11 then .stop (trapAt s c va) else if need.getLsbD 2 then lostFetch s n else .lost s
          | .wait s => .stop (.wait s .sync)
    | x => .stop (x.toRes s va kind)

/-- `k` pieces of 16 bytes. -/
def State.readVA : Nat → State → Nat → RRes
  | 0, s, _ => .ok s []
  | k + 1, s, va => match s.readPiece va 16 0 1 with
    | .stop r => .stop r
    | .lost s => .lost s
    | .ok s bs => match State.readVA k s (va + 16) with
      | .stop r => .stop r
      | .lost s => .lost s
      | .ok s cs => .ok s (bs ++ cs)

/-- Loads under way bring no line that a later write of their core makes stale. -/
def State.noFill (s : State) (c : CoreId) (segs : List Nat) : State :=
  { s with accs := s.accs.map fun e =>
      if e.2.kind == .load && e.2.core == c && segs.contains (e.2.fa / 128) then (e.1, { e.2 with hint := 2 }) else e }

/-- An L1 copy is kept current with the core's own stores (R178); an atomic invalidates it. -/
def State.l1Store (s : State) (c : CoreId) (cells : List Host.Cell) (pois : List Nat) : State :=
  let k := s.core c
  let upd (l : Line) : Line :=
    let here := cells.filter fun x => x.1 / 128 == l.seg
    { l with cells := l.cells.zipIdx.map fun b => ((here.find? fun x => x.1 == l.seg * 128 + b.2).map (·.2)).getD b.1
             pois := poisonAfter l.pois here pois }
  (s.setCore c { k with l1 := k.l1.map upd }).noFill c (cells.map fun x => x.1 / 128)
def State.l1Drop (s : State) (c : CoreId) (seg : Nat) : State :=
  let k := s.core c
  (s.setCore c { k with l1 := k.l1.filter fun l => l.seg != seg }).noFill c [seg]

/-- CRC-64/ECMA-182 over bytes, each most significant bit first (R359). -/
def crc64 (c : BitVec 64) (bs : List Byte) : BitVec 64 :=
  bs.foldl (fun (c : BitVec 64) (b : Byte) => (List.range 8).foldl (fun (c : BitVec 64) _ => if c.msb then BitVec.shiftLeft c 1 ^^^ 0x42F0E1EBA9EA3693#64 else BitVec.shiftLeft c 1)
    (c ^^^ BitVec.shiftLeft (BitVec.setWidth 64 b) 56)) c

/-- What one store adds to its thread's signature (R359). -/
def storeSig (c : BitVec 64) (va : Nat) (bs : List Byte) : BitVec 64 :=
  crc64 c (leBytes 8 va ++ leBytes 2 ((2 ^ bs.length - 1) * 2 ^ (va % 16)) ++ bs)

/-- A commit buffer of the pair has reached its 4,096 entries (R360). -/
def State.commitFull (s : State) : Bool :=
  let total (g : GroupId) : Nat := ((s.threads.filter fun e => decide (gidOf e.1 = g)).map fun e => e.2.held.length).sum
  decide (4096 ≤ total (gidOf s.cur)) || (match s.myGrp.twin with | some h => decide (4096 ≤ total h) | none => false)

/-- One piece of a store of the lane issuing: at most 16 bytes inside one aligned 16-byte unit. In a lane pair the
primary alone sends it; in a block pair it is held until a commit point (R358, R360). -/
def State.storePiece (s : State) (va : Nat) (bs : List (Byte × Bool)) : Res :=
  if 2 ^ 55 ≤ va then trapAt s 0x0D va
  else if s.heldBack then .wait s .acquire
  else match s.xlate s.space va 2 with
    | .ok s fa =>
      let cells := cellsAt fa (bs.map (·.1))
      let pois := wordsOf ((bs.zipIdx.filter fun b => b.1.2).map fun b => fa + b.2)
      let s := s.log (1 :: va :: bs.map (·.1.toNat))
      let g := s.myGrp
      let th := s.me
      if s.cur.sh then .next s
      else if g.shadow = 2 && s.commitFull && th.held != [] && th.atCommit != 2 then
        .wait (s.setMe { th with atCommit := 3 }) .twin
      else if g.shadow = 2 then
        let h : Held := { num := s.nextId, born := s.now s.cur.die, va, fa, cells := cellsAt va (bs.map (·.1))
                          pois := wordsOf ((bs.zipIdx.filter fun b => b.1.2).map fun b => va + b.2) }
        .next (State.setMe { s with nextId := s.nextId + 1 } { th with
          atCommit := 0, sig := storeSig th.sig va (bs.map (·.1)), nstores := th.nstores + 1, held := th.held ++ [h] })
      else match s.homeRoute s.cur.die fa with
        | none => .next (s.setMe { th with impr := th.impr ++ [(0x1A, BitVec.ofNat 64 va)] })
        | some r =>
          let s := s.l1Store (coreOf s.cur) cells pois
          .next (s.form { owner := .thread s.cur, core := coreOf s.cur, path := 0, kind := .store, va, fa, len := bs.length
                          cells, pois, tag := th.tag, glean := s.gleanNo, gnum := g.num } r).1
    | x => x.toRes s va 1

/-- A store in pieces of 16 bytes: every piece translates before the first is sent. -/
def State.storeVA : Nat → State → Nat → List (Byte × Bool) → Res
  | 0, s, _, _ => .next s
  | k + 1, s, va, bs =>
    match (if k = 0 then XRes.ok s 0 else if 2 ^ 55 ≤ va + 16 then XRes.fault 0x0D else s.xlate s.space (va + 16) 2) with
    | .ok s _ => match s.storePiece va (bs.take 16) with
      | .next s => State.storeVA k s (va + 16) (bs.drop 16)
      | r => r
    | x => x.toRes s va 1

def plain (bs : List Byte) : List (Byte × Bool) := bs.map fun b => (b, false)

/-! ### Taking an exception, and returning from one (R87-R90, R144) -/

/-- The predicate image of R94: bit i is predicate i, bit 0 reads 1. -/
def predImage (th : Thread) : BitVec 16 := th.preds ||| 1

/-- Open frames, 0 to 8 (R79). -/
def ldepth (th : Thread) : Nat := th.loops.length

/-- The trap frame of R88. -/
def trapFrame (th : Thread) (cause : Nat) (pc val : DWord) : List Byte :=
  leBytes 2 (predImage th).toNat ++ leBytes 1 (th.wb / 8) ++ leBytes 1 (ldepth th) ++ leBytes 4 th.fsr.toNat ++
    leBytes 8 pc.toNat ++ leBytes 1 cause ++ leBytes 7 0 ++ leBytes 8 val.toNat

/-- Causes that never enter a handler (R49, R87). -/
def noHandler (cause : Nat) : Bool :=
  cause == 0x0C || cause == 0x10 || cause == 0x11 || cause == 0x12 || cause == 0x13 || cause == 0x14 || cause == 0x1B || cause == 0x1D

/-- A table entry as an offset from the kernel header: bits [1:0] of the sum are dropped, for a program counter is a multiple of 4
(R30, R76) and R283 gives a wrong entry no other meaning (DESIGN CHOICE, log entry 14). -/
def codeAt (header off : Nat) : Nat := (header + off) / 4 * 4

/-- Handler entry for a cause of the lane issuing, with trappc and trapval (R87, R88). A waiting read or a parked
access of the entry leaves the instruction where it is: it raises the same cause when it is issued again. The next issue
obeys the stall code of an instruction that trapped (R38). -/
def State.takeTrap (s : State) (cause : Nat) (pc val : DWord) : State :=
  let t := s.cur
  let th := s.me
  let g := s.myGrp
  let fail (s : State) : State := s.groupFault (gidOf t) cause th.tag val
  let again (s : State) (w : Wait) : State := s.setMe { s.me with status := .waiting w, raise := some (cause, pc, val) }
  let park (s : State) : State := s.setMe { s.me with raise := some (cause, pc, val) }
  if cause = 0x10 then s.consume t 0x10
  else if cause = 0x11 then s.groupEvent t 0x11 val
  else if noHandler cause || th.handler || g.handOff = 0 then fail s
  else match s.readPiece (g.header + g.handOff + 4 * cause) 4 0 1 with
    | .lost s => fail s
    | .stop r => match r with
      | .wait s w => again s w
      | .stay s => park s
      | .consume s => s.consume t 0x10
      | _ => fail s
    | .ok s bs =>
      let off := leNat (bs.map (·.1))
      if bs.any (·.2) then s.consume t 0x10
      else if off = 0 || th.tsp.toNat % 16 ≠ 0 then fail s
      else
        let sp := (th.tsp - 32#64).toNat
        match State.storeVA 2 s sp (plain (trapFrame th cause pc val)) with
        | .next s =>
          let th := s.me
          s.setMe { th.wakeAt (s.now t.die + 1) with
            tsp := BitVec.ofNat 64 sp, trapcause := BitVec.ofNat 32 cause, trappc := pc, trapval := val, handler := true
            level := th.level + 1, pc := BitVec.ofNat 64 (codeAt g.header off) }
        | .wait s w => again s w
        | .stay s => park s
        | .consume s => s.consume t 0x10
        | _ => fail s

/-- A handler or callee ends: every frame above the recorded ldepth is discarded and the activation level falls (R144). -/
def popLevel (th : Thread) (depth : Nat) : Thread :=
  { th with loops := th.loops.drop (th.loops.length - depth), level := th.level - 1 }

/-- What `eret` restores from a trap frame's bytes (R89). Reserved bits of fsr read 0 (R57). R89 names no fault for a wb byte above
(count - 8) / 8: it is installed as it stands (DESIGN CHOICE, log entry 69). -/
def restoreFrame (th : Thread) (bs : List Byte) : Thread :=
  let n (a k : Nat) : Nat := leNat ((bs.drop a).take k)
  popLevel { th with preds := BitVec.ofNat 16 (n 0 2), wb := 8 * n 2 1, fsr := BitVec.ofNat 32 (n 4 4 % 128), tsp := th.tsp + 32
                     handler := false } (n 3 1)

/-- The return from an exception (R89): the frame at tsp is read with the faults of R96. A program counter is a multiple
of 4 (R76): bits [1:0] of trappc are dropped (log entry 14). -/
def State.retTrap (s : State) : Res :=
  let th := s.me
  if th.tsp.toNat % 16 ≠ 0 then trapAt s 0x0B th.tsp.toNat
  else match State.readVA 2 s th.tsp.toNat with
    | .stop r => r
    | .lost s => .consume s
    | .ok s bs =>
      if bs.any (·.2) then .consume s
      else
        let th := restoreFrame s.me (bs.map (·.1))
        .resume (s.setMe th) (th.trappc.toNat / 4 * 4)

end Sys2Proof.Machine
end

