-- ==== Sys2Proof/Machine/Operands.lean ====
section
/-! DEFINITION. Operands: the registers and predicates an instruction names, its results and their latencies, and the
issue of one instruction in one lane (R34-R40, R47, R78, R148). -/

namespace Sys2Proof.Machine

open Sys2Proof

/-! ### Frames (R143-R150) -/

/-- The owned frames, innermost first (R144). -/
def owned (th : Thread) : List Frame := th.loops.takeWhile fun f => f.level == th.level

/-- The address after a frame's body. -/
def Frame.stopAt (f : Frame) : Nat := (f.start + 4 * f.len) % 2 ^ 64

/-- An address lies in a frame's body. -/
def Frame.inBody (f : Frame) (a : Nat) : Bool := decide (f.start ≤ a) && decide (a < f.start + 4 * f.len)

/-- sp0 to sp7 shifted up by one, `b` into sp0 (R147). -/
def shiftStages (p : BitVec 16) (b : Bool) : BitVec 16 :=
  (p &&& 0x00FF#16) ||| (BitVec.shiftLeft (BitVec.ofNat 16 (p.toNat / 256)) 1 ||| BitVec.ofNat 16 b.toNat) <<< 8

def predBit (p : BitVec 16) (n : Nat) : Bool := n == 0 || p.getLsbD n

/-- One back edge (R147): none where the frame pops, else the frame and the predicates. The predicates are those written: a result
still pending from an `fcmp` is not seen, and lands later at the index it names (DESIGN CHOICE, log entry 70). -/
def backEdge (f : Frame) (p : BitVec 16) : Option (Frame × BitVec 16) :=
  let rot (f : Frame) : Frame := if f.rot = 0 then f else { f with rrb := (f.rrb + f.rot - 1) % f.rot }
  if f.kind = 0 then
    if f.stop || f.cnt == 0 then none else some (rot { f with cnt := f.cnt - 1 }, p)
  else if f.kind = 2 then
    if f.stop || !predBit p f.pidx then none else some (rot f, p)
  else if !f.stop && f.cnt != 0 then some (rot { f with cnt := f.cnt - 1 }, shiftStages p true)
  else if 0 < f.epi then some (rot { f with epi := f.epi - 1 }, shiftStages p false)
  else none

/-- Arrival at an address by sequential flow: the innermost owned frame that ends there takes its back edge, and each
that pops hands the arrival on (R147). -/
def arriveAt : List Frame → Word → BitVec 16 → Nat → List Frame × BitVec 16 × Nat
  | [], _, p, a => ([], p, a)
  | f :: fs, lv, p, a =>
    if f.level = lv ∧ Frame.stopAt f = a then
      match backEdge f p with
      | none => arriveAt fs lv p a
      | some (f', p') => (f' :: fs, p', f.start)
    else (f :: fs, p, a)

/-- The frames left by a transfer (R150). -/
def leaveTo : List Frame → Word → Nat → List Frame
  | [], _, _ => []
  | f :: fs, lv, a => if f.level = lv ∧ !Frame.inBody f a then leaveTo fs lv a else f :: fs

/-- A thread that arrives somewhere by sequential flow. -/
def Thread.flowTo (th : Thread) (a : Nat) : Thread :=
  let r := arriveAt th.loops th.level th.preds (a % 2 ^ 64)
  { th with loops := r.1, preds := r.2.1, pc := BitVec.ofNat 64 r.2.2 }

/-- A thread that transfers somewhere (R150). -/
def Thread.jumpTo (th : Thread) (a : Nat) : Thread :=
  { th with loops := leaveTo th.loops th.level (a % 2 ^ 64), pc := BitVec.ofNat 64 a }

/-- A thread whose `ret` or `eret` resumes somewhere (R147, R150). -/
def Thread.resumeAt (th : Thread) (a : Nat) : Thread :=
  match owned th with
  | f :: _ => if Frame.stopAt f = a % 2 ^ 64 then th.flowTo a else th.jumpTo a
  | [] => th.jumpTo a

/-! ### Registers and predicates -/

/-- The rotating region in force: its size and rrb (R148). -/
def rotation (th : Thread) : Nat × Nat :=
  match (owned th).find? fun f => f.rot != 0 with
  | some f => (f.rot, f.rrb)
  | none => (0, 0)

/-- The thread register that window field `f` names (R78, R148). -/
def regNum (th : Thread) (f : Nat) : Nat :=
  let r := rotation th
  if 64 ≤ f ∧ f < 64 + r.1 then th.wb + 64 + (f - 64 + r.2) % r.1 else th.wb + f

def Thread.reg (th : Thread) (n : Nat) : Reg := AMap.getD th.regs n {}
def Thread.setReg (th : Thread) (n : Nat) (r : Reg) : Thread := { th with regs := AMap.set th.regs n r }

/-- A 32-bit register field read by the lane issuing (R34). -/
def State.readF (s : State) (f : Nat) : Reg :=
  if f < 120 then s.me.reg (regNum s.me f)
  else if f = 121 then { v := BitVec.ofNat 32 s.cur.t }
  else if f = 122 then { v := BitVec.ofNat 32 (laneOf s.myGrp s.cur.t) }
  else if f = 123 then { v := BitVec.ofNat 32 (sheafOf s.myGrp s.cur.t) }
  else if f = 124 then { v := s.myGrp.num.setWidth 32 }
  else if f = 125 then { v := BitVec.ofNat 32 (s.cno (coreOf s.cur)) }
  else {}

/-- The registers of a pair or quad (zr reads 0 over the whole width), or of a tuple (R34, R203). -/
def State.readN (s : State) (f n : Nat) : List Reg :=
  if f = 120 then List.replicate n {} else (List.range n).map fun k => s.readF (f + k)

/-- A 64-bit operand, low register first, and its poison. -/
def State.readD (s : State) (f : Nat) : DWord × Bool :=
  let l := s.readN f 2
  let a := l.getD 0 {}
  let b := l.getD 1 {}
  (b.v ++ a.v, a.p || b.p)

/-- The thread registers that a destination of `n` registers names; none for zr (R34). -/
def dests (th : Thread) (d n : Nat) : List Nat := if d < 120 then (List.range n).map fun k => regNum th (d + k) else []

def Thread.pred (th : Thread) (n : Nat) : Bool := predBit th.preds n

/-- A predicate written; index 0 is discarded (R35). -/
def Thread.setPred (th : Thread) (n : Nat) (b : Bool) : Thread :=
  if n = 0 then th
  else { th with preds := if b then th.preds ||| BitVec.ofNat 16 (2 ^ n) else th.preds &&& ~~~ BitVec.ofNat 16 (2 ^ n) }

/-! ### Results (R39, R40, R111) -/

/-- A result takes its place. -/
def Thread.land (th : Thread) (p : Pend) : Thread :=
  let th := p.regs.foldl (fun t r => t.setReg r.1 r.2) th
  let th := p.preds.foldl (fun t r => t.setPred r.1 r.2) th
  { th with fsr := th.fsr ||| p.flags.setWidth 32 }

/-- An older result no longer writes what a newer one writes (R40). -/
def Pend.without (p q : Pend) : Pend :=
  { p with regs := p.regs.filter (fun r => !(q.regs.any fun x => x.1 == r.1))
           preds := p.preds.filter (fun r => !(q.preds.any fun x => x.1 == r.1)) }

/-- The results due by a cycle are written, in issue order (R40). -/
def Thread.flush (th : Thread) (now : Nat) : Thread :=
  (th.pend.filter fun p => decide (p.due ≤ now)).foldl Thread.land { th with pend := th.pend.filter fun p => !decide (p.due ≤ now) }

def Pend.busy (p : Pend) : List Dest := p.regs.map (fun r => .reg r.1) ++ p.preds.map fun r => .pred r.1

/-- A result of latency `lat`, 0 for variable (R39). A result readable at the next cycle is written at once. -/
def Thread.result (th : Thread) (now lat : Nat) (p : Pend) : Thread :=
  let th' := { th with pend := th.pend.map fun q => Pend.without q p }
  if lat = 1 then th'.land p
  else if lat = 0 then { th' with vpend := th.vpend ++ [p], busy := th.busy ++ Pend.busy p }
  else { th' with pend := th'.pend ++ [{ p with due := now + lat }] }

/-- Flags under the prefix's nf (R42). -/
def keepFlags (ct : Ctl) (fl : BitVec 7) : BitVec 7 :=
  match ct.pfx with
  | some p => if p.nf then 0 else fl
  | none => fl

/-- An instruction that can set a flag does so unless its prefix sets nf (R42, R111). -/
def mayFlag (ct : Ctl) : Bool :=
  match ct.pfx with
  | some p => !p.nf
  | none => true

/-- The lane's registers at `d` receive values, low first, with flags; `may`: the instruction can set a flag (R111). -/
def State.give (s : State) (lat : Nat) (d : Nat) (vals : List Reg) (fl : BitVec 7 := 0) (may : Bool := false) : State :=
  s.setMe (s.me.result (s.now s.cur.die) lat { regs := (dests s.me d vals.length).zip vals, flags := fl, may })

/-- The lane's predicate receives a value. -/
def State.giveP (s : State) (lat : Nat) (n : Nat) (b : Bool) (fl : BitVec 7 := 0) (may : Bool := false) : State :=
  s.setMe (s.me.result (s.now s.cur.die) lat { preds := if n = 0 then [] else [(n, b)], flags := fl, may })

/-- A 64-bit result as two registers. -/
def pairOf (v : DWord) (p : Bool) : List Reg := [{ v := v.setWidth 32, p }, { v := (v >>> 32).setWidth 32, p }]

/-! ### The steps of R47 in one lane -/

/-- The guard's predicate index and inversion (R36). -/
def guardOf (ct : Ctl) : Option (Nat × Bool) :=
  match ct.pfx with
  | some p => if p.guard5 != 0 then some (p.guard5.toNat % 16, p.guard5.getLsbD 4)
              else if ct.g != 0 then some (7 + ct.g.toNat, false) else none
  | none => if ct.g != 0 then some (7 + ct.g.toNat, false) else none

def guardTrue (th : Thread) (ct : Ctl) : Bool :=
  match guardOf ct with
  | none => true
  | some (n, inv) => th.pred n != inv

/-- The thread registers an operand names. -/
def opRegs (th : Thread) (o : Opnd) : List Nat := dests th o.fld o.n

/-- R34, R78: every register of the operands lies below the declared count. -/
def mapped (th : Thread) (count : Nat) (g : Sig) : Bool := g.gpr.all fun o => (opRegs th o).all fun n => decide (n < count)

/-- Registers, predicates and closure registers an instruction reads or writes (R39). -/
def named (th : Thread) (g : Sig) : List Dest :=
  g.gpr.flatMap (fun o => (opRegs th o).map .reg) ++ g.predR.map .pred ++ g.predW.map .pred ++ g.clos.map .clos

/-- A fixed-latency source is not yet readable (R40). -/
def early (th : Thread) (g : Sig) : Bool :=
  (g.gpr.any fun o => o.rd && (opRegs th o).any fun n => th.pend.any fun p => p.regs.any fun r => r.1 == n)
    || g.predR.any fun n => th.pend.any fun p => p.preds.any fun r => r.1 == n

/-- The mode an instruction asks for (R80). -/
def modeOk (s : State) (p : Priv) : Bool :=
  match p with
  | .none => true
  | .sys => s.myGrp.sys
  | .sysOrHandler => s.myGrp.sys || s.me.handler

def isSel : Instr → Bool
  | .sel _ _ _ _ => true
  | _ => false

/-- The predicate an instruction's guard field names, if it has a guard. -/
def guardPreds (i : Instr) : List Nat := match guardOf (ctlOf i) with | some (n, _) => [n] | none => []

/-- The predicate read as a guard, at step 4 of R47; the selector of `sel` is a source and read at step 6 (R40). -/
def gatePreds (i : Instr) : List Nat := if isSel i then [] else guardPreds i
def selPreds (i : Instr) : List Nat := if isSel i then guardPreds i else []

/-- A scoreboarded register or predicate that the instruction must wait for (R39). -/
def waitsFor (th : Thread) (i : Instr) : Bool :=
  (named th (sigOf i) ++ (selPreds i).map Dest.pred).any fun d => th.busy.contains d

/-- Some source is not yet readable (R40). -/
def tooSoon (th : Thread) (i : Instr) : Bool :=
  early th (sigOf i) || (selPreds i).any fun n => th.pend.any fun p => p.preds.any fun r => r.1 == n

/-- The register an inactive lane of a shuffle supplies (R133). -/
def shflSource : Instr → Option (BitVec 7)
  | .shflIdx _ _ a _ => some a
  | .shflUp _ _ a _ => some a
  | .shflDown _ _ a _ => some a
  | .shflXor _ _ a _ => some a
  | _ => none

/-- It waits for a write to that register that is outstanding (R39, R133). -/
def supplyWaits (th : Thread) (count : Nat) (i : Instr) : Bool :=
  match shflSource i with
  | some a => (dests th a.toNat 1).any fun n => decide (n < count) && th.busy.contains (.reg n)
  | none => false

/-- The cycle whose register values an instruction of a thread sees: the present one, or that of its issue where it is in progress
(R203). -/
def Thread.seen (th : Thread) (now : Nat) : Nat := th.issued.getD now

/-- The results due by the cycle whose values an instruction sees are in place. -/
def Thread.settled (th : Thread) (now : Nat) : Thread := th.flush (th.seen now)

/-- Checks 3 to 6 of R47, then the instruction's own effect, in the lane issuing. -/
def laneRes (i : Instr) (s : State) (body : State → Res) : Res :=
  let g := sigOf i
  let ct := ctlOf i
  let s := s.setMe (s.me.settled (s.now s.cur.die))
  let th := s.me
  if !modeOk s g.priv then .trap s 0x14 (BitVec.ofNat 64 s.ir.word) false
  else
    let gp := gatePreds i
    if gp.any fun n => th.busy.contains (.pred n) then .wait s .score
    else if s.myGrp.strict && gp.any (fun n => th.pend.any fun p => p.preds.any fun r => r.1 == n) then trapFree s 0x04
    else if !guardTrue th ct && !isSel i then
      (if !g.coll then .next s else if supplyWaits th s.myGrp.count i then .wait s .score else body s)
    else if !mapped th s.myGrp.count g then trapFree s 0x02
    else if waitsFor th i then .wait s .score
    else if s.myGrp.strict && tooSoon th i then trapFree s 0x04
    else body s

/-- Both copies of a lane pair, or the lane alone. -/
def State.bothCopies (s : State) (f : State → State) : State :=
  if s.myGrp.shadow = 1 then
    let p := { s.cur with sh := false }
    { f { f { s with cur := p } with cur := { p with sh := true } } with cur := p, evlog := [] }
  else f s

/-- Bytes an instruction takes: a prefixed pair is two words (R31). -/
def sizeIn (i : Instr) : Nat := match (ctlOf i).pfx with | some _ => 8 | none => 4

/-- Cycles of a stall code (R38). -/
def stallOf (i : Instr) : Nat :=
  match (ctlOf i).s.toNat with
  | 0 => 0
  | 1 => 1
  | 2 => 2
  | _ => 4

/-- The thread issues again when its stall is over, and is ready from then on (R38, R83). -/
def Thread.stall (th : Thread) (now : Nat) (i : Instr) : Thread :=
  { th with notBefore := now + 1 + stallOf i, since := now + 1 + stallOf i }

/-- A wait of an instruction that has issued. The others hold it back before it issues (R39, R111, R179). -/
def Wait.afterIssue : Wait → Bool
  | .score => false
  | .flags _ => false
  | .limit => false
  | _ => true

/-- The thread's instruction is in progress since its issue. -/
def Thread.begun (th : Thread) (now : Nat) : Thread := { th with issued := some (th.seen now) }

/-- A thread whose instruction raises a cause: it is over, and every result due is in place. -/
def Thread.over (th : Thread) (now : Nat) : Thread := { th.flush now with issued := none }

/-- What follows for the lane: its next address and when it may issue again (R38). -/
def settle (i : Instr) (r : Res) : State :=
  let nextAt (s : State) : Nat := s.me.pc.toNat + sizeIn i
  let ready (s : State) (th : Thread) : State := s.setMe { th.stall (s.now s.cur.die) i with status := .ready }
  match r with
  | .next s => ready s (s.me.flowTo (nextAt s))
  | .jump s a => ready s (s.me.jumpTo a)
  | .enter s a => ready s { s.me with pc := BitVec.ofNat 64 a }
  | .arrive s a => ready s (s.me.flowTo a)
  | .resume s a => ready s (s.me.resumeAt a)
  | .trap s c v after =>
    ((s.setMe ((s.me.over (s.now s.cur.die)).stall (s.now s.cur.die) i)).dropSync (.thread { s.cur with sh := false })).takeTrap c (if after then BitVec.ofNat 64 (nextAt s) else s.me.pc) v
  | .consume s => s.consume s.cur 0x10
  | .wait s w =>
    let th := if w.afterIssue then s.me.begun (s.now s.cur.die) else s.me
    s.setMe { th with status := .waiting w }
  | .stay s => if s.me.status = .parked then s.setMe (s.me.begun (s.now s.cur.die)) else s
  | .past s => s.setMe ((s.me.flowTo (nextAt s)).stall (s.now s.cur.die) i)

/-! ### Transfers that have completed (R217, R218) -/

def State.mapThreads (s : State) (f : Thread → Thread) : State :=
  { s with threads := s.threads.map (fun e => (e.1, f e.2))
           outs := s.outs.map fun o => { o with thr := o.thr.map fun e => (e.1, f e.2) } }

/-- A transfer has completed: it leaves the set of every `drain` (R217). -/
def drainedThr (n now : Nat) (th : Thread) : Thread :=
  match th.status with
  | .waiting (.drain l) =>
    if (l.filter (· != n)) = [] then th.wakeAt now else { th with status := .waiting (.drain (l.filter (· != n))) }
  | _ => th

def State.drained (s : State) (d n : Nat) : State := s.mapThreads (drainedThr n (s.now d))

/-- Held stores that are discarded count as complete (R218). -/
def State.discard (s : State) (d : Nat) (l : List Held) : State := l.foldl (fun s h => s.drained d h.num) s

/-! ### Divergence and signature mismatch (R358, R362) -/

/-- Both copies of a lane pair, or both twins of a block pair. -/
def State.copiesOf (s : State) (t : ThreadId) : List ThreadId :=
  let g := s.grp (gidOf t)
  if g.shadow = 1 then [{ t with sh := false }, { t with sh := true }]
  else match g.twin with
    | some h => [t, ⟨h.die, h.core, h.slot, t.t, false⟩]
    | none => [t]

def State.retryPoint (s : State) (t : ThreadId) : Option Thread :=
  ((s.core (coreOf t)).retry.find? fun r => r.t == t).map (·.copy)

/-- A failed comparison (R362): the copies return to their retry points, or a purge of the thread's tag starts. -/
def State.mismatch (s : State) (t : ThreadId) (cause : Nat) : State :=
  let g := s.grp (gidOf t)
  let both := s.copiesOf t
  let pts := both.filterMap fun u => (s.retryPoint u).map fun c => (u, c)
  if s.effRetry treeDepth g.region && !g.retried && pts.length = both.length then
    let s := both.foldl (fun s u => s.setGrp (gidOf u) { s.grp (gidOf u) with retried := true }) s
    pts.foldl (fun s p => (s.setThr p.1 { p.2 with
      held := (s.thr p.1).held.take p.2.held.length, status := .ready, since := s.now t.die + 1, notBefore := s.now t.die + 1 }).discard
        t.die ((s.thr p.1).held.drop p.2.held.length)) s
  else
    (both.foldl (fun s u => s.setThr u { s.thr u with status := .stopped }) s).consume t cause

/-- The state of a lane that waits, where it has sent nothing out. -/
def Res.idle : Res → Option (State × Wait)
  | .wait s w => if s.evlog = [] then some (s, w) else none
  | _ => none

/-- One instruction in the lane issuing. In a lane pair both copies execute it, and what they send out, where they go on
and how they stand are compared before either takes effect (R358); where the primary waits and has sent nothing, both wait. -/
def issue (i : Instr) (s : State) (body : State → Res) : State :=
  if s.myGrp.shadow = 1 then
    let p := { s.cur with sh := false }
    let q := { s.cur with sh := true }
    let r := laneRes i { s with cur := p, evlog := [] } body
    match r.idle with
    | some (s, w) => { settle i (.wait { settle i (.wait s w) with cur := q } w) with cur := p, evlog := [] }
    | none =>
    let a := settle i r
    let b := settle i (laneRes i { a with cur := q, evlog := [] } body)
    if a.evlog = b.evlog ∧ (b.thr p).pc = (b.thr q).pc ∧ (b.thr p).status = (b.thr q).status then
      { b with cur := p, evlog := [] }
    else { s with cur := p, evlog := [] }.mismatch p 0x12
  else settle i (laneRes i s body)

/-- What an instruction in progress keeps between its issues. -/
def Thread.noPort (th : Thread) : Thread := { th with port := none, mwaitBy := none, issued := none }

/-- It keeps something. -/
def Thread.keeps (th : Thread) : Bool := th.port.isSome || th.mwaitBy.isSome || th.issued.isSome

/-- What reads and the environment port brought for an instruction is dropped when the instruction is over; what reads brought for one
that is parked, when it parks (R311). -/
def State.endIssue (s : State) : State :=
  match s.me.status with
  | .waiting _ => s
  | .parked => s.dropSync (.thread s.cur)
  | _ =>
    let clr (s : State) (t : ThreadId) : State := if (s.thr t).keeps then s.setThr t (s.thr t).noPort else s
    let s := clr (clr s s.cur) { s.cur with sh := true }
    s.dropSync (.thread s.cur)

/-! ### Threads wherever their group is -/


/-- The slot of the group with number `gnum`: the slot it had when the work was issued, or the one it has since. -/
def State.slotOf (s : State) (g : GroupId) (gnum : BitVec 64) : Option GroupId :=
  if (AMap.find s.groups g).any fun x => x.num == gnum && x.st != .retired then some g
  else (s.groups.find? fun e => e.2.num == gnum && e.2.st != .retired && e.1.die == g.die).map (·.1)

/-- A change to a thread of a group, wherever it is; a swapped-out group keeps its threads (R275). -/
def State.onThread (s : State) (t : ThreadId) (gnum : BitVec 64) (f : Thread → Thread) : State :=
  match s.slotOf (gidOf t) gnum with
  | some g =>
    let u : ThreadId := ⟨g.die, g.core, g.slot, t.t, t.sh⟩
    s.setThr u (f (s.thr u))
  | none => { s with outs := s.outs.map fun o =>
      if o.g.num = gnum then { o with thr := o.thr.map fun e => if e.1 = (t.t, t.sh) then (e.1, f e.2) else e } else o }

/-- The other copy of a block pair that is out (R281). -/
def OutGroup.copyOf (x o : OutGroup) : Bool :=
  o.g.shadow == 2 && x.g.shadow == 2 && x.g.launch == o.g.launch && gnoOf x.g.num == gnoOf o.g.num && x.g.isShadow != o.g.isShadow

/-- A thread of a group that is out changes, and the group's lsu view takes counts. -/
def OutGroup.onThr (x : OutGroup) (t : Nat) (v : View) (f : Thread → Thread) : OutGroup :=
  { x with thr := x.thr.map (fun e => if e.1.1 = t then (e.1, f e.2) else e), views := AMap.set x.views 0 (View.max (AMap.getD x.views 0 []) v) }

/-- An answer reaches a thread wherever its group is, its shadow lane, and where `both` is set the thread's twin; they go on. -/
def State.answer (s : State) (t : ThreadId) (gnum : BitVec 64) (both : Bool) (r : PortRes) : State :=
  let f (th : Thread) : Thread :=
    let th : Thread := { th with port := some r }
    match th.status with
    | .waiting _ => th.wakeAt (s.now t.die)
    | _ => th
  let at_ (s : State) (u : ThreadId) : State := s.setThr u (f (s.thr u))
  match s.slotOf (gidOf t) gnum with
  | none => { s with outs := s.outs.map fun o =>
      if o.g.num = gnum || (both && s.outs.any fun x => x.g.num == gnum && o.copyOf x) then o.onThr t.t [] f else o }
  | some g =>
    let u : ThreadId := ⟨g.die, g.core, g.slot, t.t, false⟩
    let x := s.grp g
    let s := at_ s u
    if x.shadow = 1 then at_ s { u with sh := true }
    else match (if both then x.twin else none) with
      | some h => at_ s ⟨h.die, h.core, h.slot, t.t, false⟩
      | none => s

/-! ### Releasing anchors (R167, R169) -/

def EnvSlot.freed (x : EnvSlot) : EnvSlot := { gen := if x.gen = 65535 then 1 else x.gen + 1 }

def State.slot (s : State) (c : CoreId) (k : Nat) : EnvSlot := AMap.getD (s.core c).env k {}
def State.setSlot (s : State) (c : CoreId) (k : Nat) (x : EnvSlot) : State :=
  s.setCore c { s.core c with env := AMap.set (s.core c).env k x }
def State.askPort (s : State) (c : CoreId) (o : EnvOp) : State := s.setCore c { s.core c with envq := (s.core c).envq ++ [o] }

/-- Anchors are numbered over the package's cores. -/
def anchorNo (c : CoreId) (k : Nat) : Nat := (c.die * 64 + c.core) * 1024 + k
def anchorCore (a : Nat) : CoreId := ⟨a / 65536, a / 1024 % 64⟩
def State.anchorAt (s : State) (a : Nat) : EnvSlot := s.slot (anchorCore a) (a % 1024)

/-- The anchors at the head of a list whose level exceeds `lv`, and the anchor that then heads it. -/
def State.above (s : State) (lv : Word) : Nat → Option Nat → List Nat × Option Nat
  | 0, h => ([], h)
  | _ + 1, none => ([], none)
  | k + 1, some a =>
    let x := s.anchorAt a
    if lv < x.level then
      let r := s.above lv k x.link
      (a :: r.1, r.2)
    else ([], some a)

/-- A list of anchors from its head. -/
def State.allAnchors (s : State) : Nat → Option Nat → List Nat
  | 0, _ => []
  | _ + 1, none => []
  | k + 1, some a => a :: State.allAnchors s k (s.anchorAt a).link

/-- The longest list: every slot of the package. -/
def anchorMax : Nat := 262144

/-- Anchors are released at the ports of the cores that hold them, each core's in one operation (R159). A group that has been
restored on another core has left the anchors it made before where they were made. -/
def State.askRelease (s : State) (t : ThreadId) (gnum : BitVec 64) (l : List Nat) : State :=
  (l.map anchorCore).dedup.foldl (fun s c => s.askPort c (.release t gnum (l.filter fun a => anchorCore a = c))) s

/-- A thread whose level has fallen asks for the release of the anchors above it, and issues nothing until that is done
(R169). -/
def State.letGo (s : State) : State :=
  let th := s.me
  let r := s.above th.level anchorMax th.anchor
  if r.1 = [] then s
  else (s.setMe { th with anchor := r.2, status := .waiting .port }).askRelease s.cur s.myGrp.num r.1

/-- What `ret` and `eret` release, where they have changed the level. -/
def State.letGoFrom (s old : State) : State := if s.me.level = old.me.level then s else s.letGo

/-- An exiting thread releases its whole list (R169). -/
def State.letAll (s : State) (t : ThreadId) : State :=
  let th := s.thr t
  match th.anchor with
  | none => s
  | some _ => (s.setThr t { th with anchor := none }).askRelease t (s.grp (gidOf t)).num (s.allAnchors anchorMax th.anchor)

/-- A release that a thread of a group has asked for has still to be performed. -/
def State.releasing (s : State) (t : ThreadId) (gnum : BitVec 64) : Bool :=
  s.cores.any fun e => e.2.envq.any fun o => match o with
    | .release u g _ => u == t && g == gnum
    | .instr _ _ _ _ => false

/-- The interlock of R111: some earlier instruction that can set a flag has not yet written its flags. -/
def flagWait (s : State) : Option Wait :=
  if s.me.vpend.any (·.may) then some .score else (s.me.pend.find? (·.may)).map fun p => .flags p.due

/-- The outcome of an instruction in the lane issuing. -/
def run (i : Instr) (s : State) (body : State → Res) : Host.Outcome State Fault Refusal := .next (issue i s body).endIssue

/-- Loads and atomics of a thread outstanding (R179). -/
def State.outLoads (s : State) (t : ThreadId) : Nat :=
  (s.accs.filter fun e => e.2.owner == .thread t && e.2.counted).length

/-- A commit point (R360): the thread waits until its twin's has agreed; `sig` is what the request adds to the
signature, as a store of its operands would. -/
def commit (s : State) (sig : Nat × List Byte) (k : State → Res) : Res :=
  if s.myGrp.shadow ≠ 2 then k s
  else
    let th := s.me
    if th.atCommit = 2 then
      match k (s.setMe { th with atCommit := 0 }) with
      | .wait s' w => .wait (s'.setMe { s'.me with atCommit := 2 }) w
      | r => r
    else if th.atCommit = 1 then .wait s .twin
    else .wait (s.setMe { th with atCommit := 1, sig := if sig.2 = [] then th.sig else storeSig th.sig sig.1 sig.2
                                  nstores := if sig.2 = [] then th.nstores else th.nstores + 1 }) .twin

/-- This copy of a block pair is the one whose requests the other performs (R360). -/
def State.passive (s : State) : Bool := s.cur.sh || (s.myGrp.shadow == 2 && s.myGrp.isShadow)

/-- The copy of a block pair that is not to perform a request takes its result when the other has it (R360). -/
def passiveResult (s : State) (d : Nat) : Res :=
  match s.me.port with
  | some (.ok rs) => .next (s.give 1 d rs)
  | _ => .wait s .port

/-- The result of a request performed once, with the counts its response brought, reaches the twin thread of a block pair (R161, R245),
wherever the pair is. -/
def State.answerTwin (s : State) (t : ThreadId) (gnum : BitVec 64) (rs : List Reg) (v : View) : State :=
  let f (th : Thread) : Thread :=
    let th : Thread := { th with port := some (.ok rs) }
    if th.status = .waiting .port then th.wakeAt (s.now t.die) else th
  match s.slotOf (gidOf t) gnum with
  | some g => match (s.grp g).twin with
    | some h =>
      let u : ThreadId := ⟨h.die, h.core, h.slot, t.t, false⟩
      (s.setThr u (f (s.thr u))).merge (coreOf u) 0 v
    | none => s
  | none => match s.outs.find? fun o => o.g.num == gnum with
    | some o => { s with outs := s.outs.map fun x => if x.copyOf o then x.onThr t.t v f else x }
    | none => s

/-- A shadow lane follows its primary's outcome (R268, R358). -/
def mirror (s : State) : Res :=
  let p := s.thr { s.cur with sh := false }
  let me := { s.me with bpend := p.bpend, bleft := p.bleft }
  if p.handler && !me.handler then .trap s p.trapcause.toNat p.trapval (p.trappc != me.pc)
  else match p.status with
    | .barrier n => .past (s.setMe { me with status := .barrier n })
    | .waiting w => .wait s w
    | .stopped => .stay (s.setMe { me with status := .stopped })
    | .parked => .stay (s.setMe { me with status := .parked })
    | _ => .next (s.setMe me)

/-- A shadow lane takes its primary's result of variable latency (R358). -/
def mirrorGive (s : State) : Res :=
  match mirror s with
  | .next s => match (s.thr { s.cur with sh := false }).vpend.getLast? with
    | some p => .next (s.setMe (s.me.result (s.now s.cur.die) 0 p))
    | none => .next s
  | r => r

/-- Route redirect limit on its way to the lane issuing (R190). -/
def State.limitHit (s : State) (va : DWord) : State :=
  if s.cur.sh then s else s.setMe { s.me with impr := s.me.impr ++ [(0x0F, va)] }

/-- The destination of a load that has brought nothing: a free value, poisoned (R190, R191). -/
def poisonGive (s : State) (d : Nat) : Res :=
  if s.cur.sh then mirrorGive s else .next (s.fresh.2.give 0 d [{ v := s.fresh.1.setWidth 32, p := true }])

end Sys2Proof.Machine
end

