-- ==== Sys2Proof/Machine/Alu.lean ====
section
/-! DEFINITION. Alu: the integer instructions, immediate loads, compares of registers and operations on predicates
(R91-R94, R109-R120). -/

namespace Sys2Proof.Machine

open Sys2Proof

/-! ### Shapes -/

/-- Two registers to one (R109, R110). -/
def alu2 (i : Instr) (lat : Nat) (d a b : BitVec 7) (s : State) (f : Word → Word → Word) : Host.Outcome State Fault Refusal :=
  run i s fun s =>
    let x := s.readF a.toNat
    let y := s.readF b.toNat
    .next (s.give lat d.toNat [{ v := f x.v y.v, p := x.p || y.p }])

/-- One register to one. -/
def alu1 (i : Instr) (d a : BitVec 7) (s : State) (f : Word → Word) : Host.Outcome State Fault Refusal :=
  run i s fun s =>
    let x := s.readF a.toNat
    .next (s.give 1 d.toNat [{ v := f x.v, p := x.p }])

/-- The second operand of format I (R43, R119). -/
def immOf (ct : Ctl) (i : BitVec 9) : Word :=
  match ct.pfx with
  | some p => (p.immext ++ i).signExtend 32
  | none => i.signExtend 32

/-- A register and an immediate to a register. -/
def aluI (i : Instr) (ct : Ctl) (lat : Nat) (d a : BitVec 7) (im : BitVec 9) (s : State) (f : Word → Word → Word) :
    Host.Outcome State Fault Refusal :=
  run i s fun s =>
    let x := s.readF a.toNat
    .next (s.give lat d.toNat [{ v := f x.v (immOf ct im), p := x.p }])

/-- Two registers and the old destination to the destination (R109). -/
def alu3 (i : Instr) (lat : Nat) (d a b : BitVec 7) (s : State) (f : Word → Word → Word → Word) : Host.Outcome State Fault Refusal :=
  run i s fun s =>
    let x := s.readF a.toNat
    let y := s.readF b.toNat
    let z := s.readF d.toNat
    .next (s.give lat d.toNat [{ v := f x.v y.v z.v, p := x.p || y.p || z.p }])

/-- Register pairs to a pair (R114). -/
def alu64 (i : Instr) (d a b : BitVec 7) (s : State) (f : DWord → DWord → DWord) : Host.Outcome State Fault Refusal :=
  run i s fun s =>
    let x := s.readD a.toNat
    let y := s.readD b.toNat
    .next (s.give 1 d.toNat (pairOf (f x.1 y.1) (x.2 || y.2)))

/-! ### Functions of values -/

def boolWord (b : Bool) : Word := if b then 1 else 0

/-- Bits [63:32] of the signed and unsigned products (R113). -/
def mulHigh (a b : Word) : Word := ((a.signExtend 64 * b.signExtend 64) >>> 32).setWidth 32
def mulHighU (a b : Word) : Word := ((a.setWidth 64 * b.setWidth 64) >>> 32).setWidth 32

/-- Shifts by the full register value (R113). -/
def shlW (a b : Word) : Word := if 32 ≤ b.toNat then 0 else a <<< b.toNat
def shrW (a b : Word) : Word := if 32 ≤ b.toNat then 0 else a >>> b.toNat
def sraW (a b : Word) : Word := if 32 ≤ b.toNat then (if a.msb then 0xFFFFFFFF else 0) else a.sshiftRight b.toNat

/-- `bfx` and `bfi` (R116). -/
def fieldLen (c : Word) : Nat := min (bits c.toNat 8 5 + 1) (32 - bits c.toNat 0 5)
def bfxW (a c : Word) : Word :=
  let n := fieldLen c
  let f := bits a.toNat (bits c.toNat 0 5) n
  if bit c.toNat 16 then BitVec.ofInt 32 (signedOf n f) else BitVec.ofNat 32 f
def bfiW (d a c : Word) : Word :=
  let p := bits c.toNat 0 5
  let n := fieldLen c
  let m : Word := BitVec.ofNat 32 ((2 ^ n - 1) * 2 ^ p)
  (d &&& ~~~ m) ||| (BitVec.ofNat 32 (bits a.toNat 0 n * 2 ^ p))

/-- Signed and unsigned lesser and greater (R113). -/
def minW (a b : Word) : Word := if a.slt b then a else b
def maxW (a b : Word) : Word := if a.slt b then b else a
def minuW (a b : Word) : Word := if a.ult b then a else b
def maxuW (a b : Word) : Word := if a.ult b then b else a

/-- Counts and permutations of bits (R118). -/
def clzW (a : Word) : Word := BitVec.ofNat 32 (32 - bitLen a.toNat)
def ctzW (a : Word) : Word := BitVec.ofNat 32 (((List.range 32).find? fun k => a.getLsbD k).getD 32)
def popcW (a : Word) : Word := BitVec.ofNat 32 ((List.range 32).filter fun k => a.getLsbD k).length
def brevW (a : Word) : Word := (List.range 32).foldl (fun v k => if a.getLsbD k then v ||| BitVec.ofNat 32 (2 ^ (31 - k)) else v) 0
def bswapW (a : Word) : Word := BitVec.ofNat 32 (leNat (leBytes 4 a.toNat).reverse)

/-- The byte dot product of R120. -/
def dp4W (a b d : Word) : Word :=
  let e (v : Word) (k : Nat) : Int := signedOf 8 (bits v.toNat (8 * k) 8)
  BitVec.ofInt 32 ((d.toNat : Int) + e a 0 * e b 0 + e a 1 * e b 1 + e a 2 * e b 2 + e a 3 * e b 3)

/-- The conditions of `cmp` and `cmpi` (R46, R92). -/
def cmpW (cc : Nat) (a b : Word) : Bool :=
  match cc with
  | 0 => a == b
  | 1 => a != b
  | 2 => a.slt b
  | 3 => !a.slt b
  | 4 => a.ult b
  | 5 => !a.ult b
  | 6 => (a &&& b) != 0
  | _ => (a &&& b) == 0

/-! ### Instructions -/

/-- `add` (R113). -/
def execAdd (ct : Ctl) (d a b : BitVec 7) (s : State) : Host.Outcome State Fault Refusal :=
  alu2 (.add ct d a b) 1 d a b s fun a b => a + b

/-- `sub` (R113). -/
def execSub (ct : Ctl) (d a b : BitVec 7) (s : State) : Host.Outcome State Fault Refusal :=
  alu2 (.sub ct d a b) 1 d a b s fun a b => a - b

/-- `mul` (R113). -/
def execMul (ct : Ctl) (d a b : BitVec 7) (s : State) : Host.Outcome State Fault Refusal :=
  alu2 (.mul ct d a b) 3 d a b s fun a b => a * b

/-- `mulh` (R113). -/
def execMulh (ct : Ctl) (d a b : BitVec 7) (s : State) : Host.Outcome State Fault Refusal :=
  alu2 (.mulh ct d a b) 3 d a b s mulHigh

/-- `mulhu` (R113). -/
def execMulhu (ct : Ctl) (d a b : BitVec 7) (s : State) : Host.Outcome State Fault Refusal :=
  alu2 (.mulhu ct d a b) 3 d a b s mulHighU

/-- The quotient or remainder outside the exceptional cases, truncating toward zero (R115). -/
def quotient (sgn wantRem : Bool) (a b : Word) : Word :=
  if sgn then (if wantRem then a.srem b else a.sdiv b) else (if wantRem then a.umod b else a.udiv b)

/-- `div`, `divu`, `rem` and `remu` (R62, R115). -/
def divide (i : Instr) (ct : Ctl) (sgn wantRem : Bool) (d a b : BitVec 7) (s : State) : Host.Outcome State Fault Refusal :=
  run i s fun s =>
    let x := s.readF a.toNat
    let y := s.readF b.toNat
    match divCase sgn x.v y.v with
    | some (q, r, fl) =>
      if s.myGrp.inttrap then .trap s 0x15 (y.v ++ x.v) false
      else .next (s.give 0 d.toNat [{ v := if wantRem then r else q, p := x.p || y.p }] (keepFlags ct fl) (mayFlag ct))
    | none => .next (s.give 0 d.toNat [{ v := quotient sgn wantRem x.v y.v, p := x.p || y.p }] 0 (mayFlag ct))

/-- `div` (R62, R115). -/
def execDiv (ct : Ctl) (d a b : BitVec 7) (s : State) : Host.Outcome State Fault Refusal :=
  divide (.div ct d a b) ct true false d a b s

/-- `divu` (R62, R115). -/
def execDivu (ct : Ctl) (d a b : BitVec 7) (s : State) : Host.Outcome State Fault Refusal :=
  divide (.divu ct d a b) ct false false d a b s

/-- `rem` (R62, R115). -/
def execRem (ct : Ctl) (d a b : BitVec 7) (s : State) : Host.Outcome State Fault Refusal :=
  divide (.rem ct d a b) ct true true d a b s

/-- `remu` (R62, R115). -/
def execRemu (ct : Ctl) (d a b : BitVec 7) (s : State) : Host.Outcome State Fault Refusal :=
  divide (.remu ct d a b) ct false true d a b s

/-- `and` (R113). -/
def execAnd (ct : Ctl) (d a b : BitVec 7) (s : State) : Host.Outcome State Fault Refusal :=
  alu2 (.and ct d a b) 1 d a b s fun a b => a &&& b

/-- `or` (R113). -/
def execOr (ct : Ctl) (d a b : BitVec 7) (s : State) : Host.Outcome State Fault Refusal :=
  alu2 (.or ct d a b) 1 d a b s fun a b => a ||| b

/-- `xor` (R113). -/
def execXor (ct : Ctl) (d a b : BitVec 7) (s : State) : Host.Outcome State Fault Refusal :=
  alu2 (.xor ct d a b) 1 d a b s fun a b => a ^^^ b

/-- `andn` (R113). -/
def execAndn (ct : Ctl) (d a b : BitVec 7) (s : State) : Host.Outcome State Fault Refusal :=
  alu2 (.andn ct d a b) 1 d a b s fun a b => a &&& ~~~ b

/-- `shl` (R113). -/
def execShl (ct : Ctl) (d a b : BitVec 7) (s : State) : Host.Outcome State Fault Refusal :=
  alu2 (.shl ct d a b) 1 d a b s shlW

/-- `shr` (R113). -/
def execShr (ct : Ctl) (d a b : BitVec 7) (s : State) : Host.Outcome State Fault Refusal :=
  alu2 (.shr ct d a b) 1 d a b s shrW

/-- `sra` (R113). -/
def execSra (ct : Ctl) (d a b : BitVec 7) (s : State) : Host.Outcome State Fault Refusal :=
  alu2 (.sra ct d a b) 1 d a b s sraW

/-- `rol` (R113). -/
def execRol (ct : Ctl) (d a b : BitVec 7) (s : State) : Host.Outcome State Fault Refusal :=
  alu2 (.rol ct d a b) 1 d a b s fun a b => a.rotateLeft (b.toNat % 32)

/-- `min` (R113). -/
def execMin (ct : Ctl) (d a b : BitVec 7) (s : State) : Host.Outcome State Fault Refusal :=
  alu2 (.min ct d a b) 1 d a b s minW

/-- `max` (R113). -/
def execMax (ct : Ctl) (d a b : BitVec 7) (s : State) : Host.Outcome State Fault Refusal :=
  alu2 (.max ct d a b) 1 d a b s maxW

/-- `minu` (R113). -/
def execMinu (ct : Ctl) (d a b : BitVec 7) (s : State) : Host.Outcome State Fault Refusal :=
  alu2 (.minu ct d a b) 1 d a b s minuW

/-- `maxu` (R113). -/
def execMaxu (ct : Ctl) (d a b : BitVec 7) (s : State) : Host.Outcome State Fault Refusal :=
  alu2 (.maxu ct d a b) 1 d a b s maxuW

/-- `mad` (R113). -/
def execMad (ct : Ctl) (d a b : BitVec 7) (s : State) : Host.Outcome State Fault Refusal :=
  alu3 (.mad ct d a b) 3 d a b s fun a b c => a * b + c

/-- `bfx` (R116). -/
def execBfx (ct : Ctl) (d a b : BitVec 7) (s : State) : Host.Outcome State Fault Refusal :=
  alu2 (.bfx ct d a b) 1 d a b s bfxW

/-- `bfi` (R116). -/
def execBfi (ct : Ctl) (d a b : BitVec 7) (s : State) : Host.Outcome State Fault Refusal :=
  alu3 (.bfi ct d a b) 1 d a b s fun a c z => bfiW z a c

/-- `sel` (R117): the guard is the selector, and poison follows the register selected (R110). -/
def execSel (ct : Ctl) (d a b : BitVec 7) (s : State) : Host.Outcome State Fault Refusal :=
  run (.sel ct d a b) s fun s =>
    .next (s.give 1 d.toNat [if guardTrue s.me ct then s.readF a.toNat else s.readF b.toNat])

/-- `add64` (R114). -/
def execAdd64 (ct : Ctl) (d a b : BitVec 7) (s : State) : Host.Outcome State Fault Refusal :=
  alu64 (.add64 ct d a b) d a b s fun a b => a + b

/-- `sub64` (R114). -/
def execSub64 (ct : Ctl) (d a b : BitVec 7) (s : State) : Host.Outcome State Fault Refusal :=
  alu64 (.sub64 ct d a b) d a b s fun a b => a - b

/-- `slt` (R113). -/
def execSlt (ct : Ctl) (d a b : BitVec 7) (s : State) : Host.Outcome State Fault Refusal :=
  alu2 (.slt ct d a b) 1 d a b s fun a b => boolWord (a.slt b)

/-- `sltu` (R113). -/
def execSltu (ct : Ctl) (d a b : BitVec 7) (s : State) : Host.Outcome State Fault Refusal :=
  alu2 (.sltu ct d a b) 1 d a b s fun a b => boolWord (a.ult b)

/-- `seq` (R113). -/
def execSeq (ct : Ctl) (d a b : BitVec 7) (s : State) : Host.Outcome State Fault Refusal :=
  alu2 (.seq ct d a b) 1 d a b s fun a b => boolWord (a == b)

/-- `mov` (R118). -/
def execMov (ct : Ctl) (d a : BitVec 7) (s : State) : Host.Outcome State Fault Refusal :=
  alu1 (.mov ct d a) d a s fun a => a

/-- `not` (R118). -/
def execNot (ct : Ctl) (d a : BitVec 7) (s : State) : Host.Outcome State Fault Refusal :=
  alu1 (.not ct d a) d a s fun a => ~~~ a

/-- `neg` (R118). -/
def execNeg (ct : Ctl) (d a : BitVec 7) (s : State) : Host.Outcome State Fault Refusal :=
  alu1 (.neg ct d a) d a s fun a => 0 - a

/-- `abs` (R118). -/
def execAbs (ct : Ctl) (d a : BitVec 7) (s : State) : Host.Outcome State Fault Refusal :=
  alu1 (.abs ct d a) d a s fun a => if a.msb then 0 - a else a

/-- `clz` (R118). -/
def execClz (ct : Ctl) (d a : BitVec 7) (s : State) : Host.Outcome State Fault Refusal :=
  alu1 (.clz ct d a) d a s clzW

/-- `ctz` (R118). -/
def execCtz (ct : Ctl) (d a : BitVec 7) (s : State) : Host.Outcome State Fault Refusal :=
  alu1 (.ctz ct d a) d a s ctzW

/-- `popc` (R118). -/
def execPopc (ct : Ctl) (d a : BitVec 7) (s : State) : Host.Outcome State Fault Refusal :=
  alu1 (.popc ct d a) d a s popcW

/-- `brev` (R118). -/
def execBrev (ct : Ctl) (d a : BitVec 7) (s : State) : Host.Outcome State Fault Refusal :=
  alu1 (.brev ct d a) d a s brevW

/-- `sext8` (R118). -/
def execSext8 (ct : Ctl) (d a : BitVec 7) (s : State) : Host.Outcome State Fault Refusal :=
  alu1 (.sext8 ct d a) d a s fun a => (a.setWidth 8).signExtend 32

/-- `sext16` (R118). -/
def execSext16 (ct : Ctl) (d a : BitVec 7) (s : State) : Host.Outcome State Fault Refusal :=
  alu1 (.sext16 ct d a) d a s fun a => (a.setWidth 16).signExtend 32

/-- `zext8` (R118). -/
def execZext8 (ct : Ctl) (d a : BitVec 7) (s : State) : Host.Outcome State Fault Refusal :=
  alu1 (.zext8 ct d a) d a s fun a => (a.setWidth 8).setWidth 32

/-- `zext16` (R118). -/
def execZext16 (ct : Ctl) (d a : BitVec 7) (s : State) : Host.Outcome State Fault Refusal :=
  alu1 (.zext16 ct d a) d a s fun a => (a.setWidth 16).setWidth 32

/-- `bswap` (R118). -/
def execBswap (ct : Ctl) (d a : BitVec 7) (s : State) : Host.Outcome State Fault Refusal :=
  alu1 (.bswap ct d a) d a s bswapW

/-- `mov64` (R118). -/
def execMov64 (ct : Ctl) (d a : BitVec 7) (s : State) : Host.Outcome State Fault Refusal :=
  run (.mov64 ct d a) s fun s =>
    let x := s.readD a.toNat
    .next (s.give 1 d.toNat (pairOf x.1 x.2))

/-- `addi` (R119). -/
def execAddi (ct : Ctl) (d a : BitVec 7) (i : BitVec 9) (s : State) : Host.Outcome State Fault Refusal :=
  aluI (.addi ct d a i) ct 1 d a i s fun a y => a + y

/-- `andi` (R119). -/
def execAndi (ct : Ctl) (d a : BitVec 7) (i : BitVec 9) (s : State) : Host.Outcome State Fault Refusal :=
  aluI (.andi ct d a i) ct 1 d a i s fun a y => a &&& y

/-- `ori` (R119). -/
def execOri (ct : Ctl) (d a : BitVec 7) (i : BitVec 9) (s : State) : Host.Outcome State Fault Refusal :=
  aluI (.ori ct d a i) ct 1 d a i s fun a y => a ||| y

/-- `xori` (R119). -/
def execXori (ct : Ctl) (d a : BitVec 7) (i : BitVec 9) (s : State) : Host.Outcome State Fault Refusal :=
  aluI (.xori ct d a i) ct 1 d a i s fun a y => a ^^^ y

/-- `shli` (R119). -/
def execShli (ct : Ctl) (d a : BitVec 7) (i : BitVec 9) (s : State) : Host.Outcome State Fault Refusal :=
  aluI (.shli ct d a i) ct 1 d a i s shlW

/-- `shri` (R119). -/
def execShri (ct : Ctl) (d a : BitVec 7) (i : BitVec 9) (s : State) : Host.Outcome State Fault Refusal :=
  aluI (.shri ct d a i) ct 1 d a i s shrW

/-- `srai` (R119). -/
def execSrai (ct : Ctl) (d a : BitVec 7) (i : BitVec 9) (s : State) : Host.Outcome State Fault Refusal :=
  aluI (.srai ct d a i) ct 1 d a i s sraW

/-- `muli` (R119). -/
def execMuli (ct : Ctl) (d a : BitVec 7) (i : BitVec 9) (s : State) : Host.Outcome State Fault Refusal :=
  aluI (.muli ct d a i) ct 3 d a i s fun a y => a * y

/-- `slti` (R119). -/
def execSlti (ct : Ctl) (d a : BitVec 7) (i : BitVec 9) (s : State) : Host.Outcome State Fault Refusal :=
  aluI (.slti ct d a i) ct 1 d a i s fun a y => boolWord (a.slt y)

/-- `sltui` (R119). -/
def execSltui (ct : Ctl) (d a : BitVec 7) (i : BitVec 9) (s : State) : Host.Outcome State Fault Refusal :=
  aluI (.sltui ct d a i) ct 1 d a i s fun a y => boolWord (a.ult y)

/-- `seqi` (R119). -/
def execSeqi (ct : Ctl) (d a : BitVec 7) (i : BitVec 9) (s : State) : Host.Outcome State Fault Refusal :=
  aluI (.seqi ct d a i) ct 1 d a i s fun a y => boolWord (a == y)

/-- `mini` (R119). -/
def execMini (ct : Ctl) (d a : BitVec 7) (i : BitVec 9) (s : State) : Host.Outcome State Fault Refusal :=
  aluI (.mini ct d a i) ct 1 d a i s minW

/-- `maxi` (R119). -/
def execMaxi (ct : Ctl) (d a : BitVec 7) (i : BitVec 9) (s : State) : Host.Outcome State Fault Refusal :=
  aluI (.maxi ct d a i) ct 1 d a i s maxW

/-- `li` (R91, R43). -/
def execLi (ct : Ctl) (d : BitVec 7) (i : BitVec 18) (s : State) : Host.Outcome State Fault Refusal :=
  run (.li ct d i) s fun s =>
    let v : Word := match ct.pfx with
      | some p => (p.immext ++ i).signExtend 32
      | none => i.signExtend 32
    .next (s.give 1 d.toNat [{ v }])

/-- `lih` (R91): bits [31:14] of x[d]; the others, and the register's poison, stay. -/
def execLih (ct : Ctl) (d : BitVec 7) (i : BitVec 18) (s : State) : Host.Outcome State Fault Refusal :=
  run (.lih ct d i) s fun s =>
    let x := s.readF d.toNat
    .next (s.give 1 d.toNat [{ v := i ++ x.v.setWidth 14, p := x.p }])

/-- `cmp` (R92); a poisoned source is consumed (R110). -/
def execCmp (ct : Ctl) (p : BitVec 4) (c : BitVec 3) (a b : BitVec 7) (s : State) : Host.Outcome State Fault Refusal :=
  run (.cmp ct p c a b) s fun s =>
    let x := s.readF a.toNat
    let y := s.readF b.toNat
    if x.p || y.p then .consume s else .next (s.giveP 1 p.toNat (cmpW c.toNat x.v y.v))

/-- `cmpi` (R92). -/
def execCmpi (ct : Ctl) (p : BitVec 4) (c : BitVec 3) (a : BitVec 7) (i : BitVec 9) (s : State) : Host.Outcome State Fault Refusal :=
  run (.cmpi ct p c a i) s fun s =>
    let x := s.readF a.toNat
    if x.p then .consume s else .next (s.giveP 1 p.toNat (cmpW c.toNat x.v (immOf ct i)))

/-- An operation on predicates (R93). -/
def predOp (i : Instr) (d : BitVec 4) (s : State) (f : Thread → Bool) : Host.Outcome State Fault Refusal :=
  run i s fun s => .next (s.giveP 1 d.toNat (f s.me))

/-- `pand` (R93). -/
def execPand (ct : Ctl) (d p q : BitVec 4) (s : State) : Host.Outcome State Fault Refusal :=
  predOp (.pand ct d p q) d s fun th => th.pred p.toNat && th.pred q.toNat

/-- `por` (R93). -/
def execPor (ct : Ctl) (d p q : BitVec 4) (s : State) : Host.Outcome State Fault Refusal :=
  predOp (.por ct d p q) d s fun th => th.pred p.toNat || th.pred q.toNat

/-- `pxor` (R93). -/
def execPxor (ct : Ctl) (d p q : BitVec 4) (s : State) : Host.Outcome State Fault Refusal :=
  predOp (.pxor ct d p q) d s fun th => th.pred p.toNat != th.pred q.toNat

/-- `pandn` (R93). -/
def execPandn (ct : Ctl) (d p q : BitVec 4) (s : State) : Host.Outcome State Fault Refusal :=
  predOp (.pandn ct d p q) d s fun th => th.pred p.toNat && !th.pred q.toNat

/-- `porn` (R93). -/
def execPorn (ct : Ctl) (d p q : BitVec 4) (s : State) : Host.Outcome State Fault Refusal :=
  predOp (.porn ct d p q) d s fun th => th.pred p.toNat || !th.pred q.toNat

/-- `pmv` (R93). -/
def execPmv (ct : Ctl) (d p : BitVec 4) (s : State) : Host.Outcome State Fault Refusal :=
  predOp (.pmv ct d p) d s fun th => th.pred p.toNat

/-- `pnot` (R93). -/
def execPnot (ct : Ctl) (d p : BitVec 4) (s : State) : Host.Outcome State Fault Refusal :=
  predOp (.pnot ct d p) d s fun th => !th.pred p.toNat

/-- `pset` (R93). -/
def execPset (ct : Ctl) (d : BitVec 4) (s : State) : Host.Outcome State Fault Refusal :=
  predOp (.pset ct d) d s fun _ => true

/-- `pclr` (R93). -/
def execPclr (ct : Ctl) (d : BitVec 4) (s : State) : Host.Outcome State Fault Refusal :=
  predOp (.pclr ct d) d s fun _ => false

/-- `pmov xd` (R94): the predicate image. -/
def execPmovToRegister (ct : Ctl) (d : BitVec 7) (s : State) : Host.Outcome State Fault Refusal :=
  run (.pmovToRegister ct d) s fun s => .next (s.give 1 d.toNat [{ v := (predImage s.me).setWidth 32 }])

/-- `pmov xa` (R94): predicates 1 to 15 receive bits 1 to 15. A poisoned register gives its bits, for predicates carry
no poison (R135, R357; log entry 11). -/
def execPmovFromRegister (ct : Ctl) (a : BitVec 7) (s : State) : Host.Outcome State Fault Refusal :=
  run (.pmovFromRegister ct a) s fun s =>
    let v := (s.readF a.toNat).v
    .next (s.setMe (s.me.result (s.now s.cur.die) 1 { preds := allPreds.map fun n => (n, v.getLsbD n) }))

/-- `dp4` (R120). -/
def execDp4 (ct : Ctl) (d a b : BitVec 7) (s : State) : Host.Outcome State Fault Refusal :=
  alu3 (.dp4 ct d a b) 3 d a b s dp4W

end Sys2Proof.Machine
end

