-- ==== Sys2Proof/Machine/Float.lean ====
section
/-! DEFINITION. Float: the floating-point operations on encodings, with their flags (R52-R60, R121-R129). -/

namespace Sys2Proof.Machine

open Sys2Proof

def FVal.isNan : FVal → Bool
  | .nan _ => true
  | _ => false
def FVal.isSig : FVal → Bool
  | .nan s => s
  | _ => false
def FVal.neg : FVal → FVal
  | .nan s => .nan s
  | .inf n => .inf (!n)
  | .fin n m e => .fin (!n) m e
def FVal.isNeg : FVal → Bool
  | .nan _ => false
  | .inf n => n
  | .fin n _ _ => n
def FVal.isZero : FVal → Bool
  | .fin _ m _ => m == 0
  | _ => false

/-- A NaN result: invalid where an operand is signalling (R52). -/
def nanOf (f : FFmt) (l : List FVal) : Nat × Fl := (FFmt.nan f, if l.any FVal.isSig then flInvalid else 0)

/-- A signed dyadic scaled to an exponent no greater than its own. -/
def scaled (neg : Bool) (m : Nat) (e q : Int) : Int :=
  let v : Int := (m * 2 ^ (e - q).toNat : Nat)
  if neg then -v else v

/-- Sum of two finite values (R55, R122). -/
def addFin (f : FFmt) (rm : BitVec 2) (fzo : Bool) (n1 : Bool) (m1 : Nat) (e1 : Int) (n2 : Bool) (m2 : Nat) (e2 : Int) : Nat × Fl :=
  let q := if e1 ≤ e2 then e1 else e2
  let v := scaled n1 m1 e1 q + scaled n2 m2 e2 q
  if v = 0 then (FFmt.signBit f (if m1 = 0 ∧ m2 = 0 ∧ n1 = n2 then n1 else rm = 2), 0)
  else FFmt.round f rm fzo (decide (v < 0)) v.natAbs q false

/-- a + b (R122). -/
def fAdd (f : FFmt) (rm : BitVec 2) (fzo : Bool) (a b : FVal) : Nat × Fl :=
  if a.isNan || b.isNan then nanOf f [a, b]
  else match a, b with
    | .inf n, .inf k => if n = k then (FFmt.infBits f n, 0) else (FFmt.nan f, flInvalid)
    | .inf n, _ => (FFmt.infBits f n, 0)
    | _, .inf n => (FFmt.infBits f n, 0)
    | .fin n1 m1 e1, .fin n2 m2 e2 => addFin f rm fzo n1 m1 e1 n2 m2 e2
    | _, _ => (FFmt.nan f, 0)

/-- a × b (R122). -/
def fMul (f : FFmt) (rm : BitVec 2) (fzo : Bool) (a b : FVal) : Nat × Fl :=
  if a.isNan || b.isNan then nanOf f [a, b]
  else match a, b with
    | .inf n, .inf k => (FFmt.infBits f (n != k), 0)
    | .inf n, .fin k m _ => if m = 0 then (FFmt.nan f, flInvalid) else (FFmt.infBits f (n != k), 0)
    | .fin n m _, .inf k => if m = 0 then (FFmt.nan f, flInvalid) else (FFmt.infBits f (n != k), 0)
    | .fin n1 m1 e1, .fin n2 m2 e2 => FFmt.round f rm fzo (n1 != n2) (m1 * m2) (e1 + e2) false
    | _, _ => (FFmt.nan f, 0)

/-- a × b + d, rounded once (R121, R122). -/
def fFma (f : FFmt) (rm : BitVec 2) (fzo : Bool) (a b d : FVal) : Nat × Fl :=
  if a.isSig || b.isSig || d.isSig then (FFmt.nan f, flInvalid)
  else
    let zi : Bool := match a, b with
      | .inf _, .fin _ m _ => m == 0
      | .fin _ m _, .inf _ => m == 0
      | _, _ => false
    if zi then (FFmt.nan f, flInvalid)
    else if a.isNan || b.isNan || d.isNan then (FFmt.nan f, 0)
    else
      let pn := a.isNeg != b.isNeg
      match a, b, d with
      | .fin _ m1 e1, .fin _ m2 e2, .fin n3 m3 e3 => addFin f rm fzo pn (m1 * m2) (e1 + e2) n3 m3 e3
      | .fin _ _ _, .fin _ _ _, .inf n => (FFmt.infBits f n, 0)
      | _, _, .inf n => if n = pn then (FFmt.infBits f n, 0) else (FFmt.nan f, flInvalid)
      | _, _, _ => (FFmt.infBits f pn, 0)

/-- a / b (R122): the quotient carries bits enough that one rounding is exact. -/
def fDiv (f : FFmt) (rm : BitVec 2) (fzo : Bool) (a b : FVal) : Nat × Fl :=
  if a.isNan || b.isNan then nanOf f [a, b]
  else
    let n := a.isNeg != b.isNeg
    match a, b with
    | .inf _, .inf _ => (FFmt.nan f, flInvalid)
    | .inf _, _ => (FFmt.infBits f n, 0)
    | _, .inf _ => (FFmt.signBit f n, 0)
    | .fin _ m1 e1, .fin _ m2 e2 =>
      if m2 = 0 then (if m1 = 0 then (FFmt.nan f, flInvalid) else (FFmt.infBits f n, flDivZero))
      else if m1 = 0 then (FFmt.signBit f n, 0)
      else
        let k := 2 * f.fw + 8
        FFmt.round f rm fzo n (m1 * 2 ^ k / m2) (e1 - e2 - k) (m1 * 2 ^ k % m2 != 0)
    | _, _ => (FFmt.nan f, 0)

/-- √a (R122). -/
def fSqrt (f : FFmt) (rm : BitVec 2) (fzo : Bool) (a : FVal) : Nat × Fl :=
  match a with
  | .nan s => (FFmt.nan f, if s then flInvalid else 0)
  | .inf n => if n then (FFmt.nan f, flInvalid) else (FFmt.infBits f false, 0)
  | .fin n m e =>
    if m = 0 then (FFmt.signBit f n, 0)
    else if n then (FFmt.nan f, flInvalid)
    else
      let k := 2 * f.fw + 8 + (e % 2).toNat
      let x := m * 2 ^ k
      let r := Nat.sqrt x
      FFmt.round f rm fzo false r ((e - k) / 2) (r * r != x)

/-- The order of two numbers, -0 equal to +0. -/
def fCompare (a b : FVal) : Ordering :=
  match a, b with
  | .inf n, .inf k => if n = k then .eq else if n then .lt else .gt
  | .inf n, _ => if n then .lt else .gt
  | _, .inf n => if n then .gt else .lt
  | .fin n1 m1 e1, .fin n2 m2 e2 =>
    let q := if e1 ≤ e2 then e1 else e2
    compare (scaled n1 m1 e1 q) (scaled n2 m2 e2 q)
  | _, _ => .eq

/-- A value delivered without arithmetic. -/
def deliver (f : FFmt) (fzo : Bool) (a : FVal) : Nat × Fl :=
  match a with
  | .nan _ => (FFmt.nan f, 0)
  | .inf n => (FFmt.infBits f n, 0)
  | .fin n m e => FFmt.round f 0 fzo n m e false

/-- The lesser or greater, -0 below +0 (R123). -/
def fMinMax (f : FFmt) (fzo mx : Bool) (a b : FVal) : Nat × Fl :=
  let fl : Fl := if a.isSig || b.isSig then flInvalid else 0
  if a.isNan && b.isNan then (FFmt.nan f, fl)
  else if a.isNan then ((deliver f fzo b).1, (deliver f fzo b).2 ||| fl)
  else if b.isNan then ((deliver f fzo a).1, (deliver f fzo a).2 ||| fl)
  else
    let aLess := match fCompare a b with
      | .lt => true
      | .gt => false
      | .eq => a.isNeg
    deliver f fzo (if aLess != mx then a else b)

/-- |a| and -a: only the sign bit changes; no flag but fzo's (R124, R125). -/
def fSign (f : FFmt) (fzo flip : Bool) (a : FVal) : Nat × Fl :=
  match a with
  | .nan _ => (FFmt.nan f, 0)
  | .inf n => (FFmt.infBits f (flip && !n), 0)
  | .fin n m e => FFmt.round f 0 fzo (flip && !n) m e false

/-- A finite value rounded to an integer: its magnitude, and whether that was exact. -/
def roundInt (rm : BitVec 2) (neg : Bool) (m : Nat) (e : Int) : Nat × Bool := roundAt rm neg m e false 0

/-- `ffloor`, `fceil`, `ftrunc` (never inexact) and `frint` (R125). -/
def fIntegral (f : FFmt) (rm : BitVec 2) (inx : Bool) (a : FVal) : Nat × Fl :=
  match a with
  | .nan s => (FFmt.nan f, if s then flInvalid else 0)
  | .inf n => (FFmt.infBits f n, 0)
  | .fin n m e =>
    let (v, exact) := roundInt rm n m e
    ((FFmt.round f 0 false n v 0 false).1, if inx && !exact then flInexact else 0)

/-- The class mask of R126. -/
def fClass (f : FFmt) (a : FVal) : Nat :=
  match a with
  | .nan s => if s then 256 else 512
  | .inf n => if n then 1 else 128
  | .fin n m _ =>
    if m = 0 then (if n then 8 else 16)
    else if m < 2 ^ f.fw then (if n then 4 else 32)
    else if n then 2 else 64

/-! ### Conversions (R58-R60) -/

/-- To a 32-bit integer, signed or not (R58). -/
def fToInt (rm : BitVec 2) (sgn : Bool) (a : FVal) : Nat × Fl :=
  let hi : Int := if sgn then 0x7FFFFFFF else 0xFFFFFFFF
  let lo : Int := if sgn then -0x80000000 else 0
  match a with
  | .nan _ => (0, flInvalid)
  | .inf n => (ofInt 32 (if n then lo else hi), flInvalid)
  | .fin n m e =>
    let (v, exact) := roundInt rm n m e
    let x : Int := if n then -(v : Int) else v
    if x > hi then (ofInt 32 hi, flInvalid)
    else if x < lo then (ofInt 32 lo, flInvalid)
    else (ofInt 32 x, if exact then 0 else flInexact)

/-- From an integer (R58). -/
def intToF (f : FFmt) (rm : BitVec 2) (fzo : Bool) (v : Int) : Nat × Fl := FFmt.round f rm fzo (decide (v < 0)) v.natAbs 0 false

/-- Between formats (R59): a signalling NaN sets invalid. -/
def fConvert (g : FFmt) (rm : BitVec 2) (fzo : Bool) (a : FVal) : Nat × Fl :=
  match a with
  | .nan s => (FFmt.nan g, if s then flInvalid else 0)
  | .inf n => (FFmt.infBits g n, 0)
  | .fin n m e => FFmt.round g rm fzo n m e false

/-- To E4M3 (saturating or not) or E5M2 (saturating), each element rounded by rm (R60). -/
def fTo8 (g : FFmt) (sat : Bool) (rm : BitVec 2) (a : FVal) : Nat × Fl :=
  let is4 := g == e4m3
  let s (n : Bool) : Nat := if n then 128 else 0
  let most : Nat := if is4 then 0x7E else 0x7B
  match a with
  | .nan sg => (if is4 then 0x7F else 0x7E, if sg then flInvalid else 0)
  | .inf n => if sat then (s n + most, flOverflow ||| flInexact) else (0x7F, flInvalid)
  | .fin n m e =>
    if m = 0 then (s n, 0)
    else
      let (h, q, exact, tiny) := roundMag g.fw (FFmt.emin g) rm n m e false
      let (h, q) := if h = 2 ^ (g.fw + 1) then (2 ^ g.fw, q + 1) else (h, q)
      let x := q - FFmt.emin g + 1
      let v : Int := if h < 2 ^ g.fw then h else x * 2 ^ g.fw + (h - 2 ^ g.fw : Nat)
      if v > most then (if sat then s n + most else 0x7F, flOverflow ||| flInexact)
      else (s n + v.toNat, (if exact then 0 else flInexact) ||| if tiny && !exact then flUnderflow else 0)

/-! ### Compare (R129) -/

/-- The condition and its flags. -/
def fCmp (cc : Nat) (a b : FVal) : Bool × Fl :=
  let nan := a.isNan || b.isNan
  let sig : Fl := if a.isSig || b.isSig then flInvalid else 0
  let any : Fl := if nan then flInvalid else 0
  let o := fCompare a b
  match cc with
  | 0 => (!nan && o == .eq, sig)
  | 1 => (nan || o != .eq, sig)
  | 2 => (!nan && o == .lt, any)
  | 3 => (!nan && o != .gt, any)
  | 4 => (!nan && o == .gt, any)
  | 5 => (!nan && o != .lt, any)
  | 6 => (nan, sig)
  | _ => (!nan, sig)

/-! ### Special functions (R127) -/

/-- The real number an encoding of binary32 stands for, 0 for an infinity or a NaN. -/
noncomputable def realOf (v : BitVec 32) : ℝ :=
  match FFmt.decode f32 false v.toNat with
  | .fin n m e => (if n then -1 else 1) * (m : ℝ) * (2 : ℝ) ^ e
  | _ => 0

/-- The exact function of a code of R127. -/
noncomputable def exactFun (code : Nat) (a : ℝ) : ℝ :=
  match code with
  | 2 => 1 / a
  | 3 => 1 / Real.sqrt a
  | 4 => (2 : ℝ) ^ a
  | 5 => Real.logb 2 a
  | 6 => Real.sin (Real.pi * a)
  | 7 => Real.cos (Real.pi * a)
  | _ => Real.tanh a

/-- One ulp of a nonzero real in binary32 (R54). -/
noncomputable def ulp32 (y : ℝ) : ℝ := (2 : ℝ) ^ (max (Int.log 2 |y|) (-126) - 23)

/-- The bound of R127: where the exact result is finite and normal, `r` lies within 1 ulp (`frcp`) or 2 ulp of it. -/
def InBound (code : Nat) (x r : BitVec 32) : Prop :=
  let y := exactFun code (realOf x)
  (2 : ℝ) ^ (-126 : ℤ) ≤ |y| ∧ |y| < (2 : ℝ) ^ (128 : ℤ) →
    bits r.toNat 23 8 ≠ 255 ∧ |realOf r - y| ≤ (if code = 2 then 1 else 2) * ulp32 y

open Classical in
/-- A result within the bound of R127: the free value where it lies there, else some value that does (log entry 9). -/
noncomputable def approxIn (code : Nat) (x : BitVec 32) : BitVec 32 :=
  if InBound code x (Config.approx code x) then Config.approx code x else Classical.epsilon (InBound code x)

/-- m × 2^e as an integer, if it is one. -/
def asInt (n : Bool) (m : Nat) (e : Int) : Option Int :=
  let v : Option Nat := if 0 ≤ e then some (m * 2 ^ e.toNat) else if m % 2 ^ (-e).toNat = 0 then some (m / 2 ^ (-e).toNat) else none
  v.map fun v => if n then -(v : Int) else v

/-- The exponent of a power of two. -/
def asPow2 (m : Nat) (e : Int) : Option Int := if m = 2 ^ Nat.log2 m then some (Nat.log2 m + e) else none

/-- Twice m × 2^e as an odd integer: n + 0.5. -/
def asHalf (n : Bool) (m : Nat) (e : Int) : Option Int := (asInt n m (e + 1)).bind fun v => if v % 2 = 1 then some ((v - 1) / 2) else none

/-- 2^k in binary32, within its range. -/
def pow2Bits (neg : Bool) (k : Int) : Nat := (FFmt.round f32 0 false neg 1 k false).1

/-- The exact special results and flags of R127's table; none where the manual gives the bound alone. -/
def funCase (code : Nat) (a : FVal) : Option (Nat × Fl) :=
  let inf (n : Bool) : Nat := FFmt.infBits f32 n
  let zero (n : Bool) : Nat := FFmt.signBit f32 n
  let nan : Nat := FFmt.nan f32
  match a with
  | .nan s => some (nan, if s then flInvalid else 0)
  | .inf n => match code with
    | 2 => some (zero n, 0)
    | 3 => some (if n then (nan, flInvalid) else (zero false, 0))
    | 4 => some (if n then zero false else inf false, 0)
    | 5 => some (if n then (nan, flInvalid) else (inf false, 0))
    | 6 => some (nan, flInvalid)
    | 7 => some (nan, flInvalid)
    | _ => some (pow2Bits n 0, 0)
  | .fin n m e => match code with
    | 2 =>
      if m = 0 then some (inf n, flDivZero)
      else match asPow2 m e with
        | some k => if -k > 127 then some (inf n, flOverflow ||| flInexact) else some (pow2Bits n (-k), 0)
        | none =>
          -- 1/a exceeds (2^24 - 1) × 2^104
          if decide (m * (2 ^ 24 - 1) * 2 ^ (e + 104 + 400).toNat < 2 ^ 400) then some (inf n, flOverflow ||| flInexact) else none
    | 3 =>
      if m = 0 then some (inf n, flDivZero)
      else if n then some (nan, flInvalid)
      else match asPow2 m e with
        | some k => if k % 2 = 0 then some (pow2Bits false (-(k / 2)), 0) else none
        | none => none
    | 4 =>
      if m = 0 then some (pow2Bits false 0, 0)
      else match fCompare a (.fin false 128 0), fCompare a (.fin true 150 0) with
        | .lt, .lt => some (zero false, flUnderflow ||| flInexact)
        | .lt, _ => (asInt n m e).bind fun k => if -149 ≤ k then some (pow2Bits false k, 0) else none
        | _, _ => some (inf false, flOverflow ||| flInexact)
    | 5 =>
      if m = 0 then some (inf true, flDivZero)
      else if n then some (nan, flInvalid)
      else (asPow2 m e).map fun k => intToF f32 0 false k
    | 6 =>
      match asInt n m e with
      | some _ => some (zero n, 0)
      | none => (asHalf n m e).map fun k => (pow2Bits (k % 2 = 1) 0, 0)
    | 7 =>
      match asInt n m e with
      | some k => some (pow2Bits (k % 2 = 1) 0, 0)
      | none => (asHalf n m e).map fun _ => (zero false, 0)
    | _ =>
      if m = 0 then some (zero n, 0)
      else match fCompare (.fin false m e) (.fin false 9 0) with
        | .lt => none
        | _ => some (pow2Bits n 0, 0)

/-- A special function of R127; under fzo a subnormal result is written as a zero of its sign. -/
noncomputable def fSpecial (code : Nat) (fzi fzo : Bool) (x : BitVec 32) : Nat × Fl :=
  let (r, fl) := match funCase code (FFmt.decode f32 fzi x.toNat) with
    | some r => r
    | none => ((approxIn code x).toNat, 0)
  if fzo && bits r 23 8 == 0 && bits r 0 23 != 0 then (FFmt.signBit f32 (bit r 31), fl ||| flUnderflow ||| flInexact) else (r, fl)

end Sys2Proof.Machine
end

