-- ==== Sys2Proof/Machine/Access.lean ====
section
/-! DEFINITION. Access: loads, stores and atomics of the M and A formats (R171-R192, R245-R249). -/

namespace Sys2Proof.Machine

open Sys2Proof

/-! ### Loads -/

/-- The registers a load of `len` bytes writes, low first (R173, R192). -/
def loadRegs (len : Nat) (signed : Bool) (bs : List (Byte × Bool)) : List Reg :=
  let p := bs.any (·.2)
  let v := leNat (bs.map (·.1))
  if len = 1 then [{ v := if signed then BitVec.ofInt 32 (signedOf 8 v) else BitVec.ofNat 32 v, p }]
  else if len = 2 then [{ v := if signed then BitVec.ofInt 32 (signedOf 16 v) else BitVec.ofNat 32 v, p }]
  else (List.range (len / 4)).map fun k => { v := BitVec.ofNat 32 (v / 2 ^ (32 * k)), p }

/-- A thread's registers receive loaded values; they are no longer scoreboarded. -/
def Thread.receive (th : Thread) (now : Nat) (dest : List Nat) (rs : List Reg) : Thread :=
  { th.result now 1 { regs := dest.zip rs } with busy := th.busy.filter fun d => !(dest.any fun n => d == .reg n) }

/-- Destinations are scoreboarded (R39). -/
def Thread.hold (th : Thread) (dest : List Nat) : Thread := { th with busy := th.busy ++ dest.map .reg }

/-- A location the L1 may hold: no vault, no device (R12, R397); the whole line has one holder. -/
def State.cacheable (s : State) (i fa : Nat) (r : Route) : Bool :=
  decide (fa % 2 ^ 48 < 0xF00000000000) && r.cls != 2 && !((s.placeOf r fa).any inVaults)
    && (List.range 8).all fun k => match s.loadRoute i (fa / 128 * 128 + 16 * k) with
      | some q => q.origin == r.origin && q.len == r.len && q.pre == r.pre
      | none => false

/-- A line that a load may hit (R244): its generation is its home's present one, or its home lies outside the stand. -/
def State.l1Hit (s : State) (c : CoreId) (fa : Nat) : Option Line :=
  (s.core c).l1.find? fun l => l.seg == fa / 128 && (match l.home with
    | some x => l.gen == AMap.getD (s.core c).gens x 0
    | none => true)

/-- One load of the lane issuing at virtual address `va` (R173-R179, R189). Bytes its thread holds in its commit buffer stand in the
access (R360). -/
def doLoad (s : State) (va len : Nat) (d : Nat) (signed : Bool) (hint : Nat) : Res :=
  let th := s.me
  let dest := dests th d ((len + 3) / 4)
  if va % len ≠ 0 then trapAt s 0x0B va
  else if 63 ≤ s.outLoads { s.cur with sh := false } && !s.cur.sh then .wait s .limit
  else if 2 ^ 55 ≤ va then trapAt s 0x0D va
  else if s.heldBack then .wait s .acquire
  else match s.xlate s.space va 1 with
    | .ok s fa =>
      let own := (List.range len).filterMap fun k => (heldByte th.held (va + k)).map fun b => (k, b)
      if own.length = len then
        .next (s.setMe (s.me.receive (s.now s.cur.die) dest (loadRegs len signed (own.map (·.2)))))
      else if s.ownPending va len then .wait s .order
      else match (if th.homeRead.getLsbD 0 then s.homeRoute s.cur.die fa else s.loadRoute s.cur.die fa) with
        | none => trapAt s 0x0E va
        | some r =>
          let cache := s.cacheable s.cur.die fa r && !th.homeRead.getLsbD 0
          if s.loadBefore va len fun a => cache || a.home != r.origin then .wait s .order
          else
            let s := (s.log [3, va]).setMe (s.me.hold dest)
            if s.cur.sh then .next s
            else .next (s.form { owner := .thread s.cur, core := coreOf s.cur, path := 0, kind := .load, va, fa, len, dest, signed, hint, cache
                                 cells := own.map fun b => (fa + b.1, b.2.1), pois := wordsOf ((own.filter (·.2.2)).map fun b => fa + b.1)
                                 tag := th.tag, shadow := s.myGrp.shadow == 1, counted := true, glean := s.gleanNo
                                 gnum := s.myGrp.num } r).1
    | x => x.toRes s va 0

/-- The address of format M (R43, R171). -/
def addrM (ct : Ctl) (base : Word) (o : BitVec 7) (size : Nat) : Nat :=
  let off : Int := match ct.pfx with
    | some p => (p.immext ++ o).toInt
    | none => o.toInt
  ofInt 32 ((base.toNat : Int) + size * off)

/-- A load instruction. -/
def load (i : Instr) (ct : Ctl) (d a o : BitVec 7) (size : Nat) (signed : Bool) (s : State) : Host.Outcome State Fault Refusal :=
  run i s fun s =>
    let x := s.readF a.toNat
    if x.p then .consume s else doLoad s (addrM ct x.v o size) size d.toNat signed ct.h.toNat

/-- The bytes a store of `size` bytes takes from its source (R173), each with its register's poison. -/
def storeBytes (s : State) (d size : Nat) : List (Byte × Bool) :=
  let rs := s.readN d ((size + 3) / 4)
  let p := rs.any (·.p)
  (rs.flatMap fun r => (leBytes 4 r.v.toNat).map fun b => (b, p)).take size

/-- A store of a core with a store outstanding finds the store buffer full or not, as the next choice says (R179, log entry 73). -/
def State.storeRoom (s : State) : State × Bool :=
  if s.passive || s.myGrp.shadow == 2 || !(s.accs.any fun e => e.2.core == coreOf s.cur && e.2.kind == .store) then (s, true)
  else ({ s with storeFull := s.storeFull.drop 1 }, !s.storeFull.headD false)

/-- A store of `size` bytes from the registers at `d` (R173, R189). -/
def storeAt (s : State) (va d size : Nat) : Res :=
  if va % size ≠ 0 then trapAt s 0x0B va
  else match s.storeRoom with
    | (s, true) => s.storePiece va (storeBytes s d size)
    | (s, false) => .wait s .limit

/-- A store instruction. -/
def store (i : Instr) (ct : Ctl) (d a o : BitVec 7) (size : Nat) (s : State) : Host.Outcome State Fault Refusal :=
  run i s fun s =>
    let x := s.readF a.toNat
    if x.p then .consume s else storeAt s (addrM ct x.v o size) d.toNat size

def execLb (ct : Ctl) (d a o : BitVec 7) (s : State) : Host.Outcome State Fault Refusal := load (.lb ct d a o) ct d a o 1 true s
def execLbu (ct : Ctl) (d a o : BitVec 7) (s : State) : Host.Outcome State Fault Refusal := load (.lbu ct d a o) ct d a o 1 false s
def execLh (ct : Ctl) (d a o : BitVec 7) (s : State) : Host.Outcome State Fault Refusal := load (.lh ct d a o) ct d a o 2 true s
def execLhu (ct : Ctl) (d a o : BitVec 7) (s : State) : Host.Outcome State Fault Refusal := load (.lhu ct d a o) ct d a o 2 false s
def execLw (ct : Ctl) (d a o : BitVec 7) (s : State) : Host.Outcome State Fault Refusal := load (.lw ct d a o) ct d a o 4 false s
def execLd (ct : Ctl) (d a o : BitVec 7) (s : State) : Host.Outcome State Fault Refusal := load (.ld ct d a o) ct d a o 8 false s
def execLq (ct : Ctl) (d a o : BitVec 7) (s : State) : Host.Outcome State Fault Refusal := load (.lq ct d a o) ct d a o 16 false s
def execSb (ct : Ctl) (d a o : BitVec 7) (s : State) : Host.Outcome State Fault Refusal := store (.sb ct d a o) ct d a o 1 s
def execSh (ct : Ctl) (d a o : BitVec 7) (s : State) : Host.Outcome State Fault Refusal := store (.sh ct d a o) ct d a o 2 s
def execSw (ct : Ctl) (d a o : BitVec 7) (s : State) : Host.Outcome State Fault Refusal := store (.sw ct d a o) ct d a o 4 s
def execSd (ct : Ctl) (d a o : BitVec 7) (s : State) : Host.Outcome State Fault Refusal := store (.sd ct d a o) ct d a o 8 s
def execSq (ct : Ctl) (d a o : BitVec 7) (s : State) : Host.Outcome State Fault Refusal := store (.sq ct d a o) ct d a o 16 s

/-! ### Atomics -/

/-- MaxP (R183). -/
def maxP (p q : Nat) : Nat :=
  if p / 2 ^ 32 > q / 2 ^ 32 then p
  else if p / 2 ^ 32 = q / 2 ^ 32 ∧ p % 2 ^ 32 ≤ q % 2 ^ 32 then p else q

/-- One step of `aincm` at modulus `v` (R184). -/
def stepInc (w old v : Nat) : Nat := if v ≠ 0 ∧ v ≤ old + 1 then 0 else (old + 1) % 2 ^ (8 * w)

def stepIncs (w v : Nat) : Nat → Nat → Nat
  | 0, old => old
  | k + 1, old => stepIncs w v k (stepInc w old v)

/-- `afadd` (R185): rounded once to nearest, nothing flushed, no flag. -/
def atomicFadd (w old v : Nat) : Nat :=
  let f := if w = 8 then f64 else f32
  (fAdd f 0 false (FFmt.decode f false old) (FFmt.decode f false v)).1

/-- Op(old, v, n) of R182, by opcode less 0x68; `incs` increments of `aincm` (R184). -/
def atomicOp (op w old v n incs : Nat) : Nat :=
  let m := 2 ^ (8 * w)
  let sg (x : Nat) : Int := signedOf (8 * w) x
  match op with
  | 0 => (old + v) % m
  | 1 => old &&& v
  | 2 => old ||| v
  | 3 => old ^^^ v
  | 4 => if sg v < sg old then v else old
  | 5 => if sg old < sg v then v else old
  | 6 => Nat.min old v
  | 7 => Nat.max old v
  | 8 => v
  | 9 => if old = v then n else old
  | 10 => atomicFadd w old v
  | 11 => maxP old v
  | _ => stepIncs w v incs old

/-- The operand that two merged requests forward (R195). -/
def combined (o : AOp) (a b : Nat) : Nat :=
  match o.op with
  | 8 => b
  | 12 => a
  | _ => atomicOp o.op o.w a b 0 1

/-- What the later party receives when `v` came back and the earlier party's operand was `a`, counted `ca` times. -/
def laterGets (o : AOp) (v a ca : Nat) : Nat :=
  match o.op with
  | 8 => a
  | _ => atomicOp o.op o.w v a 0 ca

/-- A merged request's operand, its lanes' in ascending order (R194), and its increment count. -/
def Pkt.operand (p : Pkt) : Nat × Nat :=
  match p.aop, p.lanes with
  | some o, l :: ls => (ls.foldl (fun v x => combined o v x.v) l.v, (l :: ls).foldl (fun c x => c + x.incs) 0)
  | _, _ => (0, 1)

/-- The old value each lane of a merged request receives, from the value its response brings (R195, R196); each is poisoned exactly when
that is. -/
def splitLanes (o : AOp) (bad : Bool) : List Lane → Nat → Nat × Nat → List Lane
  | [], _, _ => []
  | l :: ls, v, (a, c) =>
    { l with v := if c = 0 then v else laterGets o v a c, bad } ::
      splitLanes o bad ls v (if c = 0 then (l.v, l.incs) else (combined o a l.v, c + l.incs))

/-- The scope level of an atomic (R43, R186): 1 sheaf to 7 system. -/
def scopeOf (ct : Ctl) : Nat :=
  let byPfx := match ct.pfx with | some p => p.scope.toNat | none => 0
  if byPfx ≠ 0 then byPfx
  else match ct.sc.toNat with
    | 0 => 2
    | 1 => 4
    | 2 => 6
    | _ => 7

/-- The scope instance of the lane issuing: its sequencer (R247). -/
def State.instanceOf (s : State) (level : Nat) : Nat × Nat :=
  let t := s.cur
  let core := t.die * 64 + t.core
  match level with
  | 1 => (1, (core * 64 + t.slot) * 64 + sheafOf s.myGrp t.t)
  | 2 => (2, core * 64 + t.slot)
  | 3 => (3, core)
  | 4 => (4, t.die)
  | 5 => (5, 0)
  | 6 => (6, s.firstDie)
  | n => (n, s.sysSeq.getD s.firstDie)

/-- A ticket (R247): the maximum of every view presented to the sequencer is merged by the operation's core. What dies of other
packages have presented to a stand's or the system's sequencer comes from outside (log entry 15). -/
def State.ticket (s : State) (level : Nat) (paths : List Nat) : State :=
  let c := coreOf s.cur
  let k := s.instanceOf level
  let old := if 6 ≤ level then View.max (AMap.getD s.seqs k []) (s.seqViews.headD []) else AMap.getD s.seqs k []
  let s := if 6 ≤ level then { s with seqViews := s.seqViews.drop 1 } else s
  let v := paths.foldl (fun v p => View.max v (s.view c p)) old
  paths.foldl (fun s p => s.merge c p v) { s with seqs := AMap.set s.seqs k v }

/-- A write of the thread on a path has not been acknowledged by its home (R248). -/
def State.unacked (s : State) (t : ThreadId) (paths : List Nat) : Bool :=
  s.accs.any fun e => e.2.owner == .thread t && e.2.kind == .store && !e.2.acked && paths.contains e.2.path

/-- An atomic of opcode 0x68 + `op` (R181-R187, R189, R245). -/
def atomic (i : Instr) (ct : Ctl) (op : Nat) (d a b : BitVec 7) (s : State) : Host.Outcome State Fault Refusal :=
  run i s fun s =>
    let w := if op = 11 then 8 else 4 * wide ct
    let x := s.readF a.toNat
    let ys := s.readN b.toNat (w / 4)
    let zs := s.readN d.toNat (w / 4)
    let num (l : List Reg) : Nat := leNat (l.flatMap fun r => leBytes 4 r.v.toNat)
    let va := x.v.toNat
    let p := { s.cur with sh := false }
    let scope := scopeOf ct
    let ord := ct.ord.toNat
    let v := num ys
    let n := if op = 9 then num zs else 0
    if x.p || ys.any (·.p) || (op == 9 && zs.any (·.p)) then .consume s
    else if va % w ≠ 0 then trapAt s 0x0B va
    else if 63 ≤ s.outLoads p && !s.cur.sh then .wait s .limit
    else if s.heldBack then .wait s .acquire
    else match s.xlate s.space va 3 with
      | .ok s fa => match s.homeRoute s.cur.die fa with
        | none => trapAt s 0x0E va
        | some r =>
          if 2 ≤ ord && !s.cur.sh && (decide (0 < s.outLoads p) || (scope == 7 && s.unacked p [0])) then .wait s .order
          else if ord = 3 && !s.cur.sh && (AMap.find s.seqHold (s.instanceOf scope)).isSome then .wait s .order
          else
            let s := s.log ([4, va, op, w, v, n])
            commit s (va, leBytes w v ++ if op = 9 then leBytes w n else []) fun s =>
              if s.passive && !s.cur.sh then passiveResult s d.toNat else
              let dest := dests s.me d.toNat (w / 4)
              let s := s.setMe (s.me.hold dest)
              let after (s : State) (id : Nat) : Res :=
                if ord = 1 ∨ ord = 3 then .past (s.setMe { s.me with status := .waiting (.resp id) }) else .next s
              if s.passive then after s (s.nextId - 1)
              else
                let s := if ord = 3 then s.ticket scope [0] else s
                let s := s.l1Drop (coreOf s.cur) (fa / 128)
                let aop : AOp := { op, w, ord, scope, v, n, incs := 1 }
                let acc : Acc := { owner := .thread s.cur, core := coreOf s.cur, path := 0, kind := .atomic, va, fa, len := w, dest
                                   aop := some aop, tag := s.me.tag, shadow := s.myGrp.shadow == 1, counted := true
                                   glean := s.gleanNo, gnum := s.myGrp.num }
                let (s, id) := s.form acc r
                let s := if ord = 3 then { s with seqHold := AMap.set s.seqHold (s.instanceOf scope) id } else s
                after s id
      | r => r.toRes s va 2

def execAadd (ct : Ctl) (d a b : BitVec 7) (s : State) : Host.Outcome State Fault Refusal := atomic (.aadd ct d a b) ct 0 d a b s
def execAand (ct : Ctl) (d a b : BitVec 7) (s : State) : Host.Outcome State Fault Refusal := atomic (.aand ct d a b) ct 1 d a b s
def execAor (ct : Ctl) (d a b : BitVec 7) (s : State) : Host.Outcome State Fault Refusal := atomic (.aor ct d a b) ct 2 d a b s
def execAxor (ct : Ctl) (d a b : BitVec 7) (s : State) : Host.Outcome State Fault Refusal := atomic (.axor ct d a b) ct 3 d a b s
def execAmin (ct : Ctl) (d a b : BitVec 7) (s : State) : Host.Outcome State Fault Refusal := atomic (.amin ct d a b) ct 4 d a b s
def execAmax (ct : Ctl) (d a b : BitVec 7) (s : State) : Host.Outcome State Fault Refusal := atomic (.amax ct d a b) ct 5 d a b s
def execAminu (ct : Ctl) (d a b : BitVec 7) (s : State) : Host.Outcome State Fault Refusal := atomic (.aminu ct d a b) ct 6 d a b s
def execAmaxu (ct : Ctl) (d a b : BitVec 7) (s : State) : Host.Outcome State Fault Refusal := atomic (.amaxu ct d a b) ct 7 d a b s
def execAswp (ct : Ctl) (d a b : BitVec 7) (s : State) : Host.Outcome State Fault Refusal := atomic (.aswp ct d a b) ct 8 d a b s
def execAcas (ct : Ctl) (d a b : BitVec 7) (s : State) : Host.Outcome State Fault Refusal := atomic (.acas ct d a b) ct 9 d a b s
def execAfadd (ct : Ctl) (d a b : BitVec 7) (s : State) : Host.Outcome State Fault Refusal := atomic (.afadd ct d a b) ct 10 d a b s
def execAmaxp (ct : Ctl) (d a b : BitVec 7) (s : State) : Host.Outcome State Fault Refusal := atomic (.amaxp ct d a b) ct 11 d a b s
def execAincm (ct : Ctl) (d a b : BitVec 7) (s : State) : Host.Outcome State Fault Refusal := atomic (.aincm ct d a b) ct 12 d a b s

end Sys2Proof.Machine
end

