-- ==== Sys2Proof/Machine/Barrier.lean ====
section
/-! DEFINITION. Barrier: named barriers (R263-R269). -/

namespace Sys2Proof.Machine

open Sys2Proof

def State.bar (s : State) (g : GroupId) (n : Nat) : Bar := AMap.getD (s.core ⟨g.die, g.core⟩).bars (g.slot, n) {}
def State.setBar (s : State) (g : GroupId) (n : Nat) (b : Bar) : State :=
  let k := s.core ⟨g.die, g.core⟩
  s.setCore ⟨g.die, g.core⟩ { k with bars := AMap.set k.bars (g.slot, n) b }

/-- A thread of the group when its barrier completes: its pending bit clears and its wait ends (R264). -/
def barRelease (now n : Nat) (th : Thread) : Thread :=
  let th := { th with bpend := th.bpend &&& ~~~ BitVec.ofNat 32 (2 ^ n) }
  if th.status = .barrier n then th.wakeAt now else th

/-- A barrier's counts after completion (R264). -/
def barNext (b : Bar) : Bar := { e := b.e - b.lv, c := 0, lv := 0, g := b.g + 1 }

/-- Completion where the arrivals have reached E (R264). -/
def State.barDone (s : State) (g : GroupId) (n : Nat) : State :=
  let b := s.bar g n
  if b.c = b.e ∧ 0 < b.e then
    let s := s.setBar g n (barNext b)
    { s with threads := s.threads.map fun e => if gidOf e.1 = g then (e.1, barRelease (s.now g.die) n e.2) else e }
  else s

/-- What `bar.test` writes (R266). -/
def barStatus (th : Thread) (n : Nat) (b : Bar) : Word :=
  BitVec.ofNat 32 ((th.bpend.getLsbD n).toNat * 2 ^ 31 + (th.bleft.getLsbD n).toNat * 2 ^ 30 + b.c % 2048 * 2 ^ 16 + b.g.toNat)

/-- An arrival with count `k` (R265), after the release it carries (R253, R268) and the commit point of a block pair;
a waiting arrival then waits while its pending bit is set. -/
def arriveBar (s : State) (n k : Nat) (leave waits : Bool) : Res :=
  let g := gidOf s.cur
  if s.cur.sh then mirror s
  else if 0 < s.outLoads s.cur then .wait s .order
  else commit s (0, []) fun s =>
    let th := s.me
    let b := s.bar g n
    if th.bleft.getLsbD n || th.bpend.getLsbD n || b.e < b.c + k then trapAt s 0x02 n
    else
      let m : BitVec 32 := BitVec.ofNat 32 (2 ^ n)
      let s := s.setBar g n { b with c := b.c + k, lv := if leave then b.lv + 1 else b.lv }
      let th := { th with arrived := th.arrived ||| m }
      let s := s.setMe (if leave then { th with bleft := th.bleft ||| m } else { th with bpend := th.bpend ||| m })
      let s := s.barDone g n
      if waits && s.me.bpend.getLsbD n then .past (s.setMe { s.me with status := .barrier n }) else .next s

/-- R263: a barrier at or above the group's number of them. -/
def checkBar (s : State) (n : BitVec 5) (k : State → Res) : Res :=
  if s.myGrp.nbar ≤ n.toNat then trapAt s 0x02 n.toNat else k s

/-- `bar.init` (R265). -/
def execBarInit (ct : Ctl) (d : BitVec 7) (n : BitVec 5) (s : State) : Host.Outcome State Fault Refusal :=
  run (.barInit ct d n) s fun s => checkBar s n fun s =>
    let x := s.readF d.toNat
    let g := gidOf s.cur
    let b := s.bar g n.toNat
    if s.cur.sh then mirror s
    else if x.p then .consume s
    else if b.c ≠ 0 ∨ x.v.toNat = 0 ∨ 1024 < x.v.toNat then trapFree s 0x02
    else .next (s.setBar g n.toNat { b with e := x.v.toNat, lv := 0 })

/-- `bar.arrive` (R265). -/
def execBarArrive (ct : Ctl) (n : BitVec 5) (s : State) : Host.Outcome State Fault Refusal :=
  run (.barArrive ct n) s fun s => checkBar s n fun s => arriveBar s n.toNat 1 false false

/-- `bar.wait` (R265): the acquire of its completion waits for the thread's earlier loads first (R253; log entry 12). -/
def execBarWait (ct : Ctl) (n : BitVec 5) (s : State) : Host.Outcome State Fault Refusal :=
  run (.barWait ct n) s fun s => checkBar s n fun s =>
    if s.cur.sh then mirror s
    else if 0 < s.outLoads s.cur then .wait s .order
    else if s.me.bpend.getLsbD n.toNat then .past (s.setMe { s.me with status := .barrier n.toNat })
    else .next s

/-- `bar.sync` (R265). -/
def execBarSync (ct : Ctl) (n : BitVec 5) (s : State) : Host.Outcome State Fault Refusal :=
  run (.barSync ct n) s fun s => checkBar s n fun s => arriveBar s n.toNat 1 false true

/-- `bar.arrivec` (R265). -/
def execBarArrivec (ct : Ctl) (d : BitVec 7) (n : BitVec 5) (s : State) : Host.Outcome State Fault Refusal :=
  run (.barArrivec ct d n) s fun s => checkBar s n fun s =>
    let x := s.readF d.toNat
    if s.cur.sh then mirror s
    else if x.p then .consume s
    else if x.v = 0 then trapFree s 0x02
    else arriveBar s n.toNat x.v.toNat false false

/-- Loads and atomics of a thread outstanding, by number. -/
def State.loadsOf (s : State) (t : ThreadId) : List Nat := (s.accs.filter fun e => e.2.owner == .thread t && e.2.counted).map (·.1)

/-- `bar.test` (R265, R266): it never waits. With the pending bit clear after an arrival of the thread's own it orders as `bar.wait` does:
later accesses wait for the loads that are outstanding now (R253). -/
def execBarTest (ct : Ctl) (d : BitVec 7) (n : BitVec 5) (s : State) : Host.Outcome State Fault Refusal :=
  run (.barTest ct d n) s fun s => checkBar s n fun s =>
    let t := { s.cur with sh := false }
    let th := s.thr t
    let s := if !th.bpend.getLsbD n.toNat && th.arrived.getLsbD n.toNat then s.setMe { s.me with after := s.loadsOf t } else s
    .next (s.give 0 d.toNat [{ v := barStatus th n.toNat (s.bar (gidOf s.cur) n.toNat) }])

/-- `bar.leave` (R265). -/
def execBarLeave (ct : Ctl) (n : BitVec 5) (s : State) : Host.Outcome State Fault Refusal :=
  run (.barLeave ct n) s fun s => checkBar s n fun s => arriveBar s n.toNat 1 true false

/-- What an exiting thread does at one barrier of its group (R267). -/
def State.barExit (s : State) (t : ThreadId) (n : Nat) : State :=
  let g := gidOf t
  let th := s.thr t
  let b := s.bar g n
  if th.bleft.getLsbD n then s
  else if th.bpend.getLsbD n then s.setBar g n { b with lv := b.lv + 1 }
  else if b.e < b.c + 1 then s
  else
    let s := s.setThr t { th with bleft := th.bleft ||| BitVec.ofNat 32 (2 ^ n) }
    (s.setBar g n { b with c := b.c + 1, lv := b.lv + 1 }).barDone g n

end Sys2Proof.Machine
end

