-- ==== Sys2Proof/Machine/Collective.lean ====
section
/-! DEFINITION. Collective: rendezvous, votes, shuffles, reductions, scans, matches and `part` (R130-R142). -/

namespace Sys2Proof.Machine

open Sys2Proof

noncomputable section

/-! ### Values of a lane -/

/-- A lane of a deckle at completion: its number and thread, and whether it is active; none where it is not live. -/
structure LaneIn where
  lid : Nat
  t : ThreadId
  active : Bool
deriving DecidableEq, Repr

def State.srcOf (s : State) (t : ThreadId) (f : BitVec 7) : Reg := State.readF { s with cur := t } f.toNat
def State.srcD (s : State) (t : ThreadId) (f : BitVec 7) : DWord × Bool := State.readD { s with cur := t } f.toNat

/-- What a lane writes: registers low first, predicates, flags. -/
structure LaneOut where
  d : Nat := 120
  vals : List Reg := []
  preds : List (Nat × Bool) := []
  fl : Fl := 0
deriving DecidableEq, Repr

/-! ### Votes (R136) -/

/-- What a vote writes for a condition of each lane. -/
def voteOut (kind : Nat) (d : Nat) (ls : List LaneIn) (c : LaneIn → Bool) : LaneOut :=
  let q := ls.filter (·.active)
  let some_ := q.any c
  let all_ := q.all c
  match kind with
  | 0 => { preds := [(d, some_)] }
  | 1 => { preds := [(d, all_)] }
  | 2 => { d, vals := [{ v := BitVec.ofNat 32 ((q.filter c).foldl (fun m l => m + 2 ^ l.lid) 0) }] }
  | _ => { preds := [(d, all_ || !some_)] }

def predOf (s : State) (p : BitVec 4) (l : LaneIn) : Bool := (s.thr l.t).pred p.toNat
def flagOf (s : State) (m : BitVec 7) (l : LaneIn) : Bool := ((s.thr l.t).fsr &&& m.setWidth 32) != 0

/-! ### Shuffle (R137) -/

/-- The deckle position a lane reads. -/
def shflFrom (mode w i j : Nat) : Nat :=
  match mode with
  | 0 => j % w
  | 1 => if j < w ∧ j ≤ i then i - j else i
  | 2 => if j < w ∧ i + j < w then i + j else i
  | _ => i ^^^ (j % w)

/-- What a lane supplies (R133): an inactive lane whose field maps past its count supplies 0. -/
def supply (s : State) (a : BitVec 7) (l : LaneIn) : Reg :=
  if !l.active && a.toNat < 120 && (s.grp (gidOf l.t)).count ≤ regNum (s.thr l.t) a.toNat then {} else s.srcOf l.t a

/-! ### Reductions and scans (R138, R139) -/

def redWidth (op : Nat) : Nat := if op = 11 then 64 else 32

def redIdentity (op : Nat) : Nat :=
  match op with
  | 1 => 0x7FFFFFFF
  | 2 => 0x80000000
  | 3 => 0xFFFFFFFF
  | 5 => 0xFFFFFFFF
  | 8 => 0x80000000
  | 9 => 0x7FC00000
  | 10 => 0x7FC00000
  | _ => 0

/-- One combining step and its flags. -/
def redStep (op : Nat) (a b : Nat) : Nat × Fl :=
  let w (v : Nat) : Word := BitVec.ofNat 32 v
  let f (v : Nat) : FVal := FFmt.decode f32 false v
  match op with
  | 0 => ((a + b) % 2 ^ 32, 0)
  | 1 => ((minW (w a) (w b)).toNat, 0)
  | 2 => ((maxW (w a) (w b)).toNat, 0)
  | 3 => (Nat.min a b, 0)
  | 4 => (Nat.max a b, 0)
  | 5 => (a &&& b, 0)
  | 6 => (a ||| b, 0)
  | 7 => (a ^^^ b, 0)
  | 8 => fAdd f32 0 false (f a) (f b)
  | 9 => fMinMax f32 false false (f a) (f b)
  | 10 => fMinMax f32 false true (f a) (f b)
  | _ => ((a + b) % 2 ^ 64, 0)

/-- One level of the pairwise tree of R73. -/
def treeLevel : List Nat → List Nat × Fl
  | a :: b :: l =>
    let r := redStep 8 a b
    let rest := treeLevel l
    (r.1 :: rest.1, r.2 ||| rest.2)
  | l => (l, 0)

/-- The pairwise tree over 2^k leaves. -/
def tree : Nat → List Nat → List Nat × Fl
  | 0, l => (l, 0)
  | k + 1, l =>
    let r := treeLevel l
    let q := tree k r.1
    (q.1, r.2 ||| q.2)

/-- The reduction of a deckle's contributions. -/
def reduce (op k : Nat) (cs : List Nat) : Nat × Fl :=
  if op = 8 then ((tree k cs).1.headD 0, (tree k cs).2)
  else match cs with
    | [] => (0, 0)
    | c :: l => l.foldl (fun r x => ((redStep op r.1 x).1, r.2 ||| (redStep op r.1 x).2)) (c, 0)

/-- The scan's value at position `i`, and the flags of its steps. -/
def scanAt (op : Nat) (ex : Bool) (cs : List Nat) (i : Nat) : Nat × Fl :=
  let l := cs.take (if ex then i else i + 1)
  let st (v : Nat) (l : List Nat) : Nat × Fl := l.foldl (fun r x => ((redStep op r.1 x).1, r.2 ||| (redStep op r.1 x).2)) (v, 0)
  if ex then st (redIdentity op) l else st (l.headD 0) (l.drop 1)

/-- A result of 32 or 64 bits. -/
def wideOut (op d v : Nat) (p : Bool) (fl : Fl) : LaneOut :=
  if op = 11 then { d, vals := pairOf (BitVec.ofNat 64 v) p, fl } else { d, vals := [{ v := BitVec.ofNat 32 v, p }], fl }

/-- A lane's contribution, and its poison (R133, R135). -/
def contribution (s : State) (op : Nat) (a : BitVec 7) (l : Option LaneIn) : Nat × Bool :=
  match l with
  | none => (redIdentity op, false)
  | some l =>
    if !l.active then (redIdentity op, false)
    else if op = 11 then ((s.srcD l.t a).1.toNat, (s.srcD l.t a).2)
    else ((s.srcOf l.t a).v.toNat, (s.srcOf l.t a).p)

def redOut (s : State) (op k : Nat) (d a : BitVec 7) (ct : Ctl) (ps : List (Option LaneIn)) : LaneOut :=
  let cs := ps.map (contribution s op a)
  let r := reduce op k (cs.map (·.1))
  wideOut op d.toNat r.1 (cs.any (·.2)) (keepFlags ct r.2)

def scanOut (s : State) (op : Nat) (d a : BitVec 7) (e : BitVec 1) (ct : Ctl) (ps : List (Option LaneIn)) (i : Nat) : LaneOut :=
  let ex := e == 1
  let cs := ps.map (contribution s op a)
  let r := scanAt op ex (cs.map (·.1)) i
  let last := (ps.zipIdx.filter fun p => match p.1 with | some l => l.active | none => false).foldl (fun m p => Nat.max m p.2) 0
  let fl := (scanAt op ex (cs.map (·.1)) last).2
  wideOut op d.toNat r.1 ((cs.take (if ex then i else i + 1)).any (·.2)) (keepFlags ct fl)

/-! ### Match (R140) -/

def matchOut (s : State) (fn : Nat) (d a : BitVec 7) (ls : List LaneIn) (l : LaneIn) : LaneOut :=
  let q := ls.filter (·.active)
  let key (l : LaneIn) : Nat × Bool :=
    if fn = 1 then ((s.srcD l.t a).1.toNat, (s.srcD l.t a).2) else ((s.srcOf l.t a).v.toNat, (s.srcOf l.t a).p)
  let same := q.filter fun x => (key x).1 == (key l).1
  let v := if fn = 2 then same.foldl (fun m x => Nat.min m x.lid) l.lid else same.foldl (fun m x => m + 2 ^ x.lid) 0
  { d := d.toNat, vals := [{ v := BitVec.ofNat 32 v, p := q.any fun x => (key x).2 }] }

/-! ### Completion (R132) -/

/-- What a collective writes in the lane at position `i` of its deckle of 2^k lanes `ps`. -/
def collOut (i : Instr) (s : State) (k : Nat) (ps : List (Option LaneIn)) (pos : Nat) (l : LaneIn) : LaneOut :=
  let ls := ps.filterMap id
  let sh (mode : Nat) (d a b : BitVec 7) : LaneOut :=
    let r := match (ps.getD (shflFrom mode (2 ^ k) pos (s.srcOf l.t b).v.toNat) none) with
      | some m => supply s a m
      | none => {}
    { d := d.toNat, vals := [r] }
  match i with
  | .voteAny _ d p => voteOut 0 d.toNat ls (predOf s p)
  | .voteAll _ d p => voteOut 1 d.toNat ls (predOf s p)
  | .voteBallot _ d p => voteOut 2 d.toNat ls (predOf s p)
  | .voteUni _ d p => voteOut 3 d.toNat ls (predOf s p)
  | .voteFany _ d m => voteOut 0 d.toNat ls (flagOf s m)
  | .voteFall _ d m => voteOut 1 d.toNat ls (flagOf s m)
  | .voteFballot _ d m => voteOut 2 d.toNat ls (flagOf s m)
  | .shflIdx _ d a b => sh 0 d a b
  | .shflUp _ d a b => sh 1 d a b
  | .shflDown _ d a b => sh 2 d a b
  | .shflXor _ d a b => sh 3 d a b
  | .redAdd ct d a => redOut s 0 k d a ct ps
  | .redMin ct d a => redOut s 1 k d a ct ps
  | .redMax ct d a => redOut s 2 k d a ct ps
  | .redMinu ct d a => redOut s 3 k d a ct ps
  | .redMaxu ct d a => redOut s 4 k d a ct ps
  | .redAnd ct d a => redOut s 5 k d a ct ps
  | .redOr ct d a => redOut s 6 k d a ct ps
  | .redXor ct d a => redOut s 7 k d a ct ps
  | .redFadd ct d a => redOut s 8 k d a ct ps
  | .redFmin ct d a => redOut s 9 k d a ct ps
  | .redFmax ct d a => redOut s 10 k d a ct ps
  | .redAdd64 ct d a => redOut s 11 k d a ct ps
  | .scanAdd ct d a e => scanOut s 0 d a e ct ps pos
  | .scanMin ct d a e => scanOut s 1 d a e ct ps pos
  | .scanMax ct d a e => scanOut s 2 d a e ct ps pos
  | .scanMinu ct d a e => scanOut s 3 d a e ct ps pos
  | .scanMaxu ct d a e => scanOut s 4 d a e ct ps pos
  | .scanAnd ct d a e => scanOut s 5 d a e ct ps pos
  | .scanOr ct d a e => scanOut s 6 d a e ct ps pos
  | .scanXor ct d a e => scanOut s 7 d a e ct ps pos
  | .scanFadd ct d a e => scanOut s 8 d a e ct ps pos
  | .scanFmin ct d a e => scanOut s 9 d a e ct ps pos
  | .scanFmax ct d a e => scanOut s 10 d a e ct ps pos
  | .scanAdd64 ct d a e => scanOut s 11 d a e ct ps pos
  | .matchEq32 _ d a => matchOut s 0 d a ls l
  | .matchEq64 _ d a => matchOut s 1 d a ls l
  | .matchLeader _ d a => matchOut s 2 d a ls l
  | _ => {}

def isPart : Instr → Bool
  | .part _ _ => true
  | _ => false

def isFlagVote : Instr → Bool
  | .voteFany _ _ _ => true
  | .voteFall _ _ _ => true
  | .voteFballot _ _ _ => true
  | _ => false

/-- What a lane waits at, if it waits at a collective. -/
def collOf (th : Thread) : Option (Instr × Bool) :=
  match th.status with
  | .collective i a => some (i, a)
  | _ => none

/-- An arrived thread goes on, with its result where it is active. -/
def collFinish (i : Instr) (now : Nat) (active : Bool) (o : LaneOut) (th : Thread) : Thread :=
  let th := if active then
      th.result now 1 { regs := (dests th o.d o.vals.length).zip o.vals, preds := o.preds.filter (fun p => p.1 != 0), flags := o.fl }
    else th
  (th.flowTo (th.pc.toNat + sizeIn i)).wakeAt (now + 1)

/-- The collective completes for the lanes of a deckle (R132): sources are read as they stand, then every destination
is written. In a lane pair the shadow receives its primary's result (R358). -/
def State.collComplete (s : State) (i : Instr) (k : Nat) (ps : List (Option LaneIn)) : State :=
  let ls := ps.filterMap id
  let s := ls.foldl (fun s l => s.setThr l.t ((s.thr l.t).flush (s.now l.t.die))) s
  let outs := (ps.zipIdx.filterMap fun p => p.1.map fun l => (l, collOut i s k ps p.2 l))
  let s' := outs.foldl (fun s o =>
    let s := s.setThr o.1.t (collFinish i (s.now o.1.t.die) o.1.active o.2 (s.thr o.1.t))
    if (s.grp (gidOf o.1.t)).shadow = 1 then
      let q := { o.1.t with sh := true }
      s.setThr q (collFinish i (s.now q.die) o.1.active o.2 (s.thr q))
    else s) s
  match i, ls with
  | .part _ w, l :: _ =>
    if ls.any (·.active) then
      let g := gidOf l.t
      let x := s'.grp g
      let sid := sheafOf x l.t.t
      s'.setGrp g { x with sheaves := AMap.set x.sheaves sid { AMap.getD x.sheaves sid {} with dk := w.toNat } }
    else s'
  | _, _ => s'

/-- A lane raises a cause where it stands; the copies of a lane pair raise it with one value. -/
def State.trapLane (s : State) (t : ThreadId) (cause : Nat) : State :=
  let v := s.fresh.1
  let one (s : State) (t : ThreadId) : State := State.takeTrap { s with cur := t } cause (s.thr t).pc v
  let u := one s.fresh.2 t
  let u := if (s.grp (gidOf t)).shadow = 1 then one u { t with sh := true } else u
  { u with cur := s.cur, evlog := [] }

/-- The live lanes of a sheaf, ascending. -/
def State.sheafLanes (s : State) (g : GroupId) (sid : Nat) : List LaneIn :=
  let x := s.grp g
  let n := if x.shadow = 1 then 16 else 32
  (List.range n).filterMap fun lid =>
    let t : ThreadId := ⟨g.die, g.core, g.slot, sid * n + lid, false⟩
    match AMap.find s.threads t with
    | none => none
    | some th => if liveThr th then some { lid, t, active := match collOf th with | some (_, a) => a | none => false } else none

/-- log2 of the deckle width in force, at most that of the sheaf (R131, R281). -/
def dkOf (g : Group) (sid : Nat) : Nat :=
  let k := (AMap.getD g.sheaves sid {}).dk
  Nat.min k (if g.shadow = 1 then 4 else 5)

def State.pcsAgree (s : State) (ls : List LaneIn) : Bool :=
  match ls with
  | [] => true
  | l :: _ => ls.all fun m => (s.thr m.t).pc == (s.thr l.t).pc
def State.allWait (s : State) (ls : List LaneIn) : Bool := ls.all fun l => (collOf (s.thr l.t)).isSome
def State.atPart (s : State) (l : LaneIn) : Bool := match collOf (s.thr l.t) with | some (i, _) => isPart i | none => false

/-- What R132 and R134 say of one deckle of a sheaf: the lanes that raise collective mismatch, or the collective that completes, by
its lanes' positions. -/
inductive DeckleEnd where
  | nothing
  | mismatch (ls : List LaneIn)
  | complete (i : Instr) (ps : List (Option LaneIn))

/-- R132 and R134 for one deckle of width 2^k. -/
def State.deckleEnd (s : State) (all : List LaneIn) (k j : Nat) : DeckleEnd :=
  let w := 2 ^ k
  let ls := all.filter fun l => l.lid / w == j
  if ls.isEmpty || !s.allWait ls then .nothing
  else
    let sheafBad := s.allWait all && !s.pcsAgree all
    if s.pcsAgree ls then
      match collOf (s.thr (ls.headD ⟨0, s.cur, false⟩).t) with
      | none => .nothing
      | some (i, _) =>
        if isPart i then (if sheafBad then .mismatch ls else .nothing)
        else .complete i ((List.range w).map fun p => ls.find? fun l => l.lid == j * w + p)
    else .mismatch (ls.filter fun l => !s.atPart l || sheafBad)

/-- It takes place; a lane that a group fault of another lane has stopped does nothing further. -/
def State.endDeckle (s : State) (k : Nat) : DeckleEnd → State
  | .nothing => s
  | .mismatch ls => ls.foldl (fun s l => if (collOf (s.thr l.t)).isSome then s.trapLane l.t 0x0A else s) s
  | .complete i ps => if s.allWait (ps.filterMap id) then s.collComplete i k ps else s

/-- R132 and R134 for a whole sheaf: `part` first, then every deckle, each judged as the sheaf stands. -/
def State.collCheck (s : State) (g : GroupId) (sid : Nat) : State :=
  let all := s.sheafLanes g sid
  if all.isEmpty then s
  else if s.allWait all && s.pcsAgree all && all.all s.atPart then
    match collOf (s.thr (all.headD ⟨0, s.cur, false⟩).t) with
    | some (i, _) => s.collComplete i 5 (all.map some)
    | none => s
  else
    let k := dkOf (s.grp g) sid
    ((List.range (32 / 2 ^ k)).map fun j => s.deckleEnd all k j).foldl (fun s e => s.endDeckle k e) s

/-- A thread arrives at a collective and enters long wait (R132); the collective then completes where it can. A flag
vote waits for its own thread's earlier flags (R111). -/
def collect (i : Instr) (s : State) : Host.Outcome State Fault Refusal :=
  let g := gidOf s.cur
  let sid := sheafOf s.myGrp s.cur.t
  let s' := issue i s fun s =>
    let active := guardTrue s.me (ctlOf i)
    match (if active && isFlagVote i then flagWait s else none) with
    | some w => .wait s w
    | none => .stay (s.setMe { s.me.stall (s.now s.cur.die) i with status := .collective i active })
  .next (s'.collCheck g sid).endIssue

/-! ### Instructions -/

/-- `voteAny` (R136). -/
def execVoteAny (ct : Ctl) (d p : BitVec 4) (s : State) : Host.Outcome State Fault Refusal := collect (.voteAny ct d p) s

/-- `voteAll` (R136). -/
def execVoteAll (ct : Ctl) (d p : BitVec 4) (s : State) : Host.Outcome State Fault Refusal := collect (.voteAll ct d p) s

/-- `voteUni` (R136). -/
def execVoteUni (ct : Ctl) (d p : BitVec 4) (s : State) : Host.Outcome State Fault Refusal := collect (.voteUni ct d p) s

/-- `voteBallot` (R136). -/
def execVoteBallot (ct : Ctl) (d : BitVec 7) (p : BitVec 4) (s : State) : Host.Outcome State Fault Refusal := collect (.voteBallot ct d p) s

/-- `voteFany` (R136). -/
def execVoteFany (ct : Ctl) (d : BitVec 4) (m : BitVec 7) (s : State) : Host.Outcome State Fault Refusal := collect (.voteFany ct d m) s

/-- `voteFall` (R136). -/
def execVoteFall (ct : Ctl) (d : BitVec 4) (m : BitVec 7) (s : State) : Host.Outcome State Fault Refusal := collect (.voteFall ct d m) s

/-- `voteFballot` (R136). -/
def execVoteFballot (ct : Ctl) (d m : BitVec 7) (s : State) : Host.Outcome State Fault Refusal := collect (.voteFballot ct d m) s

/-- `shflIdx` (R137). -/
def execShflIdx (ct : Ctl) (d a b : BitVec 7) (s : State) : Host.Outcome State Fault Refusal := collect (.shflIdx ct d a b) s

/-- `shflUp` (R137). -/
def execShflUp (ct : Ctl) (d a b : BitVec 7) (s : State) : Host.Outcome State Fault Refusal := collect (.shflUp ct d a b) s

/-- `shflDown` (R137). -/
def execShflDown (ct : Ctl) (d a b : BitVec 7) (s : State) : Host.Outcome State Fault Refusal := collect (.shflDown ct d a b) s

/-- `shflXor` (R137). -/
def execShflXor (ct : Ctl) (d a b : BitVec 7) (s : State) : Host.Outcome State Fault Refusal := collect (.shflXor ct d a b) s

/-- `redAdd` (R138). -/
def execRedAdd (ct : Ctl) (d a : BitVec 7) (s : State) : Host.Outcome State Fault Refusal := collect (.redAdd ct d a) s

/-- `redMin` (R138). -/
def execRedMin (ct : Ctl) (d a : BitVec 7) (s : State) : Host.Outcome State Fault Refusal := collect (.redMin ct d a) s

/-- `redMax` (R138). -/
def execRedMax (ct : Ctl) (d a : BitVec 7) (s : State) : Host.Outcome State Fault Refusal := collect (.redMax ct d a) s

/-- `redMinu` (R138). -/
def execRedMinu (ct : Ctl) (d a : BitVec 7) (s : State) : Host.Outcome State Fault Refusal := collect (.redMinu ct d a) s

/-- `redMaxu` (R138). -/
def execRedMaxu (ct : Ctl) (d a : BitVec 7) (s : State) : Host.Outcome State Fault Refusal := collect (.redMaxu ct d a) s

/-- `redAnd` (R138). -/
def execRedAnd (ct : Ctl) (d a : BitVec 7) (s : State) : Host.Outcome State Fault Refusal := collect (.redAnd ct d a) s

/-- `redOr` (R138). -/
def execRedOr (ct : Ctl) (d a : BitVec 7) (s : State) : Host.Outcome State Fault Refusal := collect (.redOr ct d a) s

/-- `redXor` (R138). -/
def execRedXor (ct : Ctl) (d a : BitVec 7) (s : State) : Host.Outcome State Fault Refusal := collect (.redXor ct d a) s

/-- `redFadd` (R138). -/
def execRedFadd (ct : Ctl) (d a : BitVec 7) (s : State) : Host.Outcome State Fault Refusal := collect (.redFadd ct d a) s

/-- `redFmin` (R138). -/
def execRedFmin (ct : Ctl) (d a : BitVec 7) (s : State) : Host.Outcome State Fault Refusal := collect (.redFmin ct d a) s

/-- `redFmax` (R138). -/
def execRedFmax (ct : Ctl) (d a : BitVec 7) (s : State) : Host.Outcome State Fault Refusal := collect (.redFmax ct d a) s

/-- `redAdd64` (R138). -/
def execRedAdd64 (ct : Ctl) (d a : BitVec 7) (s : State) : Host.Outcome State Fault Refusal := collect (.redAdd64 ct d a) s

/-- `scanAdd` (R139). -/
def execScanAdd (ct : Ctl) (d a : BitVec 7) (e : BitVec 1) (s : State) : Host.Outcome State Fault Refusal := collect (.scanAdd ct d a e) s

/-- `scanMin` (R139). -/
def execScanMin (ct : Ctl) (d a : BitVec 7) (e : BitVec 1) (s : State) : Host.Outcome State Fault Refusal := collect (.scanMin ct d a e) s

/-- `scanMax` (R139). -/
def execScanMax (ct : Ctl) (d a : BitVec 7) (e : BitVec 1) (s : State) : Host.Outcome State Fault Refusal := collect (.scanMax ct d a e) s

/-- `scanMinu` (R139). -/
def execScanMinu (ct : Ctl) (d a : BitVec 7) (e : BitVec 1) (s : State) : Host.Outcome State Fault Refusal := collect (.scanMinu ct d a e) s

/-- `scanMaxu` (R139). -/
def execScanMaxu (ct : Ctl) (d a : BitVec 7) (e : BitVec 1) (s : State) : Host.Outcome State Fault Refusal := collect (.scanMaxu ct d a e) s

/-- `scanAnd` (R139). -/
def execScanAnd (ct : Ctl) (d a : BitVec 7) (e : BitVec 1) (s : State) : Host.Outcome State Fault Refusal := collect (.scanAnd ct d a e) s

/-- `scanOr` (R139). -/
def execScanOr (ct : Ctl) (d a : BitVec 7) (e : BitVec 1) (s : State) : Host.Outcome State Fault Refusal := collect (.scanOr ct d a e) s

/-- `scanXor` (R139). -/
def execScanXor (ct : Ctl) (d a : BitVec 7) (e : BitVec 1) (s : State) : Host.Outcome State Fault Refusal := collect (.scanXor ct d a e) s

/-- `scanFadd` (R139). -/
def execScanFadd (ct : Ctl) (d a : BitVec 7) (e : BitVec 1) (s : State) : Host.Outcome State Fault Refusal := collect (.scanFadd ct d a e) s

/-- `scanFmin` (R139). -/
def execScanFmin (ct : Ctl) (d a : BitVec 7) (e : BitVec 1) (s : State) : Host.Outcome State Fault Refusal := collect (.scanFmin ct d a e) s

/-- `scanFmax` (R139). -/
def execScanFmax (ct : Ctl) (d a : BitVec 7) (e : BitVec 1) (s : State) : Host.Outcome State Fault Refusal := collect (.scanFmax ct d a e) s

/-- `scanAdd64` (R139). -/
def execScanAdd64 (ct : Ctl) (d a : BitVec 7) (e : BitVec 1) (s : State) : Host.Outcome State Fault Refusal := collect (.scanAdd64 ct d a e) s

/-- `matchEq32` (R140). -/
def execMatchEq32 (ct : Ctl) (d a : BitVec 7) (s : State) : Host.Outcome State Fault Refusal := collect (.matchEq32 ct d a) s

/-- `matchEq64` (R140). -/
def execMatchEq64 (ct : Ctl) (d a : BitVec 7) (s : State) : Host.Outcome State Fault Refusal := collect (.matchEq64 ct d a) s

/-- `matchLeader` (R140). -/
def execMatchLeader (ct : Ctl) (d a : BitVec 7) (s : State) : Host.Outcome State Fault Refusal := collect (.matchLeader ct d a) s

/-- `part` (R141). -/
def execPart (ct : Ctl) (a : BitVec 7) (s : State) : Host.Outcome State Fault Refusal := collect (.part ct a) s

end

end Sys2Proof.Machine
end

