-- ==== Sys2Proof/Machine/Control.lean ====
section
/-! DEFINITION. Control: branches, calls and returns, the system functions, special registers and index registers
(R79, R95-R108). -/

namespace Sys2Proof.Machine

open Sys2Proof

noncomputable section

/-! ### Branches, calls and returns (R95-R97, R144) -/

/-- The target of a branch word at the lane's pc, in words from the branch (R95). A branch has no prefix. -/
def branchTo (s : State) (off : Int) : Nat := ofInt 64 ((s.me.pc.toNat : Int) + 4 * off)

/-- `br` (R95). -/
def execBr (p : BitVec 4) (v : BitVec 1) (o : BitVec 20) (s : State) : Host.Outcome State Fault Refusal :=
  run (.br p v o) s fun s => if s.me.pred p.toNat != (v == 1) then .jump s (branchTo s o.toInt) else .next s

/-- `jmp` (R95). -/
def execJmp (o : BitVec 25) (s : State) : Host.Outcome State Fault Refusal := run (.jmp o) s fun s => .jump s (branchTo s o.toInt)

/-- The call record of R96. -/
def callRecord (th : Thread) (back : Nat) : List Byte := leBytes 8 back ++ leBytes 1 (th.wb / 8) ++ leBytes 1 (ldepth th) ++ leBytes 6 0

/-- A call that returns to `back` (R96): the record is stored at tsp - 16, tsp moves and the activation level rises. -/
def doCall (s : State) (dst back : Nat) : Res :=
  let th := s.me
  if th.tsp.toNat % 16 ≠ 0 then .trap s 0x0B th.tsp false
  else
    let sp := (th.tsp - 16#64).toNat
    match s.storePiece sp (plain (callRecord th back)) with
    | .next s => .enter (s.setMe { s.me with tsp := BitVec.ofNat 64 sp, level := s.me.level + 1 }) dst
    | r => r

/-- R30: the target of an indirect transfer is a multiple of 4; a poisoned one is consumed (R357). -/
def target (s : State) (a : BitVec 7) (k : State → Nat → Res) : Res :=
  let x := s.readD a.toNat
  if x.2 then .consume s
  else if x.1.toNat % 4 ≠ 0 then .trap s 0x0B x.1 false
  else k s x.1.toNat

/-- `call` (R96). -/
def execCall (o : BitVec 25) (s : State) : Host.Outcome State Fault Refusal :=
  run (.call o) s fun s => doCall s (branchTo s o.toInt) (s.me.pc.toNat + 4)

/-- `callr` (R96). -/
def execCallr (ct : Ctl) (a : BitVec 7) (s : State) : Host.Outcome State Fault Refusal :=
  run (.callr ct a) s fun s => target s a fun s dst => doCall s dst (s.me.pc.toNat + sizeIn (.callr ct a))

/-- `jr` (R97). -/
def execJr (ct : Ctl) (a : BitVec 7) (s : State) : Host.Outcome State Fault Refusal :=
  run (.jr ct a) s fun s => target s a fun s dst => .jump s dst

/-- `ret` (R96, R144): where it would end a save routine while pre-emption is still requested, the thread parks as
saved (R276). A poisoned word of bytes 0-8 is consumed. -/
def doRet (s : State) : Res :=
  let th := s.me
  if th.saving == some (th.level - 1) && s.myGrp.st == .preempting then .stay (s.setMe { th with status := .saved })
  else if th.tsp.toNat % 16 ≠ 0 then trapAt s 0x0B th.tsp.toNat
  else match s.readPiece th.tsp.toNat 16 0 1 with
    | .stop r => r
    | .lost s => .consume s
    | .ok s bs =>
      let back := leNat ((bs.take 8).map (·.1))
      let wb := 8 * leNat ((bs.drop 8).take 1 |>.map (·.1))
      if (bs.take 9).any (·.2) then .consume s
      else if back % 4 ≠ 0 then trapFree s 0x0B
      else if s.myGrp.count < wb + 8 then trapFree s 0x02
      else
        let th := s.me
        let depth := leNat ((bs.drop 9).take 1 |>.map (·.1))
        let th := popLevel { th with wb, tsp := th.tsp + 16, saving := if th.saving = some (th.level - 1) then none else th.saving } depth
        .resume (s.setMe th) back

/-- `ret` (R96, R169). -/
def execRet (ct : Ctl) (s : State) : Host.Outcome State Fault Refusal := .next ((issue (.ret ct) s doRet).endIssue.letGoFrom s)

/-! ### System functions (R98-R104) -/

/-- `nop` (R99). -/
def execNop (ct : Ctl) (s : State) : Host.Outcome State Fault Refusal := run (.nop ct) s fun s => .next s

/-- A thread is exited once nothing of it is outstanding; its barriers are then left (R99, R267, R268). -/
def State.finalExit (s : State) (t : ThreadId) : State :=
  let s := (s.setThr t { s.thr t with status := .exited, loops := [] }).letAll t
  if t.sh then s else (List.range (s.grp (gidOf t)).nbar).foldl (fun s n => s.barExit t n) s

/-- The group ends when its last thread has exited (R280). -/
def State.groupEnd (s : State) (g : GroupId) : State :=
  let x := s.grp g
  if (x.st == .resident || x.st == .preempting) && x.leaving.isNone && !(s.threads.any fun e => decide (gidOf e.1 = g) && liveThr e.2) then
    s.setGrp g { x with st := .ending }
  else s

/-- `exit` (R99): a commit point in block-pair mode; a thread with loads outstanding drains first. The lane drops out of
its sheaf's collectives at once (R130, R132). -/
def execExit (ct : Ctl) (s : State) : Host.Outcome State Fault Refusal :=
  let g := gidOf s.cur
  let sid := sheafOf s.myGrp s.cur.t
  let s' := issue (.exit ct) s fun s => commit s (0, []) fun s =>
    let p := { s.cur with sh := false }
    if 0 < s.outLoads p then .stay (s.setMe { s.me with status := .draining, loops := [] })
    else .stay (s.finalExit s.cur)
  .next (if liveThr s'.me then s' else (s'.collCheck g sid).groupEnd g).endIssue

/-- `yield` (R99): not ready for the next 16 picks of its partition. -/
def execYield (ct : Ctl) (s : State) : Host.Outcome State Fault Refusal :=
  run (.yield ct) s fun s => .past (s.setMe { s.me with status := .yielding (s.now s.cur.die + 17) })

/-- `trap n` (R100). -/
def execTrap (ct : Ctl) (n : BitVec 7) (s : State) : Host.Outcome State Fault Refusal :=
  run (.trap ct n) s fun s => .trap s 0x17 (n.setWidth 64) true

/-- `brk` (R100). -/
def execBrk (ct : Ctl) (s : State) : Host.Outcome State Fault Refusal := run (.brk ct) s fun s => .trap s 0x16 0 true

/-- `eret` (R89, R169). -/
def execEret (ct : Ctl) (s : State) : Host.Outcome State Fault Refusal :=
  .next ((issue (.eret ct) s State.retTrap).endIssue.letGoFrom s)

/-- A retry point (R361): the thread's copy, and its twin's, as the word after the `safept` finds them. -/
def State.retryHere (s : State) (i : Instr) : State :=
  let g := s.myGrp
  if g.shadow ≠ 0 ∧ s.effRetry treeDepth g.region then
    let c := coreOf s.cur
    let k := s.core c
    let th := s.me.flowTo (s.me.pc.toNat + sizeIn i)
    let k := { k with retry := k.retry.filter fun r => r.t != s.cur }
    let s := s.setCore c k
    if s.vaultUsed c + retryBytes g.count ≤ 4194304 then s.setCore c { k with retry := k.retry ++ [{ t := s.cur, copy := th }] } else s
  else s

/-- `safept n` (R101, R276): with pre-emption requested it calls save routine n of the safe-point table (R283). -/
def execSafept (ct : Ctl) (h : BitVec 1) (n : BitVec 7) (s : State) : Host.Outcome State Fault Refusal :=
  run (.safept ct h n) s fun s =>
    let k := n.toNat + 128 * h.toNat
    let g := s.myGrp
    if g.safeCount ≤ k then trapFree s 0x02
    else if g.st ≠ .preempting then .next (s.retryHere (.safept ct h n))
    else match s.readPiece (g.header + g.safeOff + 8 * k) 8 0 1 with
      | .stop r => r
      | .lost s => .consume s
      | .ok s bs =>
        if (bs.take 4).any (·.2) then .consume s
        else
          let lv := s.me.level
          match doCall s (codeAt g.header (leNat ((bs.take 4).map (·.1)))) (s.me.pc.toNat + sizeIn (.safept ct h n)) with
          | .enter s a => .enter (s.setMe { s.me with saving := some lv, safept := k }) a
          | r => r

/-- A rotating region is in force (R154). -/
def rotating (th : Thread) : Bool := (owned th).any fun f => f.rot != 0

/-- A new window base (R79, R102, R154). -/
def setWb (s : State) (v : Int) (move : Bool) : Res :=
  if (move && rotating s.me) || v < 0 || v % 8 ≠ 0 || (s.myGrp.count : Int) - 8 < v then trapFree s 0x02
  else .next (s.setMe { s.me with wb := v.toNat })

/-- `win k` (R102). -/
def execWin (ct : Ctl) (k : BitVec 7) (s : State) : Host.Outcome State Fault Refusal :=
  run (.win ct k) s fun s => setWb s ((s.me.wb : Int) + 8 * k.toInt) (k != 0)

/-- Where the word of an `mwait` is held, and whether that is on the thread's die (R103). -/
def State.watchAt (s : State) (fa : Nat) : Nat × Bool :=
  match s.homeRoute s.cur.die fa with
  | none => (fa, false)
  | some r => match s.local? r.origin with
    | none => (fa, false)
    | some j => match s.ownRoute j fa r.len with
      | some q => (Route.physical q fa, j == s.cur.die)
      | none => (fa, false)

/-- `mwait` (R103): an acquire load of the word; the thread waits while it reads the expected value. The limit counts from the first
read, also across a park of a later one. -/
def execMwait (ct : Ctl) (d a : BitVec 7) (s : State) : Host.Outcome State Fault Refusal :=
  run (.mwait ct d a) s fun s =>
    let x := s.readD a.toNat
    let e := s.readF d.toNat
    if x.2 then .consume s
    else if x.1.toNat % 4 ≠ 0 then .trap s 0x0B x.1 false
    else match s.readPiece x.1.toNat 4 0 1 with
      | .stop r => match r with
        | .trap s c va after => if c = 0x0F then poisonGive (s.limitHit va) d.toNat else .trap s c va after
        | r => r
      | .lost s => poisonGive s d.toNat
      | .ok s bs =>
        let v : Reg := { v := BitVec.ofNat 32 (leNat (bs.map (·.1))), p := bs.any (·.2) }
        let s := s.log (x.1.toNat :: [2])
        let now := s.now s.cur.die
        let limit := s.me.mwaitBy.getD (now + 65536)
        if v.p || v.v != e.v || s.myGrp.st == .preempting || decide (limit ≤ now) then .next (s.give 0 d.toNat [v])
        else match s.xlate s.space x.1.toNat 1 with
          | .ok s fa =>
            let w := s.watchAt fa
            .stay (s.setMe { s.me.stall now (.mwait ct d a) with
              status := .mwait { va := x.1.toNat, fa := w.1, last := v, limit, near := w.2, hit := false, dest := dests s.me d.toNat 1
                                 size := sizeIn (.mwait ct d a), start := s.me.seen now } })
          | r => r.toRes s x.1.toNat 0

/-- `cyc` (R104). -/
def execCyc (ct : Ctl) (d : BitVec 7) (s : State) : Host.Outcome State Fault Refusal :=
  run (.cyc ct d) s fun s =>
    let c := (s.die s.cur.die).cycle
    (Res.next ((s.setMe { s.me with latch := some c }).give 1 d.toNat [{ v := c.setWidth 32 }]))

/-- `cych` (R104). -/
def execCych (ct : Ctl) (d : BitVec 7) (s : State) : Host.Outcome State Fault Refusal :=
  run (.cych ct d) s fun s =>
    let c := s.me.latch.getD (s.die s.cur.die).cycle
    .next (s.give 1 d.toNat [{ v := (c >>> 32).setWidth 32 }])

/-! ### Special registers (R79, R105, R111) -/

/-- The live lanes of the thread's sheaf (R79, R281). -/
def State.swmask (s : State) : Nat := (s.sheafLanes (gidOf s.cur) (sheafOf s.myGrp s.cur.t)).foldl (fun m l => m + 2 ^ l.lid) 0

/-- A special register's value. -/
def State.special (s : State) (n : Nat) : DWord :=
  let th := s.me
  let g := s.myGrp
  match n with
  | 0 => th.fsr.setWidth 64
  | 1 => BitVec.ofNat 64 (dkOf g (sheafOf g s.cur.t))
  | 2 => BitVec.ofNat 64 th.wb
  | 3 => BitVec.ofNat 64 (match owned th with | f :: _ => f.rrb | [] => 0)
  | 4 => BitVec.ofNat 64 (ldepth th)
  | 5 => th.tag.setWidth 64
  | 6 => BitVec.ofNat 64 (g.shadow + if s.cur.sh || g.isShadow then 4 else 0)
  | 7 => th.trapcause.setWidth 64
  | 8 => th.trappc
  | 9 => th.trapval
  | 10 => g.vbase
  | 11 => th.tsp
  | 12 => BitVec.ofNat 64 s.swmask
  | _ => 0

/-- `getsr` (R105). -/
def execGetsr (ct : Ctl) (d a : BitVec 7) (s : State) : Host.Outcome State Fault Refusal :=
  run (.getsr ct d a) s fun s =>
    match (if a = 0 then flagWait s else none) with
    | some w => .wait s w
    | none =>
      let v := s.special a.toNat
      .next (s.give 1 d.toNat (if srWidth a.toNat = 2 then pairOf v false else [{ v := v.setWidth 32 }]))

/-- `setsr` (R79, R105, R302). Reserved bits of a register are not written (R3), and a special register holds no poison
(log entry 13). -/
def execSetsr (ct : Ctl) (d a : BitVec 7) (s : State) : Host.Outcome State Fault Refusal :=
  run (.setsr ct d a) s fun s =>
    let x := s.readF a.toNat
    let y := (s.readD a.toNat).1
    let th := s.me
    match d.toNat with
    | 0 => match flagWait s with
      | some w => .wait s w
      | none => .next (s.setMe { th with fsr := x.v &&& 0x7F })
    | 2 => setWb s x.v.toNat true
    | 5 =>
      let r := s.effTag treeDepth s.myGrp.region
      let v := bits x.v.toNat 0 16
      if v < r.1 || r.2 < v then trapFree s 0x02 else .next (s.setMe { th with tag := BitVec.ofNat 16 v, marked := false })
    | 7 => .next (s.setMe { th with trapcause := x.v &&& 0xFF })
    | 8 => .next (s.setMe { th with trappc := y })
    | 9 => .next (s.setMe { th with trapval := y })
    | _ => .next (s.setMe { th with tsp := y })

/-! ### Index registers (R106-R108) -/

def Thread.ixr (th : Thread) (k : Nat) : Ix := AMap.getD th.ix k {}
def Thread.setIx (th : Thread) (k : Nat) (x : Ix) : Thread := { th with ix := AMap.set th.ix k x }

/-- `setbase` (R107). -/
def execSetbase (ct : Ctl) (k : BitVec 2) (a b : BitVec 7) (s : State) : Host.Outcome State Fault Refusal :=
  run (.setbase ct k a b) s fun s =>
    let x := (s.readF a.toNat).v
    let y := (s.readF b.toNat).v
    if s.myGrp.count ≤ x.toNat ∨ s.myGrp.count < x.toNat + y.toNat then trapFree s 0x03
    else .next (s.setMe (s.me.setIx k.toNat { base := x, bound := y, idx := 0 }))

/-- `setidx` (R107). -/
def execSetidx (ct : Ctl) (k : BitVec 2) (a : BitVec 7) (s : State) : Host.Outcome State Fault Refusal :=
  run (.setidx ct k a) s fun s => .next (s.setMe (s.me.setIx k.toNat { s.me.ixr k.toNat with idx := (s.readF a.toNat).v }))

/-- `addidx` (R107). -/
def execAddidx (ct : Ctl) (k : BitVec 2) (a : BitVec 7) (s : State) : Host.Outcome State Fault Refusal :=
  run (.addidx ct k a) s fun s =>
    let x := s.me.ixr k.toNat
    .next (s.setMe (s.me.setIx k.toNat { x with idx := x.idx + (s.readF a.toNat).v }))

/-- `getidx` (R107). -/
def execGetidx (ct : Ctl) (d : BitVec 7) (k : BitVec 2) (s : State) : Host.Outcome State Fault Refusal :=
  run (.getidx ct d k) s fun s => .next (s.give 1 d.toNat [{ v := (s.me.ixr k.toNat).idx }])

/-- The register an index register reaches (R106): none where index + offset is negative or reaches the bound. -/
def ixReach (x : Ix) (o : BitVec 5) : Option Nat :=
  let i := x.idx.toInt + o.toNat
  if i < 0 ∨ (x.bound.toNat : Int) ≤ i then none else some (x.base.toNat + i.toNat)

/-- `xget` (R108): the register reached is a source under R39 and R40. -/
def execXget (ct : Ctl) (d : BitVec 7) (k : BitVec 2) (o : BitVec 5) (s : State) : Host.Outcome State Fault Refusal :=
  run (.xget ct d k o) s fun s =>
    match ixReach (s.me.ixr k.toNat) o with
    | none => trapFree s 0x03
    | some n =>
      if s.me.busy.contains (.reg n) then .wait s .score
      else if s.myGrp.strict && s.me.pend.any (fun p => p.regs.any fun r => r.1 == n) then trapFree s 0x04
      else .next (s.give 2 d.toNat [s.me.reg n])

/-- `xput` (R108): the register reached is a destination, readable 2 cycles after issue. -/
def execXput (ct : Ctl) (d : BitVec 7) (k : BitVec 2) (o : BitVec 5) (s : State) : Host.Outcome State Fault Refusal :=
  run (.xput ct d k o) s fun s =>
    match ixReach (s.me.ixr k.toNat) o with
    | none => trapFree s 0x03
    | some n =>
      if s.me.busy.contains (.reg n) then .wait s .score
      else .next (s.setMe (s.me.result (s.now s.cur.die) 2 { regs := [(n, s.readF d.toNat)] }))

/-! ### Words that are no instruction (R32, R47, R48) -/

/-- A word that check 2 of R47 refuses, in the lane issuing: illegal instruction, with trapval the faulting word. -/
def execIllegalInstruction (w : BitVec 32) (s : State) : Host.Outcome State Fault Refusal :=
  let t (s : State) : State := s.takeTrap 0x01 s.me.pc (w.setWidth 64)
  let s := s.setMe (s.me.settled (s.now s.cur.die))
  .next (if s.myGrp.shadow = 1 then
      { t { t { s with cur := { s.cur with sh := false } } with cur := { s.cur with sh := true } } with
          cur := { s.cur with sh := false }, evlog := [] }
    else t s).endIssue

end

end Sys2Proof.Machine
end

