-- ==== Sys2Proof/Machine/Closure.lean ====
section
/-! DEFINITION. Closure: handles, environment slots, the environment port and frame references (R156-R170). -/

namespace Sys2Proof.Machine

open Sys2Proof

noncomputable section

/-! ### Handles (R156, R157) -/

/-- Where a handle's slot is: a core of this package, another package of the stand, or no reachable die. -/
inductive Home where
  | here (c : CoreId) | far | none
deriving DecidableEq, Repr

def hDie (h : Nat) : Nat := bits h 32 16
def hCore (h : Nat) : Nat := bits h 26 6
def hSlot (h : Nat) : Nat := bits h 16 10
def isFrame (h : Nat) : Bool := bit h 15

/-- The home of a handle as a die finds it: a die of another package is reachable where a route leads to its memory. -/
def State.homeOf (s : State) (die h : Nat) : Home :=
  match s.local? (hDie h) with
  | some j => .here ⟨j, hCore h⟩
  | none => if s.inStand (hDie h) && (s.homeRoute die (dramBase (hDie h))).isSome then .far else .none

/-- R157: the slot named is in the state the F bit names and holds the generation; reserved bits are 0 (R156). -/
def liveIn (x : EnvSlot) (h : Nat) : Bool :=
  bits h 5 10 == 0 && x.st == (if isFrame h then .anchor else .closure) && x.gen == bits h 48 16

/-- The handle of a slot (R162, R168). -/
def handleOf (dieNo : Nat) (c : CoreId) (k : Nat) (x : EnvSlot) : Nat :=
  x.gen * 2 ^ 48 + dieNo * 2 ^ 32 + c.core * 2 ^ 26 + k * 2 ^ 16 +
    (if x.st = .anchor then 2 ^ 15 else x.ref.toNat * 16 + x.n)

/-- The lowest-numbered free slot of a core (R160). -/
def State.freeSlot (s : State) (c : CoreId) : Option Nat := (List.range 1024).find? fun k => (s.slot c k).st == .free

def wordsOfD (v : Nat) : List Reg := [{ v := BitVec.ofNat 32 v }, { v := BitVec.ofNat 32 (v / 2 ^ 32) }]
def numOf (l : List Reg) : Nat := leNat (l.flatMap fun r => leBytes 4 r.v.toNat)

def Thread.closReg (th : Thread) (k : Nat) : CReg := AMap.getD th.clos k {}
def Thread.setClos (th : Thread) (k : Nat) (x : CReg) : Thread := { th with clos := AMap.set th.clos k x }

/-! ### The environment port (R159) -/

/-- What the instruction of the lane issuing asks of ports (R162, R163, R166, R168, R170). A `cap.ref` has each reference tested at its
anchor's port, then its capture performed. -/
def State.envReq (s : State) (i : Instr) : EnvReq :=
  let handle (k : Nat) : EnvReq := { i, handles := [(s.me.closReg k).v.toNat] }
  match i with
  | .cap _ r n a e => { i, handles := if r = 1 then (List.range (n.toNat / 2)).map fun j => (s.readD (a.toNat + 2 * j)).1.toNat else []
                        ent := (s.readD e.toNat).1, words := (List.range n.toNat).map fun j => s.readF (a.toNat + j)
                        region := s.myGrp.region }
  | .fref _ _ a => { i, ent := s.me.tsp, words := [s.readF a.toNat], region := s.myGrp.region, level := s.me.level, link := s.me.anchor }
  | .apply _ c => handle c.toNat
  | .cpin _ c => handle c.toNat
  | .cdrop _ c => handle c.toNat
  | .cenv _ _ c => handle c.toNat
  | .clive _ _ c => handle c.toNat
  | .frl _ _ a _ => { i, handles := [(s.readD a.toNat).1.toNat] }
  | .frs _ _ a _ => { i, handles := [(s.readD a.toNat).1.toNat] }
  | _ => { i }

/-- What an operation on a handle needs: its F bit. `clive` takes either kind. -/
def wantsFrame : Instr → Option Bool
  | .cap _ _ _ _ _ => some true
  | .frl _ _ _ _ => some true
  | .frs _ _ _ _ => some true
  | .clive _ _ _ => none
  | _ => some false

/-- A stale handle's outcome: stale closure, dangling frame, or false for `clive`. -/
def staleRes (i : Instr) (h : Nat) : PortRes :=
  match wantsFrame i with
  | none => .ok [{}]
  | some true => .bad 0x08 (BitVec.ofNat 64 h)
  | some false => .bad 0x07 (BitVec.ofNat 64 h)

/-- A handle that no slot can make live for an instruction: the other kind, a reserved bit, or generation 0 (R156, R157). -/
def badHandle (i : Instr) (h : Nat) : Bool := (wantsFrame i).any (· != isFrame h) || bits h 5 10 != 0 || bits h 48 16 == 0

/-- What an operation on a live slot reads, counts or frees. -/
def slotOp (i : Instr) (x : EnvSlot) : EnvSlot × PortRes :=
  match i with
  | .apply _ _ => (x, .ok (wordsOfD x.base.toNat ++ x.words))
  | .cpin _ _ => if x.count = 65535 then (x, .badFree 0x02) else ({ x with count := x.count + 1 }, .ok [])
  | .cdrop _ _ => (if x.count ≤ 1 then x.freed else { x with count := x.count - 1 }, .ok [])
  | .cenv _ _ _ => (x, .ok x.words)
  | .clive _ _ _ => (x, .ok [{ v := 1 }])
  | _ => (x, .ok (wordsOfD x.base.toNat ++ x.words))

/-- `cap` and `fref` at a core's port, for a thread of the group with a number (R160, R162, R168). -/
def State.makeSlot (s : State) (c : CoreId) (t : ThreadId) (gnum : BitVec 64) (q : EnvReq) : State × PortRes :=
  match s.freeSlot c with
  | none => (s, .bad 0x09 0)
  | some k =>
    let done (s : State) (x : EnvSlot) : State × PortRes := (s.setSlot c k x, .ok (wordsOfD (handleOf (s.dieNo c.die) c k x)))
    let new : EnvSlot := { s.slot c k with region := q.region, base := q.ent, words := q.words }
    match q.i with
    | .cap _ r n _ _ => done s { new with st := .closure, count := 1, n := n.toNat, ref := r == 1 }
    | _ => done (s.onThread t gnum fun th => { th with anchor := some (anchorNo c k) })
        { new with st := .anchor, n := 0, ref := false, owner := some t, level := q.level, link := q.link }

/-- An operation at a core of this package: a result, or none where a `cap.ref` goes on to its next operation. -/
def State.portAct (s : State) (c : CoreId) (t : ThreadId) (gnum : BitVec 64) (q : EnvReq) (k : Nat) : State × Option PortRes :=
  match q.handles[k]? with
  | none => let r := s.makeSlot c t gnum q; (r.1, some r.2)
  | some h =>
    let x := s.slot c (hSlot h)
    if badHandle q.i h || !liveIn x h then (s, some (staleRes q.i h))
    else match q.i with
      | .cap _ _ _ _ _ => (s, none)
      | i => let r := slotOp i x; (s.setSlot c (hSlot h) r.1, some r.2)

/-- A live slot of another package, as its port finds it: what it holds is free (log entry 24). -/
def farSlot (n : Nat) (h : Nat) : EnvSlot :=
  let w := BitVec.ofNat 64 h
  if isFrame h then { st := .anchor, base := (Config.remoteFrame n w).1, words := [{ v := (Config.remoteFrame n w).2 }] }
  else { st := .closure, count := if Config.remoteFull n w then 65535 else 2, base := (Config.remoteEnv n w).1
         words := ((Config.remoteEnv n w).2.take 14).map fun x => { v := x.1, p := x.2 } }

/-- An operation at another package's port: whether the slot is live and what it holds are free values (log entry 24). -/
def State.portFar (s : State) (q : EnvReq) (h : Nat) : State × Option PortRes :=
  let n := s.freeCtr
  let s := { s with freeCtr := n + 1 }
  if !Config.remoteLive n (BitVec.ofNat 64 h) then (s, some (staleRes q.i h))
  else match q.i with
    | .cap _ _ _ _ _ => (s, none)
    | i => (s, some (slotOp i (farSlot n h)).2)

/-- The instruction is performed once, by the primary, where two copies of a group run (R161). -/
def once : Instr → Bool
  | .cap _ _ _ _ _ => true
  | .cpin _ _ => true
  | .cdrop _ _ => true
  | .fref _ _ _ => true
  | _ => false

/-- The operations of a request from the `k`-th on, as far as the next that a port of this package performs. A handle that nothing can
make live is stale wherever its home is (log entry 24). -/
def State.submit (t : ThreadId) (gnum : BitVec 64) (q : EnvReq) : Nat → State → Nat → State
  | 0, s, _ => s
  | f + 1, s, k =>
    let answer (s : State) (r : PortRes) : State := s.answer t gnum (once q.i) r
    match q.handles[k]? with
    | none => s.askPort (coreOf t) (.instr t gnum q k)
    | some h => match s.homeOf t.die h with
      | .here c => s.askPort c (.instr t gnum q k)
      | .none => answer s (if badHandle q.i h then staleRes q.i h else match q.i with
        | .clive _ _ _ => .ok [{}]
        | _ => .bad 0x0E (BitVec.ofNat 64 h))
      | .far =>
        if badHandle q.i h then answer s (staleRes q.i h)
        else match s.portFar q h with
          | (s, some r) => answer s r
          | (s, none) => State.submit t gnum q f s (k + 1)

/-- What an answer of the port comes to. -/
def portGo (s : State) (r : PortRes) (k : State → List Reg → Res) : Res :=
  match r with
  | .ok rs => k s rs
  | .bad c v => .trap s c v false
  | .badFree c => trapFree s c

/-- An operation of the lane's instruction stands at a port already. -/
def State.asked (s : State) (i : Instr) : Bool :=
  s.cores.any fun e => e.2.envq.any fun o => match o with
    | .instr t g q _ => t == s.cur && g == s.myGrp.num && q.i == i
    | .release _ _ _ => false

/-- The lane waits for the port and goes on with what it answers. -/
def atPort (i : Instr) (s : State) (k : State → List Reg → Res) : Res :=
  match s.me.port with
  | some r => portGo s r k
  | none =>
    if s.cur.sh || (once i && s.passive) || s.asked i then .wait s .port
    else
      let s := State.submit s.cur s.myGrp.num (s.envReq i) 9 s 0
      match s.me.port with
      | some r => portGo s r k
      | none => .wait s .port

/-- The oldest operation at a core's environment port is performed, whatever has become of the thread that asked for it
(R159). -/
def execEnvironmentPortOperation (c : CoreId) (s : State) : Host.Outcome State Fault Refusal :=
  let x := s.core c
  match x.envq with
  | [] => .next s
  | o :: q =>
    let s := s.setCore c { x with envq := q }
    match o with
    | .release t gnum l =>
      let s := l.foldl (fun s a => s.setSlot (anchorCore a) (a % 1024) (s.anchorAt a).freed) s
      .next (if s.releasing t gnum then s
        else s.onThread t gnum fun th => if th.status = .waiting .port then th.wakeAt (s.now t.die) else th)
    | .instr t gnum q k => .next (match s.portAct c t gnum q k with
      | (s, some r) => s.answer t gnum (once q.i) r
      | (s, none) => State.submit t gnum q 9 s (k + 1))

/-! ### Capture and application (R162-R164) -/

/-- Signature bytes of a request's operands (R360). -/
def opBytes (l : List Reg) : Nat × List Byte := (0, (l.flatMap fun r => leBytes 4 r.v.toNat))

/-- The lane's closure register receives a value. -/
def giveC (s : State) (k : Nat) (rs : List Reg) : Res :=
  .next (s.setMe (s.me.setClos k { v := BitVec.ofNat 64 (numOf rs), p := rs.any (·.p) }))

/-- `cap` and `cap.ref` (R162). -/
def execCap (c : BitVec 4) (r : BitVec 1) (n : BitVec 4) (a : BitVec 7) (e : BitVec 7) (s : State) : Host.Outcome State Fault Refusal :=
  run (.cap c r n a e) s fun s =>
    let ent := s.readD e.toNat
    if ent.2 then .consume s
    else if ent.1.toNat % 4 ≠ 0 then .trap s 0x0B ent.1 false
    else
      let ops := s.readN e.toNat 2 ++ (List.range n.toNat).map fun j => s.readF (a.toNat + j)
      let s := s.log (5 :: ops.map (·.v.toNat))
      commit s (opBytes ops) fun s => atPort (.cap c r n a e) s fun s rs => giveC s c.toNat rs

/-- The first `n` window registers lie below the count (R78). -/
def roomFor (s : State) (d n : Nat) : Bool :=
  decide (d + n ≤ 120) && (dests s.me d n).all fun r => decide (r < s.myGrp.count)
def anyBusy (s : State) (d n : Nat) : Bool := (dests s.me d n).any fun r => s.me.busy.contains (.reg r)

/-- `apply` (R163). -/
def execApply (ct : Ctl) (k : BitVec 4) (s : State) : Host.Outcome State Fault Refusal :=
  run (.apply ct k) s fun s =>
    let h := s.me.closReg k.toNat
    if h.p then .consume s
    else
      let s := s.log [6, h.v.toNat]
      atPort (.apply ct k) s fun s rs =>
        let n := rs.length - 2
        if s.myGrp.count < s.me.wb + n then trapFree s 0x02
        else if anyBusy s 0 n then .wait s .score
        else match doCall s (numOf (rs.take 2)) (s.me.pc.toNat + sizeIn (.apply ct k)) with
          | .enter s a => .enter (s.give 1 0 (rs.drop 2)) a
          | r => r

/-! ### The cop family (R166) -/

/-- `cpin` (R166). -/
def execCpin (ct : Ctl) (k : BitVec 4) (s : State) : Host.Outcome State Fault Refusal :=
  run (.cpin ct k) s fun s =>
    let s := s.log [7, (s.me.closReg k.toNat).v.toNat]
    commit s (opBytes (wordsOfD (s.me.closReg k.toNat).v.toNat)) fun s => atPort (.cpin ct k) s fun s _ => .next s

/-- `cdrop` (R166). -/
def execCdrop (ct : Ctl) (k : BitVec 4) (s : State) : Host.Outcome State Fault Refusal :=
  run (.cdrop ct k) s fun s =>
    let s := s.log [8, (s.me.closReg k.toNat).v.toNat]
    commit s (opBytes (wordsOfD (s.me.closReg k.toNat).v.toNat)) fun s => atPort (.cdrop ct k) s fun s _ => .next s

/-- `cmov` (R166). -/
def execCmov (ct : Ctl) (d a : BitVec 4) (s : State) : Host.Outcome State Fault Refusal :=
  run (.cmov ct d a) s fun s => .next (s.setMe (s.me.setClos d.toNat (s.me.closReg a.toNat)))

/-- `cst` (R166). -/
def execCst (ct : Ctl) (d : BitVec 7) (k : BitVec 4) (s : State) : Host.Outcome State Fault Refusal :=
  run (.cst ct d k) s fun s =>
    let c := s.me.closReg k.toNat
    .next (s.give 0 d.toNat (pairOf c.v c.p))

/-- `cld` (R166, R357). -/
def execCld (ct : Ctl) (k : BitVec 4) (a : BitVec 7) (s : State) : Host.Outcome State Fault Refusal :=
  run (.cld ct k a) s fun s =>
    let x := s.readD a.toNat
    if x.2 then .consume s else .next (s.setMe (s.me.setClos k.toNat { v := x.1, p := false }))

/-- `cenv` (R166). -/
def execCenv (ct : Ctl) (d : BitVec 7) (k : BitVec 4) (s : State) : Host.Outcome State Fault Refusal :=
  run (.cenv ct d k) s fun s => atPort (.cenv ct d k) s fun s rs =>
    if !roomFor s d.toNat rs.length then trapFree s 0x02
    else if anyBusy s d.toNat rs.length then .wait s .score
    else .next (s.give 1 d.toNat rs)

/-- `clive` (R166). -/
def execClive (ct : Ctl) (p k : BitVec 4) (s : State) : Host.Outcome State Fault Refusal :=
  run (.clive ct p k) s fun s => atPort (.clive ct p k) s fun s rs => .next (s.giveP 1 p.toNat (rs.any fun r => r.v == 1))

/-- `fref` (R168). -/
def execFref (ct : Ctl) (d a : BitVec 7) (s : State) : Host.Outcome State Fault Refusal :=
  run (.fref ct d a) s fun s =>
    let z := (s.readF a.toNat).v.toNat
    if z = 0 ∨ z % 4 ≠ 0 ∨ 2 ^ 20 < z ∨ 2 ^ 55 < s.me.tsp.toNat + z then trapFree s 0x02
    else
      let s := s.log [9, z, s.me.tsp.toNat]
      commit s (opBytes (s.readN a.toNat 1)) fun s => atPort (.fref ct d a) s fun s rs => .next (s.give 1 d.toNat rs)

/-! ### Access through a frame reference (R170) -/

/-- The word a frame reference and an offset name, once the anchor's port has passed it. -/
def frameWord (i : Instr) (s : State) (a : BitVec 7) (off : Int) (k : State → Nat → Res) : Res :=
  if (s.readD a.toNat).2 then .consume s
  else atPort i s fun s rs =>
    let b := numOf (rs.take 2)
    let size := ((rs.getD 2 {}).v.toNat : Int)
    if off < 0 ∨ size < off + 4 then trapFree s 0x02 else k s (b + off.toNat)

/-- The scaled offset of format M (R43). -/
def offM (ct : Ctl) (o : BitVec 7) : Int :=
  4 * match ct.pfx with
    | some p => (p.immext ++ o).toInt
    | none => o.toInt

/-- `frl` (R170). -/
def execFrl (ct : Ctl) (d a o : BitVec 7) (s : State) : Host.Outcome State Fault Refusal :=
  run (.frl ct d a o) s fun s => frameWord (.frl ct d a o) s a (offM ct o) fun s va => doLoad s va 4 d.toNat false 0

/-- `frs` (R170). -/
def execFrs (ct : Ctl) (d a o : BitVec 7) (s : State) : Host.Outcome State Fault Refusal :=
  run (.frs ct d a o) s fun s => frameWord (.frs ct d a o) s a (offM ct o) fun s va => storeAt s va d.toNat 4

end

end Sys2Proof.Machine
end

