-- ==== Sys2Proof/Machine/Job.lean ====
section
/-! DEFINITION. Job: the commands of the engines and the matrix units as work in progress: where they are kept, the accesses
they make, arrival counters, and what waits for their completion (R202-R208, R217-R219, R222, R234, R236). -/

namespace Sys2Proof.Machine

open Sys2Proof

/-! ### Threads wherever their group is -/

/-- A group has not retired. -/
def State.alive (s : State) (g : GroupId) (gnum : BitVec 64) : Bool := (s.slotOf g gnum).isSome || s.outs.any fun o => o.g.num == gnum

/-! ### Addresses looked up without an access -/

/-- Where an address lies now, by the translation tables as they stand, without an access of the thread's own; none where the page is
not present or a table lies in another package. -/
def State.placeWalk (s : State) (sp : Space) (va : Nat) : Nat → Nat → Option Nat
  | 0, _ => none
  | k + 1, base =>
    let lv := 2 - k
    let a := base + 8 * vaIndex va lv
    ((s.homeRoute sp.core.die a).bind fun r => s.placeOf r a).bind fun p =>
      let bs := s.bytesAt p 8
      let e := leNat (bs.map (·.1))
      if bs.any (·.2) || !bit e 0 || malformed e lv then none
      else if bit e 1 then some (bits e 16 48 * 2 ^ 16 + va % 2 ^ (if lv = 1 then 29 else 16))
      else State.placeWalk s sp va k (bits e 16 48 * 2 ^ 16)

def State.whereIs (s : State) (sp : Space) (va : Nat) : Option Nat :=
  match s.vaultMap sp va with
  | some fa => some fa
  | none => match tlbHit ((s.core sp.core).tlb ++ (s.cluster sp.core.die (sp.core.core / 8)).tlb) sp.ctx va with
    | some e => some (e.fa + va % 2 ^ e.size)
    | none => (AMap.find s.ctxs sp.ctx).bind fun c => s.placeWalk sp va 3 c.root

/-! ### The group context block (R273) -/

/-- Who writes and reads the block of the group at a slot: its core, on the lsu path. -/
def State.blockSpace (s : State) (g : GroupId) (x : Group) : Space :=
  { owner := .block g, core := ⟨g.die, g.core⟩, ctx := x.ctx, sys := x.sys, path := 0, tag := x.tag, gnum := x.num }

/-- Size of a group's block; where it holds register `n` of thread `t`, and the vault copy. -/
def blockSize (x : Group) : Nat := 512 + 512 * x.threads + 4 * x.count * x.threads + x.vaultBytes
def imageAt (x : Group) (t n : Nat) : Nat := x.block + 512 + 512 * x.threads + 4 * x.count * t + 4 * n
def vaultCopyAt (x : Group) : Nat := x.block + 512 + 512 * x.threads + 4 * x.count * x.threads

/-- Registers written into a thread's image in its group's block, by core `c`. -/
def State.imageRegs (s : State) (c : CoreId) (x : Group) (g : GroupId) (t : Nat) (th : Thread) (dest : List Nat) : State :=
  if th.status = .saved then s
  else dest.foldl (fun s n => match s.whereIs (s.blockSpace g x) (imageAt x t n) with
    | none => s
    | some fa => match s.homeRoute c.die fa with
      | none => s
      | some r => (s.sendAcc { owner := .block g, core := c, path := 0, kind := .store, va := imageAt x t n, fa, len := 4
                               cells := cellsAt fa (leBytes 4 (th.reg n).v.toNat), pois := if (th.reg n).p then [fa] else []
                               tag := x.tag, gnum := x.num } r).1) s

/-- A result that comes once its group's images are written, or while they wait to be loaded, is written into the image too (R275). -/
def State.imageWrite (s : State) (c : CoreId) (t : ThreadId) (gnum : BitVec 64) (dest : List Nat) : State :=
  match s.slotOf (gidOf t) gnum with
  | some g =>
    let x := s.grp g
    if (x.leaving.isSome && x.leaveStep != 0) || x.st == .restoring then s.imageRegs c x g t.t (s.thr ⟨g.die, g.core, g.slot, t.t, false⟩) dest else s
  | none => match s.outs.find? fun o => o.g.num == gnum with
    | some o => s.imageRegs c o.g o.was t.t (AMap.getD o.thr (t.t, false) {}) dest
    | none => s

/-! ### Where commands are kept -/

def State.engine (s : State) (e : EngineId) : Engine :=
  match e with
  | .copy d c => AMap.getD s.copies ⟨d, c⟩ {}
  | .chain d k => (s.cluster d k).chain
  | .psum d k => (s.cluster d k).psum
  | .walk d k => (s.cluster d k).walk

def State.setEngine (s : State) (e : EngineId) (x : Engine) : State :=
  match e with
  | .copy d c => { s with copies := AMap.set s.copies ⟨d, c⟩ x }
  | .chain d k => s.setCluster d k { s.cluster d k with chain := x }
  | .psum d k => s.setCluster d k { s.cluster d k with psum := x }
  | .walk d k => s.setCluster d k { s.cluster d k with walk := x }

def engineDie : EngineId → Nat
  | .copy d _ => d
  | .chain d _ => d
  | .psum d _ => d
  | .walk d _ => d

def State.setUnit (s : State) (p : PartId) (u : MUnit) : State := s.setPart p { s.part p with unit := u }

/-- A command in progress. -/
def State.cmdOf (s : State) (o : Owner) : Option Cmd :=
  match o with
  | .engine e n => (s.engine e).fly.find? fun c => c.num == n
  | .unit p n => (s.part p).unit.q.find? fun c => c.num == n
  | _ => none

def State.setCmd (s : State) (o : Owner) (c : Cmd) : State :=
  match o with
  | .engine e n => s.setEngine e { s.engine e with fly := (s.engine e).fly.map fun x => if x.num = n then c else x }
  | .unit p n => s.setUnit p { (s.part p).unit with q := (s.part p).unit.q.map fun x => if x.num = n then c else x }
  | _ => s

/-- The access path of a command (R202, R239). -/
def pathOf : Owner → Nat
  | .engine (.copy _ _) _ => 1
  | .engine (.chain _ _) _ => 3
  | .engine (.psum _ _) _ => 3
  | .engine (.walk _ _) _ => 4
  | _ => 2

def jobSpace (o : Owner) (c : Cmd) : Space :=
  { owner := o, core := c.core, ctx := c.ctx, sys := c.sys, path := pathOf o, tag := c.tag, gnum := c.gnum }

/-! ### Counters (R204, R234, R236) -/

def State.ctr (s : State) (c : CoreId) (n : Nat) : Word := AMap.getD (s.core c).ctrs n 0

/-- Every input's count has reached its threshold (R238). -/
def Core.met (x : Core) (k : Task) : Bool :=
  k.inputs.all fun i => decide (i.2 ≤ (AMap.getD x.ctrs i.1 0).toNat % 2 ^ 31)

/-- A counter takes a value and a view; tasks whose inputs are all met become ready (R238). -/
def State.setCtr (s : State) (c : CoreId) (n : Nat) (w : Word) (v : View) : State :=
  let x := s.core c
  let x := { x with ctrs := AMap.set x.ctrs n w, ctrViews := AMap.set x.ctrViews n (View.max (AMap.getD x.ctrViews n []) v) }
  s.setCore c { x with tasks := x.tasks.map fun e => (e.1, { e.2 with ready := e.2.ready || x.met e.2 }) }

/-- A count added to a counter, modulo 2^31 (R234). -/
def ctrAdd (w : Word) (k : Nat) : Word := (w &&& 0x80000000) ||| BitVec.ofNat 32 ((w.toNat + k) % 2 ^ 31)

/-- An arrival counter rises by `k`, carrying a view. -/
def State.bump (s : State) (c : CoreId) (n k : Nat) (v : View) : State := s.setCtr c n (ctrAdd (s.ctr c n) k) v

/-- The path of a transfer that a counter starts reads after the writes the counter covers (R236). -/
def State.cover (s : State) (c : CoreId) (path n : Nat) : State := s.merge c path (AMap.getD (s.core c).ctrViews n [])

/-! ### Stopping (R207, R208, R357) -/

/-- A command stops; its imprecise fault is on its way to the issuing thread. -/
def State.jobFail (s : State) (o : Owner) (cause va : Nat) : State :=
  match s.cmdOf o with
  | none => s
  | some c =>
    if c.done then s
    else
      let s := s.setCmd o { c with done := true, stopped := true }
      { s with reports := s.reports ++ [{ t := c.owner, gnum := c.gnum, cause := BitVec.ofNat 8 cause, va := BitVec.ofNat 64 va, tag := c.tag, region := c.region }] }

/-- A command stops without a fault: cancelled by a purge (R208), or for poison it consumed (R357). -/
def State.jobCancel (s : State) (o : Owner) : State :=
  match s.cmdOf o with
  | none => s
  | some c => s.setCmd o { c with done := true, stopped := true }

def State.jobConsume (s : State) (o : Owner) : State :=
  match s.cmdOf o with
  | none => s
  | some c => (s.jobCancel o).startPurge c.core.die c.tag 0x10 c.region none

/-! ### A command's accesses (R206) -/

/-- What a command does next. -/
inductive JStep where
  /-- It reads: addresses and lengths. -/
  | read (ps : List (Nat × Nat)) (c : Cmd)
  /-- It writes. -/
  | write (ps : List (Nat × List (Byte × Bool))) (c : Cmd)
  /-- It goes on without an access. -/
  | go (c : Cmd)
  /-- Its counter rises by units that have completed (R204). -/
  | units (k : Nat) (c : Cmd)
  /-- It stands still until an event. -/
  | halt (c : Cmd)
  | finish (c : Cmd)
  | fail (cause va : Nat)
  /-- It stops with a cause that concerns no address: the trapval is a free value (R233, log entry 2). -/
  | failFree (cause : Nat)
  | poison

/-- A range cut at 16-byte boundaries. -/
def chunks : Nat → Nat → Nat → List (Nat × Nat)
  | 0, _, _ => []
  | k + 1, va, len =>
    if len = 0 then [] else
      let n := Nat.min len (16 - va % 16)
      (va, n) :: chunks k (va + n) (len - n)

def piecesOf (va len : Nat) : List (Nat × Nat) := chunks (len / 16 + 2) va len

/-- Data cut the same way. -/
def cut (bs : List (Byte × Bool)) : List (Nat × Nat) → List (Nat × List (Byte × Bool))
  | [] => []
  | (a, n) :: l => (a, bs.take n) :: cut (bs.drop n) l

def dataPieces (va : Nat) (bs : List (Byte × Bool)) : List (Nat × List (Byte × Bool)) := cut bs (piecesOf va bs.length)

/-- Why a command's accesses cannot be made now. -/
inductive JStop where
  | fault (cause va : Nat)
  | poison
  | park (va level : Nat)
  | wait
deriving DecidableEq, Repr

/-- Translates every address of a step before any access of it is made. -/
def State.jobPlan (sp : Space) (need : BitVec 3) : List Nat → State → State × Option JStop × List Nat
  | [], s => (s, none, [])
  | va :: l, s =>
    if 2 ^ 55 ≤ va then (s, some (.fault 0x0D va), [])
    else match s.xlate sp va need with
      | .ok s fa => match State.jobPlan sp need l s with
        | (s, none, fs) => (s, none, fa :: fs)
        | r => r
      | .miss s lv => (s, some (.park va lv), [])
      | .fault c => (s, some (.fault c va), [])
      | .poison => (s, some .poison, [])
      | .wait s => (s, some .wait, [])

/-- A command's access whose page is not present is parked in the issuing core's fault buffer (R206, R314). -/
def State.jobPark (s : State) (o : Owner) (c : Cmd) (va level kind : Nat) : State :=
  let k := s.core c.core
  if (k.fbuf.any fun p => p.owner == o) || 256 ≤ k.fbuf.length then s
  else
    let p : Parked := { owner := o, ctx := c.ctx, va, level, kind, tag := c.tag, group := c.gnum
                        at_ := s.now c.core.die }
    s.setCore c.core { k with fbuf := k.fbuf ++ [p] }

def State.jobStopped (s : State) (o : Owner) (c : Cmd) (kind : Nat) : JStop → State
  | .fault cause va => s.jobFail o cause va
  | .poison => s.jobConsume o
  | .park va lv => s.jobPark o c va lv kind
  | .wait => s

/-- The read requests of a step leave. -/
def State.jobReads (s : State) (o : Owner) (c : Cmd) (ps : List (Nat × Nat)) : State × Bool :=
  match s.jobPlan (jobSpace o c) 1 (ps.map (·.1)) with
  | (s, some st, _) => (s.jobStopped o c 0 st, false)
  | (s, none, fs) =>
    let l := ps.zip fs
    let way (s : State) (fa : Nat) : Option Route :=
      if c.homeRead.getLsbD (pathOf o) then s.homeRoute c.core.die fa else s.loadRoute c.core.die fa
    match l.find? fun e => (way s e.2).isNone with
    | some e => (s.jobFail o 0x0E e.1.1, false)
    | none =>
      let r := l.foldl (fun (r : State × List Nat) e => match way r.1 e.2 with
        | none => r
        | some q =>
          let x := r.1.sendAcc { owner := o, core := c.core, path := pathOf o, kind := .engineRead, va := e.1.1, fa := e.2
                                 len := e.1.2, tag := c.tag, gnum := c.gnum } q
          (x.1, r.2 ++ [x.2])) (s, [])
      (r.1.setCmd o { c with outs := r.2, buf := [] }, true)

/-- The writes of a step leave. -/
def State.jobWrites (s : State) (o : Owner) (c : Cmd) (ps : List (Nat × List (Byte × Bool))) : State × Bool :=
  match s.jobPlan (jobSpace o c) 2 (ps.map (·.1)) with
  | (s, some st, _) => (s.jobStopped o c 1 st, false)
  | (s, none, fs) =>
    let l := ps.zip fs
    match l.find? fun e => (s.homeRoute c.core.die e.2).isNone with
    | some e => (s.jobFail o 0x1A e.1.1, false)
    | none =>
      let r := l.foldl (fun (r : State × List Nat) e => match r.1.homeRoute c.core.die e.2 with
        | none => r
        | some q =>
          let pois := wordsOf ((e.1.2.zipIdx.filter fun b => b.1.2).map fun b => e.2 + b.2)
          let x := r.1.sendAcc { owner := o, core := c.core, path := pathOf o, kind := .engineWrite, va := e.1.1, fa := e.2
                                 len := e.1.2.length, cells := cellsAt e.2 (e.1.2.map (·.1)), pois, tag := c.tag
                                 gnum := c.gnum } q
          (x.1, r.2 ++ [x.2])) (s, [])
      (r.1.setCmd o { c with outs := c.outs ++ r.2 }, true)

/-- The control word's counter, and its mode (R204). -/
def ctlCounter (w : Word) : Nat := bits w.toNat 23 9
def ctlMode (w : Word) : Nat := bits w.toNat 21 2

/-- What a path of a core has written and read reaches a launch's view: its completion add is a release of all that its groups and
commands have written (R286 step 6). -/
def State.launchLearns (s : State) (l : Option Nat) (c : CoreId) (path : Nat) : State :=
  match l with
  | none => s
  | some l => match AMap.find s.launches l with
    | none => s
    | some x => { s with launches := AMap.set s.launches l { x with view := View.max x.view (s.view c path) } }

/-! ### Acceptance (R202, R203, R222) -/

/-- A request's words as a command of the lane issuing. -/
def State.newCmd (s : State) (fn : Nat) (tup extra : List Word) (dest : List Nat) : Cmd :=
  let g := s.myGrp
  { num := s.nextId, fn, tup, tag := s.me.tag, owner := { s.cur with sh := false }, gnum := g.num, ctx := g.ctx, sys := g.sys
    region := g.region, launch := g.launch, core := coreOf s.cur, part := (s.partOf s.cur).part, extra, dest
    born := s.now s.cur.die, sattrap := g.sattrap, homeRead := s.me.homeRead }

/-- Room at an engine for a command of a core (R202). -/
def Engine.room (x : Engine) (e : EngineId) (c : CoreId) : Bool :=
  decide (x.q.length < 64) && (match e with
    | .copy _ _ => true
    | _ => decide ((x.q.filter fun k => k.core == c).length < 8))

/-- A command is accepted, with its acceptance number; or it must wait for room, or for a unit bound elsewhere (R221). -/
def State.accept (s : State) (o : Owner) (c : Cmd) : Option (State × Nat) :=
  match o with
  | .engine e _ =>
    let x := s.engine e
    if !x.room e c.core then none
    else
      let k := c.core.die * 64 + c.core.core
      let n := AMap.getD x.accepted k 0 + 1
      some ({ s with nextId := s.nextId + 2 }.setEngine e { x with q := x.q ++ [{ c with num := s.nextId }], accepted := AMap.set x.accepted k n }, n)
  | .unit p _ =>
    let u := (s.part p).unit
    if u.bound.any (· != c.gnum) || 8 ≤ u.q.length then none
    else
      some ({ s with nextId := s.nextId + 1 }.setUnit p
        { u with bound := some c.gnum, q := u.q ++ [{ c with num := s.nextId }], accepted := u.accepted + 1 }, u.accepted + 1)
  | _ => none

/-- The first limit of a tuple that is broken: its position (R205). -/
def broken (l : List (Nat × Bool)) : Option Nat := (l.find? fun e => !e.2).map (·.1)

def sigOfTuple (tup : List Word) : List Byte := tup.flatMap fun w => leBytes 4 w.toNat

/-- An engine or tile command of the lane issuing (R203, R223): its tuple is read once, checked, and accepted. In a block
pair it is held until the thread's next commit point, and its tuple enters the signature (R360). -/
def command (i : Instr) (s : State) (d a len fn : Nat) (target : State → Owner) (check : List Word → Option Nat)
    (number : Bool) : Host.Outcome State Fault Refusal :=
  run i s fun s =>
    let rs := (List.range len).map fun k => s.readF (a + k)
    let tup := rs.map (·.v)
    if rs.any (·.p) then .consume s
    else match check tup with
      | some p => trapAt s 0x18 p
      | none =>
        let s := s.log (10 :: fn :: tup.map (·.toNat))
        let dest := dests s.me d 1
        if s.cur.sh then mirrorGive s
        else if s.myGrp.shadow = 2 then
          let th := s.me
          let c := s.newCmd fn (tup.take (if fn = 1 ∧ len = 16 then 8 else len)) (tup.drop (if fn = 1 ∧ len = 16 then 8 else len)) dest
          .next (s.setMe { th.hold dest with cmds := th.cmds ++ [(target s, c)], sig := storeSig th.sig 0 (sigOfTuple tup), nstores := th.nstores + 1 })
        else
          let c := s.newCmd fn (tup.take (if fn = 1 ∧ len = 16 then 8 else len)) (tup.drop (if fn = 1 ∧ len = 16 then 8 else len))
            (if number then [] else dest)
          match s.accept (target s) c with
          | none => .wait s (match target s with
            | .engine e _ => .engine e
            | _ => .unit)
          | some (s, n) =>
            if number then .next (s.give 0 d [{ v := BitVec.ofNat 32 n }])
            else .next (s.setMe (s.me.hold dest))

/-- Units of the four partitions of a core. -/
def partsOf (c : CoreId) : List PartId := [⟨c.die, c.core, 0⟩, ⟨c.die, c.core, 1⟩, ⟨c.die, c.core, 2⟩, ⟨c.die, c.core, 3⟩]

end Sys2Proof.Machine
end

