-- ==== Sys2Proof/Machine/Engine.lean ====
section
/-! DEFINITION. Engine: the limits of engine and tile tuples, and what each engine command does next (R203-R216, R225-R231). -/

namespace Sys2Proof.Machine

open Sys2Proof

/-! ### Limits (R205) -/

def tw (t : List Word) (k : Nat) : Nat := (t.getD k 0).toNat
def ta (t : List Word) (k : Nat) : Nat := tw t k + 2 ^ 32 * tw t (k + 1)
def ti (t : List Word) (k : Nat) : Int := (t.getD k 0).toInt

/-- An address limit: a multiple of `m`, below 2^55. -/
def okAddr (t : List Word) (k m : Nat) : Nat × Bool := (k, ta t k % m == 0 && decide (ta t k < 2 ^ 55))
def within (v lo hi : Nat) : Bool := decide (lo ≤ v) && decide (v ≤ hi)

/-- The bounding range of one side of a copy (R209): first byte, and the byte after the last. -/
def bounding (a rows : Nat) (stride : Int) (len : Nat) : Int × Int :=
  let e := (a : Int) + (rows - 1 : Nat) * stride
  (min (a : Int) e, max (a : Int) e + len)

def meets (x y : Int × Int) : Bool := decide (x.1 < y.2) && decide (y.1 < x.2)

def cpyRows (t : List Word) : Nat := bits (tw t 7) 0 16 + 1
def cpySrc (t : List Word) : Int × Int := bounding (ta t 0) (cpyRows t) (ti t 5) (tw t 4)
def cpyDst (t : List Word) : Int × Int := bounding (ta t 2) (cpyRows t) (ti t 6) (tw t 4)
def span (a n : Nat) : Int × Int := ((a : Int), (a + n : Nat))

/-- Single limits and related limits of `cpy` (R209). -/
def cpyLimits (t : List Word) : List (Nat × Bool) × List (Nat × Bool) :=
  ([okAddr t 0 4, okAddr t 2 4, (4, within (tw t 4) 4 (2 ^ 20) && tw t 4 % 4 == 0), (5, tw t 5 % 4 == 0), (6, tw t 6 % 4 == 0),
    (7, ctlMode (t.getD 7 0) != 3 && bits (tw t 7) 16 5 == 0)], [(0, !meets (cpySrc t) (cpyDst t))])

/-- `wload` from register `b` of a tuple (R225). -/
def wloadLimits (t : List Word) (b : Nat) : List (Nat × Bool) × List (Nat × Bool) :=
  ([okAddr t b 32, (b + 2, decide (ctlMode (t.getD (b + 2) 0) < 2) && decide (bits (tw t (b + 2)) 16 2 < 2) && bits (tw t (b + 2)) 0 16 == 0)], [])

/-- `mma` from register `b` of a tuple (R226). -/
def mmaLimits (t : List Word) (b : Nat) : List (Nat × Bool) × List (Nat × Bool) :=
  let g := tw t (b + 2)
  let r := tw t (b + 3)
  ([okAddr t b 32, (b + 2, decide (bits g 29 3 + bits g 26 3 + 1 ≤ 8) && bits g 23 3 != 0 && bits g 6 4 == 0),
    (b + 3, ctlMode (t.getD (b + 3) 0) != 3 && bits r 0 6 == 0)],
   [(b + 2, decide (bits r 6 6 + bits g 0 6 + 1 ≤ 64))])

/-- `cpym` (R211). -/
def cpymLimits (t : List Word) : List (Nat × Bool) × List (Nat × Bool) :=
  let c := cpyLimits t
  let f := if tw t 8 = 0 then wloadLimits t 9 else if tw t 8 = 1 then mmaLimits t 9 else ([], [])
  (c.1 ++ [(8, decide (tw t 8 ≤ 1))] ++ f.1, c.2 ++ f.2)

def chainLen (t : List Word) : Nat := bits (tw t 6) 0 20 + 1
def chainCode (t : List Word) (i : Nat) : Nat := bits (tw t 7) (4 * i) 4
def chainInt (t : List Word) : Bool := bit (tw t 6) 20
/-- The stages before the first code 0. -/
def chainStages (t : List Word) : List Nat := (List.range 8).takeWhile fun i => chainCode t i != 0

/-- `chain` (R212, R213). -/
def chainLimits (t : List Word) : List (Nat × Bool) × List (Nat × Bool) :=
  let n := 4 * chainLen t
  let used := chainStages t
  let fits (k : Nat) : Bool := if chainInt t then !(within k 9 11) else !(within k 12 13)
  ([okAddr t 0 4, okAddr t 2 4, okAddr t 4 4, (6, decide (ctlMode (t.getD 6 0) < 2)),
    (7, (used.all fun i => decide (chainCode t i < 14)) && (List.range 8).all fun i => used.contains i || chainCode t i == 0)],
   [(0, ta t 0 == ta t 2 || !meets (span (ta t 0) n) (span (ta t 2) n)), (2, !meets (span (ta t 4) n) (span (ta t 2) n)),
    (6, used.all fun i => fits (chainCode t i))])

/-- `psum` (R214). -/
def psumLimits (t : List Word) : List (Nat × Bool) × List (Nat × Bool) :=
  let n := tw t 4
  ([okAddr t 0 4, okAddr t 2 4, (4, within n 1 65536), (6, decide (ctlMode (t.getD 6 0) < 2) && bits (tw t 6) 2 19 == 0)],
   [(0, !meets (span (ta t 0) (4 * n)) (span (ta t 2) (4 * (n + (bit (tw t 6) 1).toNat))))])

/-- `rsort` (R215). -/
def rsortLimits (t : List Word) : List (Nat × Bool) × List (Nat × Bool) :=
  ([okAddr t 0 4, okAddr t 2 4, okAddr t 4 4, okAddr t 6 4, (8, within (tw t 8) 4 65536 && tw t 8 % 4 == 0),
    (9, within (tw t 9) 1 (2 ^ 20)), (10, within (tw t 10) 1 4096), (11, ctlMode (t.getD 11 0) != 3 && bits (tw t 11) 1 20 == 0)], [])

/-- `walk` (R216). -/
def walkLimits (t : List Word) : List (Nat × Bool) × List (Nat × Bool) :=
  ([okAddr t 0 64, okAddr t 2 32, okAddr t 4 8, (6, within (tw t 6) 1 65536), (7, ctlMode (t.getD 7 0) != 3 && bits (tw t 7) 0 21 == 0)], [])

/-- `accx` (R229). -/
def accxLimits (t : List Word) : List (Nat × Bool) × List (Nat × Bool) :=
  let w := tw t 2
  let f := bits w 19 2
  ([okAddr t 0 4, (2, ctlMode (t.getD 2 0) != 3 && f != 3 && bits w 0 6 == 0 && decide (bits w 13 6 + bits w 7 6 + 1 ≤ 64))],
   [(0, f != 2 || ta t 0 % 32 == 0), (2, f == 2 || (tw t 3 % 4 == 0 && decide ((if f = 0 then 512 else 256) ≤ tw t 3)))])

def qRows (t : List Word) : Nat := 32 * (bits (tw t 6) 14 5 + 1)
def qCols (t : List Word) : Nat := 32 * (bits (tw t 6) 9 5 + 1)
def qSize (t : List Word) : Nat := match bits (tw t 6) 19 2 with
  | 0 => 4
  | 1 => 2
  | _ => 1
/-- Bytes of an NB tensor of `n` blocks (R67). -/
def nbBytes (n : Nat) : Nat := (n + 31) / 32 * 1056

/-- `quant2` (R230). -/
def quant2Limits (t : List Word) : List (Nat × Bool) × List (Nat × Bool) :=
  let n := qRows t * qCols t
  let src := span (ta t 0) (n * qSize t)
  let row := span (ta t 2) (nbBytes (n / 32))
  let col := span (ta t 4) (nbBytes (n / 32))
  ([okAddr t 0 4, okAddr t 2 32, okAddr t 4 32, (6, decide (ctlMode (t.getD 6 0) < 2) && bits (tw t 6) 0 9 == 0)],
   [(0, ta t 2 == 0 || !meets src row), (0, ta t 4 == 0 || !meets src col), (2, !(ta t 2 == 0 && ta t 4 == 0)),
    (2, ta t 2 == 0 || ta t 4 == 0 || !meets row col)])

/-- `tclr` (R231). -/
def tclrLimits (t : List Word) : List (Nat × Bool) × List (Nat × Bool) :=
  ([(0, bits (tw t 0) 15 17 == 0 && decide (bits (tw t 0) 0 6 + bits (tw t 0) 6 6 + 1 ≤ 64))], [])

/-- The limits of an engine command by its function (R45). -/
def engineLimits (fn : Nat) (t : List Word) : List (Nat × Bool) × List (Nat × Bool) :=
  match fn with
  | 0 => cpyLimits t
  | 1 => cpymLimits t
  | 2 => chainLimits t
  | 3 => psumLimits t
  | 4 => rsortLimits t
  | _ => walkLimits t

/-- The limits of a unit command by its function. -/
def unitLimits (fn : Nat) (t : List Word) : List (Nat × Bool) × List (Nat × Bool) :=
  match fn with
  | 0 => wloadLimits t 0
  | 1 => mmaLimits t 0
  | 2 => accxLimits t
  | 3 => tclrLimits t
  | 4 => quant2Limits t
  | _ => ([], [])

/-- Check(T) (R205): limits of one register over the whole tuple first, then those that relate several. -/
def checkLimits (l : List (Nat × Bool) × List (Nat × Bool)) : Option Nat := broken (l.1 ++ l.2)

/-! ### eng (R203) -/

/-- The engine that performs a function for a core (R202). -/
def engineFor (fn : Nat) (c : CoreId) : EngineId :=
  match fn with
  | 2 => .chain c.die (c.core / 8)
  | 3 => .psum c.die (c.core / 8)
  | 5 => .walk c.die (c.core / 8)
  | _ => .copy c.die c.core

def engineLen : Nat → Nat
  | 0 => 8
  | 1 => 16
  | 2 => 16
  | 3 => 7
  | 4 => 12
  | _ => 8

def eng (i : Instr) (fn : Nat) (d a : BitVec 7) (s : State) : Host.Outcome State Fault Refusal :=
  command i s d.toNat a.toNat (engineLen fn) fn (fun s => .engine (engineFor fn (coreOf s.cur)) 0)
    (fun t => checkLimits (engineLimits fn t)) true

noncomputable section

/-- `cpy` (R209). -/
def execCpy (ct : Ctl) (d a : BitVec 7) (s : State) : Host.Outcome State Fault Refusal := eng (.cpy ct d a) 0 d a s
/-- `cpym` (R211). -/
def execCpym (ct : Ctl) (d a : BitVec 7) (s : State) : Host.Outcome State Fault Refusal := eng (.cpym ct d a) 1 d a s
/-- `chain` (R212). -/
def execChain (ct : Ctl) (d a : BitVec 7) (s : State) : Host.Outcome State Fault Refusal := eng (.chain ct d a) 2 d a s
/-- `psum` (R214). -/
def execPsum (ct : Ctl) (d a : BitVec 7) (s : State) : Host.Outcome State Fault Refusal := eng (.psum ct d a) 3 d a s
/-- `rsort` (R215). -/
def execRsort (ct : Ctl) (d a : BitVec 7) (s : State) : Host.Outcome State Fault Refusal := eng (.rsort ct d a) 4 d a s
/-- `walk` (R216). -/
def execWalk (ct : Ctl) (d a : BitVec 7) (s : State) : Host.Outcome State Fault Refusal := eng (.walk ct d a) 5 d a s

/-! ### What each engine command does next -/

/-- The bytes read for the unit in progress, in address order. -/
def Cmd.gather (c : Cmd) (va n : Nat) : List (Byte × Bool) :=
  (List.range n).map fun k => match c.buf.find? fun e => e.1 == va + k with
    | some e => e.2
    | none => (0, false)

def Cmd.word (c : Cmd) (va : Nat) : Word × Bool :=
  let b := c.gather va 4
  (BitVec.ofNat 32 (leNat (b.map (·.1))), b.any (·.2))

def wordBytes (v : Word) (p : Bool) : List (Byte × Bool) := (leBytes 4 v.toNat).map fun b => (b, p)

/-- A row's address: 64-bit, so that a stride may carry it past 2^55 (R205, R308). -/
def rowAt (a r : Nat) (stride : Int) (j : Nat) : Nat := ofInt 64 ((a : Int) + r * stride + j)

/-- `cpy` (R209): row `i`, byte `j` of it. -/
def cpyStep (c : Cmd) : JStep :=
  let t := c.tup
  let b := tw t 4
  let src := rowAt (ta t 0) c.i (ti t 5) c.j
  if c.i = cpyRows t then .finish c
  else if c.j = b then .units 1 { c with i := c.i + 1, j := 0, buf := [] }
  else if c.buf = [] then .read [(src, Nat.min (b - c.j) (16 - src % 16))] c
  else
    let n := c.buf.length
    .write (dataPieces (rowAt (ta t 2) c.i (ti t 6) c.j) (c.gather src n)) { c with j := c.j + n, buf := [] }

/-- One stage in binary32 (R213). -/
def stageF (code v k y : Nat) : Nat :=
  let d (x : Nat) : FVal := FFmt.decode f32 false x
  match code with
  | 1 => (fAdd f32 0 false (d v) (d k)).1
  | 2 => (fMul f32 0 false (d v) (d k)).1
  | 3 => (fMinMax f32 false true (d v) (d k)).1
  | 4 => (fMinMax f32 false false (d v) (d k)).1
  | 5 => (fAdd f32 0 false (d v) (d y)).1
  | 6 => (fMul f32 0 false (d v) (d y)).1
  | 7 => (fSign f32 false false (d v)).1
  | 8 => (fSign f32 false true (d v)).1
  | 9 => (fSpecial 4 false false (BitVec.ofNat 32 v)).1
  | 10 => (fSpecial 8 false false (BitVec.ofNat 32 v)).1
  | _ => (fSpecial 2 false false (BitVec.ofNat 32 v)).1

/-- One stage in 32-bit integers (R213). -/
def stageI (code : Nat) (v k y : Word) : Word :=
  match code with
  | 1 => v + k
  | 2 => v * k
  | 3 => if k.toInt < v.toInt then v else k
  | 4 => if v.toInt < k.toInt then v else k
  | 5 => v + y
  | 6 => v * y
  | 7 => if v.msb then -v else v
  | 8 => -v
  | 12 => v &&& k
  | _ => v >>> k.toNat

def usesY (t : List Word) : Bool := (chainStages t).any fun i => chainCode t i == 5 || chainCode t i == 6

def chainValue (t : List Word) (v y : Word) : Word :=
  (chainStages t).foldl (fun v i =>
    let k := t.getD (8 + i) 0
    if chainInt t then stageI (chainCode t i) v k y
    else BitVec.ofNat 32 (stageF (chainCode t i) v.toNat k.toNat y.toNat)) v

/-- `chain` (R212): element `i`. -/
def chainStep (c : Cmd) : JStep :=
  let t := c.tup
  let s := ta t 0 + 4 * c.i
  let y := ta t 4 + 4 * c.i
  if c.i = chainLen t then .finish c
  else if c.buf = [] then .read ((s, 4) :: if usesY t then [(y, 4)] else []) c
  else
    let x := c.word s
    let w := if usesY t then c.word y else (0, false)
    .write [(ta t 2 + 4 * c.i, wordBytes (chainValue t x.1 w.1) (x.2 || w.2))] { c with i := c.i + 1, buf := [] }

/-- `psum` (R214): `acc` is the sum, `lo` its poison, `j` whether the total is written. -/
def psumStep (c : Cmd) : JStep :=
  let t := c.tup
  let h := ta t 0 + 4 * c.i
  let o := ta t 2 + 4 * c.i
  let sum := if c.started && c.i == 0 && c.j == 0 then tw t 5 else c.acc
  if c.i = tw t 4 then
    if bit (tw t 6) 1 ∧ c.j = 0 then .write [(o, wordBytes (BitVec.ofNat 32 c.acc) (c.lo == 1))] { c with j := 1 }
    else .finish c
  else if c.buf = [] then .read [(h, 4)] c
  else
    let x := c.word h
    let sum' := (sum + x.1.toNat) % 2 ^ 32
    let p := c.lo == 1 || x.2
    let out := if bit (tw t 6) 0 then wordBytes (BitVec.ofNat 32 sum') p else wordBytes (BitVec.ofNat 32 sum) (c.lo == 1)
    .write [(o, out)] { c with i := c.i + 1, acc := sum', lo := p.toNat, buf := [] }

/-- The bytes a command of a copy engine writes, once known (R210). -/
def destRanges (c : Cmd) : List (Int × Int) :=
  if c.fn = 4 then
    if c.j = 0 then []
    else [((c.lo : Int), (c.hi : Int))] ++ if bit (tw c.tup 11) 0 then [span (ta c.tup 6) (4 * tw c.tup 10)] else []
  else [cpyDst c.tup]

/-- The ranges a command of a copy engine tests before it starts (R210). -/
def startRanges (c : Cmd) : List (Int × Int) :=
  let t := c.tup
  if c.fn = 4 then [span (ta t 0) (tw t 8 * tw t 9), span (ta t 4) (4 * tw t 9), span (ta t 6) (4 * tw t 10)]
  else [cpySrc t, cpyDst t]

def clear (l : List (Int × Int)) (fly : List Cmd) : Bool := fly.all fun k => (destRanges k).all fun r => l.all fun q => !meets q r

/-- `rsort` (R215); `others` are in flight and started before it. Phases `j`: 0 cursors to be read, 1 its range to be clear of theirs, 2 a key, 3 a row, 4 a row
written, 5 the cursors back, 6 done. -/
def rsortStep (others : List Cmd) (c : Cmd) : JStep :=
  let t := c.tup
  let m := tw t 10
  let n := tw t 9
  let b := tw t 8
  match c.j with
  | 0 =>
    if c.buf = [] then .read (piecesOf (ta t 6) (4 * m)) c
    else
      let cur := (List.range m).map fun k => c.word (ta t 6 + 4 * k)
      let vs := cur.map (·.1.toNat)
      if cur.any (·.2) then .poison
      else .go { c with aux := vs, j := 1, buf := [], lo := ta t 2 + b * (vs.foldl Nat.min (vs.headD 0))
                        hi := ta t 2 + b * (vs.foldl Nat.max 0 + n) }
  | 1 => if clear [((c.lo : Int), (c.hi : Int))] others then .go { c with j := 2 } else .halt c
  | 2 =>
    let k := ta t 4 + 4 * c.i
    if c.i = n then .go { c with j := 5 }
    else if c.buf = [] then .read [(k, 4)] c
    else
      let x := c.word k
      if x.2 then .poison
      else if m ≤ x.1.toNat then .go { c with i := c.i + 1, buf := [] }
      else .go { c with acc := x.1.toNat, j := 3, buf := [] }
  | 3 =>
    let s := ta t 0 + b * c.i
    if c.buf = [] then .read (piecesOf s b) c
    else
      let cur := c.aux.getD c.acc 0
      .write (dataPieces (ta t 2 + b * cur) (c.gather s b)) { c with aux := c.aux.set c.acc ((cur + 1) % 2 ^ 32), j := 4, buf := [] }
  | 4 => .units 1 { c with i := c.i + 1, j := 2 }
  | 5 =>
    if bit (tw t 11) 0 then .write (dataPieces (ta t 6) (c.aux.flatMap fun v => wordBytes (BitVec.ofNat 32 v) false)) { c with j := 6 }
    else .finish c
  | _ => .finish c

/-- `walk` (R216). `acc` is the page, `i` pages done, `aux` tokens, the byte of the page and whether a count was poisoned; `lo` and
`hi` its link and count. Phases `j`: 0 header, 1 payload, 2 page done, 3 summary, 4 done. A poisoned link is consumed (R206, R357); a
poisoned count is not, and poisons the sum of counts that the summary gives (DEDUCED from R206 and R214, log entry 77). -/
def walkStep (c : Cmd) : JStep :=
  let t := c.tup
  let tok := c.aux.getD 0 0
  let off := c.aux.getD 1 0
  let bad := c.aux.getD 2 0
  match c.j with
  | 0 =>
    let p := if c.i = 0 then ta t 0 else c.acc
    if p = 0 ∨ c.i = tw t 6 then .go { c with j := 3 }
    else if c.buf = [] then .read [(p, 9)] { c with acc := p }
    else
      let h := c.gather p 9
      let next := leNat ((h.take 8).map (·.1))
      let k := leNat ((h.drop 8).map (·.1))
      if (h.take 8).any (·.2) then .poison
      else if next % 64 ≠ 0 then .fail 0x18 p
      else if 16 < k then .fail 0x18 (p + 8)
      else .go { c with acc := p, lo := next, hi := k, j := 1, aux := [tok, 0, if h.any (·.2) then 1 else bad], buf := [] }
  | 1 =>
    if off = 2112 then .go { c with j := 2 }
    else if c.buf = [] then .read [(c.acc + 64 + off, 16)] c
    else .write (dataPieces (ta t 2 + 2112 * c.i + off) (c.gather (c.acc + 64 + off) 16)) { c with aux := [tok, off + 16, bad], buf := [] }
  | 2 => .units c.hi { c with i := c.i + 1, acc := c.lo, j := 0, aux := [tok + c.hi, 0, bad] }
  | 3 => .write (dataPieces (ta t 4) (wordBytes (BitVec.ofNat 32 c.i) false ++ wordBytes (BitVec.ofNat 32 tok) (bad == 1))) { c with j := 4 }
  | _ => .finish c

/-- What a command of an engine does next; `others` are the engine's commands in flight that started before it. -/
def engineStep (others : List Cmd) (c : Cmd) : JStep :=
  match c.fn with
  | 2 => chainStep c
  | 3 => psumStep c
  | 4 => rsortStep others c
  | 5 => walkStep c
  | _ => cpyStep c

end

end Sys2Proof.Machine
end

