-- ==== Sys2Proof/Machine/Fp.lean ====
section
/-! DEFINITION. Fp: the floating-point instructions (R121-R129). -/

namespace Sys2Proof.Machine

open Sys2Proof

/-- The rounding mode of an instruction (R43). -/
def rmOf (ct : Ctl) : BitVec 2 := match ct.pfx with | some p => p.rm | none => 0

/-- A 32-bit source as a value, subnormals flushed under fzi. -/
def val32 (ct : Ctl) (r : Reg) : FVal := FFmt.decode f32 ct.fzi r.v.toNat

/-- A binary32 result from its operands' values; `may`: the instruction can set a flag (R111). -/
def fp32 (i : Instr) (ct : Ctl) (lat : Nat) (d : BitVec 7) (src : List (BitVec 7)) (s : State) (f : List FVal → Nat × Fl)
    (may : Bool := mayFlag ct) : Host.Outcome State Fault Refusal :=
  run i s fun s =>
    let rs := src.map fun a => s.readF a.toNat
    let r := f (rs.map (val32 ct))
    .next (s.give lat d.toNat [{ v := BitVec.ofNat 32 r.1, p := rs.any (·.p) }] (keepFlags ct r.2) may)

/-- A packed result: element 0 in bits [15:0], element 1 in bits [31:16], flags ORed (R53, R121). -/
def fp16 (i : Instr) (ct : Ctl) (g : FFmt) (d : BitVec 7) (src : List (BitVec 7)) (s : State) (f : List FVal → Nat × Fl) :
    Host.Outcome State Fault Refusal :=
  run i s fun s =>
    let rs := src.map fun a => s.readF a.toNat
    let el (k : Nat) : Nat × Fl := f (rs.map fun r => FFmt.decode g ct.fzi (bits r.v.toNat (16 * k) 16))
    .next (s.give 4 d.toNat [{ v := BitVec.ofNat 32 ((el 0).1 + 65536 * (el 1).1), p := rs.any (·.p) }]
      (keepFlags ct ((el 0).2 ||| (el 1).2)) (mayFlag ct))

/-- A binary64 result (R124). -/
def fp64 (i : Instr) (ct : Ctl) (d : BitVec 7) (src : List (BitVec 7)) (s : State) (f : List FVal → Nat × Fl)
    (may : Bool := mayFlag ct) : Host.Outcome State Fault Refusal :=
  run i s fun s =>
    let rs := src.map fun a => s.readD a.toNat
    let r := f (rs.map fun x => FFmt.decode f64 ct.fzi x.1.toNat)
    .next (s.give 0 d.toNat (pairOf (BitVec.ofNat 64 r.1) (rs.any (·.2))) (keepFlags ct r.2) may)

/-- The values by position. -/
def nth (l : List FVal) (k : Nat) : FVal := l.getD k (.nan false)

/-- `fadd` (R121, R122). -/
def execFadd (ct : Ctl) (d a b : BitVec 7) (s : State) : Host.Outcome State Fault Refusal :=
  fp32 (.fadd ct d a b) ct 4 d [a, b] s fun l => fAdd f32 (rmOf ct) ct.fzo (nth l 0) (nth l 1)

/-- `fsub` (R121, R122). -/
def execFsub (ct : Ctl) (d a b : BitVec 7) (s : State) : Host.Outcome State Fault Refusal :=
  fp32 (.fsub ct d a b) ct 4 d [a, b] s fun l => fAdd f32 (rmOf ct) ct.fzo (nth l 0) (nth l 1).neg

/-- `fmul` (R121, R122). -/
def execFmul (ct : Ctl) (d a b : BitVec 7) (s : State) : Host.Outcome State Fault Refusal :=
  fp32 (.fmul ct d a b) ct 4 d [a, b] s fun l => fMul f32 (rmOf ct) ct.fzo (nth l 0) (nth l 1)

/-- `fma` (R121, R122). -/
def execFma (ct : Ctl) (d a b : BitVec 7) (s : State) : Host.Outcome State Fault Refusal :=
  fp32 (.fma ct d a b) ct 4 d [a, b, d] s fun l => fFma f32 (rmOf ct) ct.fzo (nth l 0) (nth l 1) (nth l 2)

/-- `fnma` (R121, R122). -/
def execFnma (ct : Ctl) (d a b : BitVec 7) (s : State) : Host.Outcome State Fault Refusal :=
  fp32 (.fnma ct d a b) ct 4 d [a, b, d] s fun l => fFma f32 (rmOf ct) ct.fzo (nth l 0).neg (nth l 1) (nth l 2)

/-- `fmin` (R123). -/
def execFmin (ct : Ctl) (d a b : BitVec 7) (s : State) : Host.Outcome State Fault Refusal :=
  fp32 (.fmin ct d a b) ct 4 d [a, b] s fun l => fMinMax f32 ct.fzo false (nth l 0) (nth l 1)

/-- `fmax` (R123). -/
def execFmax (ct : Ctl) (d a b : BitVec 7) (s : State) : Host.Outcome State Fault Refusal :=
  fp32 (.fmax ct d a b) ct 4 d [a, b] s fun l => fMinMax f32 ct.fzo true (nth l 0) (nth l 1)

/-- `fdiv` (R121, R122). -/
def execFdiv (ct : Ctl) (d a b : BitVec 7) (s : State) : Host.Outcome State Fault Refusal :=
  fp32 (.fdiv ct d a b) ct 0 d [a, b] s fun l => fDiv f32 (rmOf ct) ct.fzo (nth l 0) (nth l 1)

/-- `fsqrt` (R121, R122). -/
def execFsqrt (ct : Ctl) (d a : BitVec 7) (s : State) : Host.Outcome State Fault Refusal :=
  fp32 (.fsqrt ct d a) ct 0 d [a] s fun l => fSqrt f32 (rmOf ct) ct.fzo (nth l 0)

/-- The only flags of a change of sign are those of a subnormal flushed by fzo alone (R124, R125). -/
def flushesAlone (ct : Ctl) : Bool := mayFlag ct && ct.fzo && !ct.fzi

/-- `fabs` (R125). -/
def execFabs (ct : Ctl) (d a : BitVec 7) (s : State) : Host.Outcome State Fault Refusal :=
  fp32 (.fabs ct d a) ct 4 d [a] s (may := flushesAlone ct) fun l => fSign f32 ct.fzo false (nth l 0)

/-- `fneg` (R125). -/
def execFneg (ct : Ctl) (d a : BitVec 7) (s : State) : Host.Outcome State Fault Refusal :=
  fp32 (.fneg ct d a) ct 4 d [a] s (may := flushesAlone ct) fun l => fSign f32 ct.fzo true (nth l 0)

/-- A special function of R127. -/
noncomputable def fpSpecial (i : Instr) (ct : Ctl) (code : Nat) (d a : BitVec 7) (s : State) : Host.Outcome State Fault Refusal :=
  run i s fun s =>
    let x := s.readF a.toNat
    let r := fSpecial code ct.fzi ct.fzo x.v
    .next (s.give 0 d.toNat [{ v := BitVec.ofNat 32 r.1, p := x.p }] (keepFlags ct r.2) (mayFlag ct))

/-- `frcp` (R127). -/
noncomputable def execFrcp (ct : Ctl) (d a : BitVec 7) (s : State) : Host.Outcome State Fault Refusal :=
  fpSpecial (.frcp ct d a) ct 2 d a s

/-- `frsq` (R127). -/
noncomputable def execFrsq (ct : Ctl) (d a : BitVec 7) (s : State) : Host.Outcome State Fault Refusal :=
  fpSpecial (.frsq ct d a) ct 3 d a s

/-- `fexp2` (R127). -/
noncomputable def execFexp2 (ct : Ctl) (d a : BitVec 7) (s : State) : Host.Outcome State Fault Refusal :=
  fpSpecial (.fexp2 ct d a) ct 4 d a s

/-- `flog2` (R127). -/
noncomputable def execFlog2 (ct : Ctl) (d a : BitVec 7) (s : State) : Host.Outcome State Fault Refusal :=
  fpSpecial (.flog2 ct d a) ct 5 d a s

/-- `fsinpi` (R127). -/
noncomputable def execFsinpi (ct : Ctl) (d a : BitVec 7) (s : State) : Host.Outcome State Fault Refusal :=
  fpSpecial (.fsinpi ct d a) ct 6 d a s

/-- `fcospi` (R127). -/
noncomputable def execFcospi (ct : Ctl) (d a : BitVec 7) (s : State) : Host.Outcome State Fault Refusal :=
  fpSpecial (.fcospi ct d a) ct 7 d a s

/-- `ftanh` (R127). -/
noncomputable def execFtanh (ct : Ctl) (d a : BitVec 7) (s : State) : Host.Outcome State Fault Refusal :=
  fpSpecial (.ftanh ct d a) ct 8 d a s

/-- `ffloor` (R125). -/
def execFfloor (ct : Ctl) (d a : BitVec 7) (s : State) : Host.Outcome State Fault Refusal :=
  fp32 (.ffloor ct d a) ct 4 d [a] s fun l => fIntegral f32 2 false (nth l 0)

/-- `fceil` (R125). -/
def execFceil (ct : Ctl) (d a : BitVec 7) (s : State) : Host.Outcome State Fault Refusal :=
  fp32 (.fceil ct d a) ct 4 d [a] s fun l => fIntegral f32 3 false (nth l 0)

/-- `ftrunc` (R125). -/
def execFtrunc (ct : Ctl) (d a : BitVec 7) (s : State) : Host.Outcome State Fault Refusal :=
  fp32 (.ftrunc ct d a) ct 4 d [a] s fun l => fIntegral f32 1 false (nth l 0)

/-- `frint` (R125). -/
def execFrint (ct : Ctl) (d a : BitVec 7) (s : State) : Host.Outcome State Fault Refusal :=
  fp32 (.frint ct d a) ct 4 d [a] s fun l => fIntegral f32 (rmOf ct) true (nth l 0)

/-- `fclass` (R126). -/
def execFclass (ct : Ctl) (d a : BitVec 7) (s : State) : Host.Outcome State Fault Refusal :=
  fp32 (.fclass ct d a) ct 4 d [a] s (may := false) fun l => (fClass f32 (nth l 0), 0)

/-- A conversion from a register's value to a register (R128). -/
def cvt1 (i : Instr) (ct : Ctl) (d a : BitVec 7) (s : State) (f : Nat → Nat × Fl) (may : Bool := mayFlag ct) :
    Host.Outcome State Fault Refusal :=
  run i s fun s =>
    let x := s.readF a.toNat
    let r := f x.v.toNat
    .next (s.give 4 d.toNat [{ v := BitVec.ofNat 32 r.1, p := x.p }] (keepFlags ct r.2) may)

/-- A conversion of the quad x[a]-x[a+3] to four bytes (R60, R128). -/
def cvtQuad (i : Instr) (ct : Ctl) (d a : BitVec 7) (s : State) (f : FVal → Nat × Fl) : Host.Outcome State Fault Refusal :=
  run i s fun s =>
    let rs := s.readN a.toNat 4
    let es := rs.map fun r => f (val32 ct r)
    .next (s.give 4 d.toNat [{ v := BitVec.ofNat 32 (leNat (es.map fun e => BitVec.ofNat 8 e.1)), p := rs.any (·.p) }]
      (keepFlags ct (es.foldl (fun fl e => fl ||| e.2) 0)) (mayFlag ct))

/-- `fcvtF32I32` (R58-R60, R128). -/
def execFcvtF32I32 (ct : Ctl) (d a : BitVec 7) (s : State) : Host.Outcome State Fault Refusal :=
  cvt1 (.fcvtF32I32 ct d a) ct d a s fun v => intToF f32 (rmOf ct) ct.fzo (signedOf 32 v)

/-- `fcvtF32Ui32` (R58-R60, R128). -/
def execFcvtF32Ui32 (ct : Ctl) (d a : BitVec 7) (s : State) : Host.Outcome State Fault Refusal :=
  cvt1 (.fcvtF32Ui32 ct d a) ct d a s fun v => intToF f32 (rmOf ct) ct.fzo v

/-- `fcvtI32F32` (R58-R60, R128). -/
def execFcvtI32F32 (ct : Ctl) (d a : BitVec 7) (s : State) : Host.Outcome State Fault Refusal :=
  cvt1 (.fcvtI32F32 ct d a) ct d a s fun v => fToInt 1 true (FFmt.decode f32 ct.fzi v)

/-- `fcvtI32rF32` (R58-R60, R128). -/
def execFcvtI32rF32 (ct : Ctl) (d a : BitVec 7) (s : State) : Host.Outcome State Fault Refusal :=
  cvt1 (.fcvtI32rF32 ct d a) ct d a s fun v => fToInt (rmOf ct) true (FFmt.decode f32 ct.fzi v)

/-- `fcvtUi32F32` (R58-R60, R128). -/
def execFcvtUi32F32 (ct : Ctl) (d a : BitVec 7) (s : State) : Host.Outcome State Fault Refusal :=
  cvt1 (.fcvtUi32F32 ct d a) ct d a s fun v => fToInt 1 false (FFmt.decode f32 ct.fzi v)

/-- `fcvtF16F32` (R58-R60, R128). -/
def execFcvtF16F32 (ct : Ctl) (d a : BitVec 7) (s : State) : Host.Outcome State Fault Refusal :=
  cvt1 (.fcvtF16F32 ct d a) ct d a s fun v => fConvert f16 (rmOf ct) ct.fzo (FFmt.decode f32 ct.fzi v)

/-- `fcvtF32F16` (R58-R60, R128). -/
def execFcvtF32F16 (ct : Ctl) (d a : BitVec 7) (s : State) : Host.Outcome State Fault Refusal :=
  cvt1 (.fcvtF32F16 ct d a) ct d a s fun v => fConvert f32 0 ct.fzo (FFmt.decode f16 ct.fzi (bits v 0 16))

/-- `fcvtBf16F32` (R58-R60, R128). -/
def execFcvtBf16F32 (ct : Ctl) (d a : BitVec 7) (s : State) : Host.Outcome State Fault Refusal :=
  cvt1 (.fcvtBf16F32 ct d a) ct d a s fun v => fConvert bf16 (rmOf ct) ct.fzo (FFmt.decode f32 ct.fzi v)

/-- `fcvtF32Bf16` (R58-R60, R128). -/
def execFcvtF32Bf16 (ct : Ctl) (d a : BitVec 7) (s : State) : Host.Outcome State Fault Refusal :=
  cvt1 (.fcvtF32Bf16 ct d a) ct d a s fun v => fConvert f32 0 ct.fzo (FFmt.decode bf16 ct.fzi (bits v 0 16))

/-- `fcvtE4m3F32` (R60, R128). -/
def execFcvtE4m3F32 (ct : Ctl) (d a : BitVec 7) (s : State) : Host.Outcome State Fault Refusal :=
  cvtQuad (.fcvtE4m3F32 ct d a) ct d a s (fTo8 e4m3 true (rmOf ct))

/-- `fcvtE4m3nF32` (R60, R128). -/
def execFcvtE4m3nF32 (ct : Ctl) (d a : BitVec 7) (s : State) : Host.Outcome State Fault Refusal :=
  cvtQuad (.fcvtE4m3nF32 ct d a) ct d a s (fTo8 e4m3 false (rmOf ct))

/-- `fcvtE5m2F32` (R60, R128). -/
def execFcvtE5m2F32 (ct : Ctl) (d a : BitVec 7) (s : State) : Host.Outcome State Fault Refusal :=
  cvtQuad (.fcvtE5m2F32 ct d a) ct d a s (fTo8 e5m2 true (rmOf ct))

/-- `fcvtF32E4m3` (R59, R128): no flag, for the 8-bit formats have no signalling NaN (R51) and are never flushed (R56). -/
def execFcvtF32E4m3 (ct : Ctl) (d a : BitVec 7) (n : BitVec 2) (s : State) : Host.Outcome State Fault Refusal :=
  cvt1 (.fcvtF32E4m3 ct d a n) ct d a s (may := false) fun v => ((fConvert f32 0 ct.fzo (decodeE4m3 (bits v (8 * n.toNat) 8))).1, 0)

/-- `fcvtF32E5m2` (R59, R128): no flag, for the 8-bit formats have no signalling NaN (R51) and are never flushed (R56). -/
def execFcvtF32E5m2 (ct : Ctl) (d a : BitVec 7) (n : BitVec 2) (s : State) : Host.Outcome State Fault Refusal :=
  cvt1 (.fcvtF32E5m2 ct d a n) ct d a s (may := false) fun v => ((fConvert f32 0 ct.fzo (FFmt.decode e5m2 false (bits v (8 * n.toNat) 8))).1, 0)

/-- `fcvt.f32.f64` (R59, R128). -/
def execFcvtF32F64 (ct : Ctl) (d a : BitVec 7) (s : State) : Host.Outcome State Fault Refusal :=
  run (.fcvtF32F64 ct d a) s fun s =>
    let x := s.readD a.toNat
    let r := fConvert f32 (rmOf ct) ct.fzo (FFmt.decode f64 ct.fzi x.1.toNat)
    .next (s.give 0 d.toNat [{ v := BitVec.ofNat 32 r.1, p := x.2 }] (keepFlags ct r.2) (mayFlag ct))

/-- `fcvt.f64.f32` (R59, R128). -/
def execFcvtF64F32 (ct : Ctl) (d a : BitVec 7) (s : State) : Host.Outcome State Fault Refusal :=
  run (.fcvtF64F32 ct d a) s fun s =>
    let x := s.readF a.toNat
    let r := fConvert f64 0 ct.fzo (val32 ct x)
    .next (s.give 0 d.toNat (pairOf (BitVec.ofNat 64 r.1) x.p) (keepFlags ct r.2) (mayFlag ct))

/-- `fcvt.f64.i32` (R58, R128): always exact, so no flag. -/
def execFcvtF64I32 (ct : Ctl) (d a : BitVec 7) (s : State) : Host.Outcome State Fault Refusal :=
  run (.fcvtF64I32 ct d a) s fun s =>
    let x := s.readF a.toNat
    let r := intToF f64 0 ct.fzo (signedOf 32 x.v.toNat)
    .next (s.give 0 d.toNat (pairOf (BitVec.ofNat 64 r.1) x.p))

/-- `fcvt.i32.f64` (R58, R128): toward zero. -/
def execFcvtI32F64 (ct : Ctl) (d a : BitVec 7) (s : State) : Host.Outcome State Fault Refusal :=
  run (.fcvtI32F64 ct d a) s fun s =>
    let x := s.readD a.toNat
    let r := fToInt 1 true (FFmt.decode f64 ct.fzi x.1.toNat)
    .next (s.give 0 d.toNat [{ v := BitVec.ofNat 32 r.1, p := x.2 }] (keepFlags ct r.2) (mayFlag ct))

/-- `fcmp` (R129): a poisoned source is consumed (R110). -/
def execFcmp (ct : Ctl) (p : BitVec 4) (c : BitVec 3) (a b : BitVec 7) (s : State) : Host.Outcome State Fault Refusal :=
  run (.fcmp ct p c a b) s fun s =>
    let x := s.readF a.toNat
    let y := s.readF b.toNat
    if x.p || y.p then .consume s
    else
      let r := fCmp c.toNat (val32 ct x) (val32 ct y)
      .next (s.giveP 4 p.toNat r.1 (keepFlags ct r.2) (mayFlag ct))

/-- `hfma2` (R121, R122). -/
def execHfma2 (ct : Ctl) (d a b : BitVec 7) (s : State) : Host.Outcome State Fault Refusal :=
  fp16 (.hfma2 ct d a b) ct f16 d [a, b, d] s fun l => fFma f16 (rmOf ct) ct.fzo (nth l 0) (nth l 1) (nth l 2)

/-- `hadd2` (R121, R122). -/
def execHadd2 (ct : Ctl) (d a b : BitVec 7) (s : State) : Host.Outcome State Fault Refusal :=
  fp16 (.hadd2 ct d a b) ct f16 d [a, b] s fun l => fAdd f16 (rmOf ct) ct.fzo (nth l 0) (nth l 1)

/-- `hmul2` (R121, R122). -/
def execHmul2 (ct : Ctl) (d a b : BitVec 7) (s : State) : Host.Outcome State Fault Refusal :=
  fp16 (.hmul2 ct d a b) ct f16 d [a, b] s fun l => fMul f16 (rmOf ct) ct.fzo (nth l 0) (nth l 1)

/-- `bfma2` (R121, R122). -/
def execBfma2 (ct : Ctl) (d a b : BitVec 7) (s : State) : Host.Outcome State Fault Refusal :=
  fp16 (.bfma2 ct d a b) ct bf16 d [a, b, d] s fun l => fFma bf16 (rmOf ct) ct.fzo (nth l 0) (nth l 1) (nth l 2)

/-- `dadd` (R124). -/
def execDadd (ct : Ctl) (d a b : BitVec 7) (s : State) : Host.Outcome State Fault Refusal :=
  fp64 (.dadd ct d a b) ct d [a, b] s fun l => fAdd f64 (rmOf ct) ct.fzo (nth l 0) (nth l 1)

/-- `dmul` (R124). -/
def execDmul (ct : Ctl) (d a b : BitVec 7) (s : State) : Host.Outcome State Fault Refusal :=
  fp64 (.dmul ct d a b) ct d [a, b] s fun l => fMul f64 (rmOf ct) ct.fzo (nth l 0) (nth l 1)

/-- `dfma` (R124). -/
def execDfma (ct : Ctl) (d a b : BitVec 7) (s : State) : Host.Outcome State Fault Refusal :=
  fp64 (.dfma ct d a b) ct d [a, b, d] s fun l => fFma f64 (rmOf ct) ct.fzo (nth l 0) (nth l 1) (nth l 2)

/-- `dsub` (R124). -/
def execDsub (ct : Ctl) (d a : BitVec 7) (s : State) : Host.Outcome State Fault Refusal :=
  fp64 (.dsub ct d a) ct d [d, a] s fun l => fAdd f64 (rmOf ct) ct.fzo (nth l 0) (nth l 1).neg

/-- `dmin` (R124). -/
def execDmin (ct : Ctl) (d a : BitVec 7) (s : State) : Host.Outcome State Fault Refusal :=
  fp64 (.dmin ct d a) ct d [d, a] s fun l => fMinMax f64 ct.fzo false (nth l 0) (nth l 1)

/-- `dmax` (R124). -/
def execDmax (ct : Ctl) (d a : BitVec 7) (s : State) : Host.Outcome State Fault Refusal :=
  fp64 (.dmax ct d a) ct d [d, a] s fun l => fMinMax f64 ct.fzo true (nth l 0) (nth l 1)

/-- `ddiv` (R124). -/
def execDdiv (ct : Ctl) (d a : BitVec 7) (s : State) : Host.Outcome State Fault Refusal :=
  fp64 (.ddiv ct d a) ct d [d, a] s fun l => fDiv f64 (rmOf ct) ct.fzo (nth l 0) (nth l 1)

/-- `dsqrt` (R124). -/
def execDsqrt (ct : Ctl) (d a : BitVec 7) (s : State) : Host.Outcome State Fault Refusal :=
  fp64 (.dsqrt ct d a) ct d [a] s fun l => fSqrt f64 (rmOf ct) ct.fzo (nth l 0)

/-- `dneg` (R124). -/
def execDneg (ct : Ctl) (d a : BitVec 7) (s : State) : Host.Outcome State Fault Refusal :=
  fp64 (.dneg ct d a) ct d [a] s (may := flushesAlone ct) fun l => fSign f64 ct.fzo true (nth l 0)

/-- `dabs` (R124). -/
def execDabs (ct : Ctl) (d a : BitVec 7) (s : State) : Host.Outcome State Fault Refusal :=
  fp64 (.dabs ct d a) ct d [a] s (may := flushesAlone ct) fun l => fSign f64 ct.fzo false (nth l 0)

end Sys2Proof.Machine
end

