-- ==== Sys2Proof/Machine/Tile.lean ====
section
/-! DEFINITION. Tile: NB blocks, the matrix unit's commands, and the tile family's instructions (R64-R72, R220-R238). -/

namespace Sys2Proof.Machine

open Sys2Proof

noncomputable section

/-! ### NB blocks (R64-R68) -/

/-- An element from its planes, `pl` plane 0 first, of which the top `p` were read (R65). -/
def element (pl : List Nat) (p i : Nat) : Int :=
  let v := (List.range 8).foldl (fun v j => v + (if 8 - p ≤ j ∧ bit (pl.getD j 0) i then 2 ^ j else 0)) 0
  signedOf 8 v + if p < 8 then ((2 ^ (7 - p) : Nat) : Int) else 0

def elements (pl : List Nat) (p : Nat) : List Int := (List.range 32).map (element pl p)

/-- The eight planes of 32 elements, plane 0 first (R64). -/
def planesOf (el : List Int) : List Nat :=
  (List.range 8).map fun j => (el.zipIdx).foldl (fun v e => v + (if bit (ofInt 8 e.1) j then 2 ^ e.2 else 0)) 0

/-- Where block `n` of a tensor at `x` has its scale byte and its plane `j` (R67). -/
def scaleAt (x n : Nat) : Nat := x + 1056 * (n / 32) + n % 32
def planeAt (x n j : Nat) : Nat := x + 1056 * (n / 32) + 32 + 128 * (7 - j) + 4 * (n % 32)

/-- m / 2^k, rounded to nearest, ties to even. -/
def rneShift (m k : Nat) : Nat :=
  let q := m / 2 ^ k
  let r := m % 2 ^ k
  if 2 ^ k < 2 * r ∨ (2 * r = 2 ^ k ∧ q % 2 = 1) then q + 1 else q

/-- An exact value's scale to an integer, rounded and clamped to ±127 (R68). -/
def quantOne (s : Int) (v : FVal) : Int :=
  match v with
  | .fin n m e =>
    let k := e + 133 - s
    let q := if 0 ≤ k then m * 2 ^ k.toNat else rneShift m (-k).toNat
    let c : Int := (Nat.min q 127 : Nat)
    if n then -c else c
  | _ => 0

def floorLog (v : FVal) : Option Int :=
  match v with
  | .fin _ m e => if m = 0 then none else some (Nat.log2 m + e)
  | _ => none

/-- A block's scale and elements (R68). -/
def quantBlock (vs : List FVal) : Nat × List Int :=
  if vs.any fun v => match v with | .fin _ _ _ => false | _ => true then (0xFF, vs.map fun _ => 0)
  else match vs.filterMap floorLog with
    | [] => (127, vs.map fun _ => 0)
    | l :: ls =>
      let s := max 0 (min 254 (ls.foldl max l + 127))
      (s.toNat, vs.map (quantOne s))

/-! ### Accumulation (R69, R70) -/

def dot (x y : List Int) : Int := (List.zipWith (· * ·) x y).foldl (· + ·) 0

/-- The addend of a partial at exponent difference `k` (R70). -/
def addend (p k : Int) : Int :=
  if 0 ≤ k then p * (2 ^ k.toNat : Nat)
  else
    let m : Int := (rneShift p.natAbs (-k).toNat : Nat)
    if p < 0 then -m else m

/-- Saturate48 and whether it clamped. -/
def sat48 (v : Int) : Int × Bool :=
  let m : Int := (2 ^ 47 - 1 : Nat)
  if m < v then (m, true) else if v < -m then (-m, true) else (v, false)

/-- One block added to one accumulator: word, invalid bit, whether it saturated. -/
def addBlock (e : Int) (x : Int × Bool × Bool) (sa : Nat) (as : List Int) (sb : Nat) (bs : List Int) : Int × Bool × Bool :=
  if sa = 0xFF ∨ sb = 0xFF then (x.1, true, x.2.2)
  else
    let r := sat48 (x.1 + addend (dot as bs) ((sa : Int) + sb - 266 - e))
    (r.1, x.2.1, x.2.2 || r.2)

def MUnit.row (u : MUnit) (q : Nat) : AccRow := AMap.getD u.rows q {}
def MUnit.bank (u : MUnit) (b : Nat) : Bank := AMap.getD u.banks b {}
def AccRow.accAt (r : AccRow) (n : Nat) : Int := r.acc.getD n 0
def AccRow.invAt (r : AccRow) (n : Nat) : Bool := r.inv.getD n false

/-- Element k of column n, block j of a bank, and its scale. -/
def Bank.block (b : Bank) (n j : Nat) : Nat × List Int :=
  (if b.i8 then 133 else (b.scale.getD n []).getD j 0, ((b.el.getD n []).drop (32 * j)).take 32)

/-! ### wload (R225) -/

def wloadStep (u : MUnit) (c : Cmd) : MUnit × JStep :=
  let t := c.tup
  let w := ta t 0
  let b := bits (tw t 2) 18 3
  let i8 := bits (tw t 2) 16 2 == 1
  let n := c.i
  let reads : List (Nat × Nat) :=
    if i8 then piecesOf (w + 128 * n) 128
    else (List.range 4).flatMap fun j => (scaleAt w (4 * n + j), 1) :: (List.range 8).map fun k => (planeAt w (4 * n + j) k, 4)
  let bk := u.bank b
  if n = 128 then ({ u with banks := AMap.set u.banks b { bk with loaded := true, i8 } }, .finish c)
  else if c.buf = [] then
    (if n = 0 then { u with banks := AMap.set u.banks b {} } else u, .read reads c)
  else if c.buf.any (·.2.2) then (u, .poison)
  else
    let blocks : List (Nat × List Int) := (List.range 4).map fun j =>
      if i8 then (133, (c.gather (w + 128 * n + 32 * j) 32).map fun x => x.1.toInt)
      else (leNat ((c.gather (scaleAt w (4 * n + j)) 1).map (·.1)),
        elements ((List.range 8).map fun k => (c.word (planeAt w (4 * n + j) k)).1.toNat) 8)
    let bk := { bk with el := bk.el ++ [blocks.flatMap (·.2)], scale := bk.scale ++ [blocks.map (·.1)]
                        sum := bk.sum ++ [blocks.map fun x => x.2.foldl (· + ·) 0] }
    ({ u with banks := AMap.set u.banks b bk }, .go { c with i := n + 1, buf := [] })

/-! ### mma (R226-R228) -/

/-- The fields of an `mma`. -/
structure Mma where
  x : Nat
  b0 : Nat
  nb : Nat
  p : Nat
  i8 : Bool
  ragged : Bool
  clear : Bool
  e : Int
  row0 : Nat
  top : Nat
  rc : Nat
deriving DecidableEq, Repr

def mmaOf (t : List Word) : Mma :=
  let g := tw t 2
  let r := tw t 3
  { x := ta t 0, b0 := bits g 29 3, nb := bits g 26 3 + 1, p := bits g 23 3 + 1, i8 := bit g 22, ragged := bit g 21
    clear := bit g 20, e := signedOf 10 (bits g 10 10), row0 := bits r 6 6, top := bits r 6 6 + bits g 0 6 + 1, rc := bits r 12 9 }

/-- The reads that fill row buffer row `q`. -/
def fillReads (m : Mma) (q : Nat) : List (Nat × Nat) :=
  if m.i8 then piecesOf (m.x + q * (128 * m.nb)) (128 * m.nb)
  else (List.range (4 * m.nb)).flatMap fun g =>
    (scaleAt m.x (4 * m.nb * q + g), 1) :: (List.range m.p).map fun k => (planeAt m.x (4 * m.nb * q + g) (7 - k), 4)

/-- The granules of a filled row: scale and planes, plane 0 first (R66). -/
def fillGranules (m : Mma) (q : Nat) (c : Cmd) : List (Nat × List Nat) :=
  (List.range (4 * m.nb)).map fun g =>
    if m.i8 then
      (133, planesOf ((c.gather (m.x + q * (128 * m.nb) + 32 * g) 32).map fun x => x.1.toInt))
    else (leNat ((c.gather (scaleAt m.x (4 * m.nb * q + g)) 1).map (·.1)),
      (List.range 8).map fun j => if 8 - m.p ≤ j then (c.word (planeAt m.x (4 * m.nb * q + g) j)).1.toNat else 0)

/-- The check of a row before it is filled (R227, R233): its banks are loaded. -/
def banksOk (u : MUnit) (m : Mma) : Bool := (List.range m.nb).all fun k => (u.bank (m.b0 + k)).loaded

/-- The check of a filled row before it is added (R227, R233): exponents equal. -/
def rowOk (u : MUnit) (m : Mma) (q : Nat) : Bool := m.clear || (u.row q).clear || (u.row q).e == m.e

/-- What an `mma` does next. `i` is the segment's first row, `j` the next row, `aux` the segment's end and M; `hi` is 1
while a row is filled or being filled. -/
def mmaStep (u : MUnit) (ctr : Nat → Word) (c : Cmd) : JStep :=
  let m := mmaOf c.tup
  let r := if c.i < m.row0 then m.row0 else c.i
  match c.aux with
  | [] =>
    let bnd := Nat.min (8 * (r / 8 + 1)) m.top
    let w := ctr m.rc
    let n := w.toNat % 2 ^ 31
    if m.top ≤ r then .finish c
    else if m.ragged && decide (n < bnd) && !w.msb && !c.closed then .halt { c with waiting := true }
    else
      let cnt := if m.ragged then Nat.min n m.top else m.top
      if cnt ≤ r then .finish { c with waiting := false }
      else .go { c with waiting := false, i := r, j := r, aux := [Nat.min bnd cnt, bnd, cnt], hi := 0 }
  | e :: rest =>
    if c.j < e then
      if c.hi = 1 then .halt c
      else if !banksOk u m then .failFree 0x18
      else .read (fillReads m c.j) { c with hi := 1 }
    else if rest.getD 1 0 < rest.getD 0 0 then .finish c
    else .go { c with i := rest.getD 0 0, aux := [] }

/-- The addition of a filled row (R227, R69, R70): the unit, and whether an accumulator saturated. -/
def mmaRow (u : MUnit) (c : Cmd) : MUnit × Bool :=
  let m := mmaOf c.tup
  let q := c.j
  let gr := fillGranules m q c
  let old := u.row q
  let old : AccRow := if m.clear || old.clear then { clear := false, e := m.e, acc := List.replicate 128 0, inv := List.replicate 128 false } else old
  let cols := (List.range 128).map fun n =>
    gr.zipIdx.foldl (fun x g =>
      let b := (u.bank (m.b0 + g.2 / 4)).block n (g.2 % 4)
      addBlock m.e x g.1.1 (elements g.1.2 m.p) b.1 b.2) (old.accAt n, old.invAt n, false)
  let sat := cols.any (·.2.2)
  ({ u with rows := AMap.set u.rows q { old with acc := cols.map (·.1), inv := cols.map (·.2.1) }, sat := u.sat || sat
            buf := gr.zipIdx.foldl (fun b g => AMap.set b (q, g.2) g.1) u.buf }, sat)

/-! ### accx (R229, R72) -/

/-- An accumulator's exact value. -/
def accVal (r : AccRow) (n : Nat) : FVal :=
  if r.clear then .fin false 0 0
  else if r.invAt n then .nan false
  else .fin (decide (r.accAt n < 0)) (r.accAt n).natAbs r.e

/-- An accumulator exported as f32 or bf16 (R72). -/
def accFloat (f : FFmt) (r : AccRow) (n : Nat) : Nat :=
  match accVal r n with
  | .fin s m e => if m = 0 then 0 else (FFmt.round f 0 false s m e false).1
  | _ => FFmt.nan f

/-- The writes of block `n` of a tensor at `x`. -/
def blockWrites (x n : Nat) (b : Nat × List Int) : List (Nat × List (Byte × Bool)) :=
  (scaleAt x n, [(BitVec.ofNat 8 b.1, false)]) ::
    (planesOf b.2).zipIdx.map fun p => (planeAt x n p.2, wordBytes (BitVec.ofNat 32 p.1) false)

/-- A row of four NB8 blocks: the scale word and plane words of one group (R67). -/
def rowWrites (x i : Nat) (bs : List (Nat × List Int)) : List (Nat × List (Byte × Bool)) :=
  let n := 4 * i
  (scaleAt x n, bs.map fun b => (BitVec.ofNat 8 b.1, false)) ::
    (List.range 8).map fun j => (planeAt x n j, bs.flatMap fun b => wordBytes (BitVec.ofNat 32 ((planesOf b.2).getD j 0)) false)

/-- `accx`: row `i`; `j` is 1 while its writes are being acknowledged, 2 while the padding of R67 is. -/
def accxStep (u : MUnit) (c : Cmd) : MUnit × JStep :=
  let t := c.tup
  let w := tw t 2
  let f := bits w 19 2
  let row0 := bits w 13 6
  let rows := bits w 7 6 + 1
  let d := ta t 0
  let r := u.row (row0 + c.i)
  let blk (k : Nat) : Nat × List Int := quantBlock ((List.range 32).map fun x => accVal r (32 * k + x))
  if c.j = 1 then
    (if bit w 6 then { u with rows := AMap.set u.rows (row0 + c.i) { r with clear := true } } else u, .units 1 { c with i := c.i + 1, j := 0 })
  else if c.i < rows then
    (u, if f = 2 then .write (rowWrites d c.i ((List.range 4).map blk)) { c with j := 1 }
        else
          let a := d + c.i * tw t 3
          let bs := if f = 0 then (List.range 128).flatMap fun n => leBytes 4 (accFloat f32 r n)
                    else (List.range 128).flatMap fun n => leBytes 2 (accFloat bf16 r n)
          .write (dataPieces a (bs.map fun b => (b, false))) { c with j := 1 })
  else if f = 2 ∧ rows % 8 ≠ 0 ∧ c.j = 0 then
    (u, .write ((List.range (8 - rows % 8)).flatMap fun k => rowWrites d (rows + k) (List.replicate 4 (127, List.replicate 32 0))) { c with j := 2 })
  else (u, .finish c)

/-! ### quant2 (R230) -/

def decodeSrc (f v : Nat) : FVal :=
  match f with
  | 0 => FFmt.decode f32 false v
  | 1 => FFmt.decode bf16 false v
  | 2 => decodeE4m3 v
  | _ => FFmt.decode e5m2 false v

/-- A group of 32 blocks as its 1,056 bytes (R67), each block with whether it is poisoned: a poisoned block poisons the
word of its scale byte and its eight plane words. -/
def groupBytes (bs : List ((Nat × List Int) × Bool)) : List (Byte × Bool) :=
  let sc := bs.map fun b => (BitVec.ofNat 8 b.1.1, b.2)
  let scales := sc.zipIdx.map fun b => (b.1.1, ((sc.drop (b.2 / 4 * 4)).take 4).any (·.2))
  scales ++ (List.range 8).flatMap fun k => bs.flatMap fun b => wordBytes (BitVec.ofNat 32 ((planesOf b.1.2).getD (7 - k) 0)) b.2

/-- `quant2`: `j` 0 reads row `i` of the source into `aux` (value and poison of each element); 1 writes group `i` of the
row-blocked tensor; 2 of the column-blocked one; 3 done. -/
def quant2Step (c : Cmd) : JStep :=
  let t := c.tup
  let nr := qRows t
  let nc := qCols t
  let z := qSize t
  let f := bits (tw t 6) 19 2
  let src := ta t 0 + c.i * (nc * z)
  let groups := nr * nc / 1024
  let val (r k : Nat) : FVal × Bool := let v := c.aux.getD (r * nc + k) 0; (decodeSrc f (v / 2), v % 2 == 1)
  let block (l : List (FVal × Bool)) : (Nat × List Int) × Bool := (quantBlock (l.map (·.1)), l.any (·.2))
  match c.j with
  | 0 =>
    if c.i = nr then .go { c with i := 0, j := 1 }
    else if c.buf = [] then .read (piecesOf src (nc * z)) c
    else
      let row := (List.range nc).map fun k =>
        let b := c.gather (src + k * z) z
        2 * leNat (b.map (·.1)) + (b.any (·.2)).toNat
      .go { c with i := c.i + 1, aux := c.aux ++ row, buf := [] }
  | 1 =>
    if ta t 2 = 0 ∨ c.i = groups then .go { c with i := 0, j := 2 }
    else
      let bs := (List.range 32).map fun b =>
        let n := 32 * c.i + b
        block ((List.range 32).map fun k => val (n / (nc / 32)) (n % (nc / 32) * 32 + k))
      .write (dataPieces (ta t 2 + 1056 * c.i) (groupBytes bs)) { c with i := c.i + 1 }
  | 2 =>
    if ta t 4 = 0 ∨ c.i = groups then .go { c with j := 3 }
    else
      let bs := (List.range 32).map fun b =>
        let n := 32 * c.i + b
        block ((List.range 32).map fun k => val (n % (nr / 32) * 32 + k) (n / (nr / 32)))
      .write (dataPieces (ta t 4 + 1056 * c.i) (groupBytes bs)) { c with i := c.i + 1 }
  | _ => .finish c

/-! ### tclr and tstat (R231, R232) -/

def tclrUnit (u : MUnit) (w : Nat) : MUnit :=
  let row0 := bits w 0 6
  let u := { u with rows := (List.range (bits w 6 6 + 1)).foldl (fun m k => AMap.set m (row0 + k) {}) u.rows }
  let u := if bit w 14 then { u with banks := [] } else u
  if bit w 12 then { u with sat := false } else u

/-- The status word; `g` is the issuing group. -/
def tstatWord (u : MUnit) (g : BitVec 64) : Word :=
  let f (p : Bank → Bool) : Nat := (List.range 8).foldl (fun m b => m + if p (u.bank b) then 2 ^ b else 0) 0
  let waiting := match u.q with
    | c :: _ => c.started && c.fn == 1 && c.waiting
    | [] => false
  let inv := u.rows.any fun r => r.2.inv.any id
  BitVec.ofNat 32 (f (·.loaded) * 2 ^ 24 + f (fun b => b.loaded && b.i8) * 2 ^ 16 + waiting.toNat * 512 + (u.bound == some g).toNat * 256
    + inv.toNat * 2 + u.sat.toNat)

/-! ### The instructions (R223) -/

def tile (i : Instr) (fn len : Nat) (d a : BitVec 7) (s : State) (number : Bool) : Host.Outcome State Fault Refusal :=
  command i s d.toNat a.toNat len fn (fun s => .unit (s.partOf s.cur) 0) (fun t => checkLimits (unitLimits fn t)) number

/-- `wload` (R225). -/
def execWload (ct : Ctl) (d a : BitVec 7) (s : State) : Host.Outcome State Fault Refusal := tile (.wload ct d a) 0 3 d a s true
/-- `mma` (R226). -/
def execMma (ct : Ctl) (d a : BitVec 7) (s : State) : Host.Outcome State Fault Refusal := tile (.mma ct d a) 1 4 d a s true
/-- `accx` (R229). -/
def execAccx (ct : Ctl) (d a : BitVec 7) (s : State) : Host.Outcome State Fault Refusal := tile (.accx ct d a) 2 4 d a s true
/-- `tclr` (R231). -/
def execTclr (ct : Ctl) (a : BitVec 7) (s : State) : Host.Outcome State Fault Refusal := tile (.tclr ct a) 3 1 120 a s true
/-- `quant2` (R230). -/
def execQuant2 (ct : Ctl) (d a : BitVec 7) (s : State) : Host.Outcome State Fault Refusal := tile (.quant2 ct d a) 4 7 d a s true
/-- `tstat` (R232): its destination is scoreboarded until the unit performs it. -/
def execTstat (ct : Ctl) (d : BitVec 7) (s : State) : Host.Outcome State Fault Refusal := tile (.tstat ct d) 5 0 d 120 s false

/-- An earlier store or atomic of the lane issuing has not been applied at its home (R235). -/
def State.unapplied (s : State) : Bool :=
  s.accs.any fun e => e.2.owner == .thread { s.cur with sh := false } && e.2.path == 0
    && ((e.2.kind == .store && !e.2.acked) || e.2.kind == .atomic)

/-- `tarv` and `tarm` (R235): `f` gives the counter's new value. -/
def counterOp (i : Instr) (f : Word → Word → Word) (d a : BitVec 7) (s : State) : Host.Outcome State Fault Refusal :=
  run i s fun s =>
    let x := s.readF a.toNat
    let v := s.readF (a.toNat + 1)
    if x.p || v.p then .consume s
    else if 512 ≤ x.v.toNat then trapFree s 0x02
    else
      let s := s.log [11, x.v.toNat, v.v.toNat]
      if s.cur.sh then mirrorGive s
      else if s.unapplied then .wait s .order
      else commit s (opBytes [x, v]) fun s =>
        let c := coreOf s.cur
        let old := s.ctr c x.v.toNat
        if s.passive then passiveResult s d.toNat
        else
          let s := s.setCtr c x.v.toNat (f old v.v) (s.view c 0)
          .next ((s.give 0 d.toNat [{ v := old }]).answerTwin s.cur s.myGrp.num [{ v := old }] [])

/-- `tarv` (R235). -/
def execTarv (ct : Ctl) (d a : BitVec 7) (s : State) : Host.Outcome State Fault Refusal :=
  counterOp (.tarv ct d a) (fun old v =>
    ((old ||| v) &&& 0x80000000) ||| BitVec.ofNat 32 ((old.toNat % 2 ^ 31 + v.toNat % 2 ^ 31) % 2 ^ 31)) d a s

/-- `tarm` (R235). -/
def execTarm (ct : Ctl) (d a : BitVec 7) (s : State) : Host.Outcome State Fault Refusal := counterOp (.tarm ct d a) (fun _ v => v) d a s

/-! ### tdep (R237) -/

/-- Length of a task's command tuple. -/
def taskLen (target fn : Nat) : Nat :=
  if target = 0 then engineLen fn else if target = 2 then 5 else match fn with
    | 0 => 3
    | 1 => 4
    | 2 => 4
    | _ => 7

/-- The limits of the registration tuple itself. -/
def tdepLimits (t : List Word) : List (Nat × Bool) × List (Nat × Bool) :=
  let w := tw t 0
  let target := bits w 26 2
  let fn := bits w 21 5
  let fnOk := match target with
    | 0 => decide (fn ≤ 5)
    | 1 => fn == 0 || fn == 1 || fn == 2 || fn == 4
    | _ => true
  ([(0, decide (bits w 28 3 ≤ 4) && target != 3 && fnOk && bits w 0 21 == 0), okAddr t 5 4], [])

def taskLimits (target fn : Nat) (t : List Word) : List (Nat × Bool) × List (Nat × Bool) :=
  if target = 0 then engineLimits fn t
  else if target = 1 then unitLimits fn t
  else ([(0, true), okAddr t 2 1, (4, within (tw t 4) 1 1024)], [])

/-- `k` words read through the lsu path. -/
def State.readWords : Nat → State → Nat → RRes
  | 0, s, _ => .ok s []
  | k + 1, s, va => match s.readPiece va 4 0 1 with
    | .stop r => .stop r
    | .lost s => .lost s
    | .ok s b => match State.readWords k s (va + 4) with
      | .stop r => .stop r
      | .lost s => .lost s
      | .ok s bs => .ok s (b ++ bs)

/-- A word of a list of little-endian bytes. -/
def wordAt (bs : List (Byte × Bool)) (k : Nat) : Word := BitVec.ofNat 32 (leNat (((bs.drop (4 * k)).take 4).map (·.1)))

/-- The lowest entry of the dependency table that no task takes. -/
def Core.freeTask (x : Core) : Option Nat := (List.range 256).find? fun n => (AMap.find x.tasks n).isNone

/-- `tdep` (R237). -/
def execTdep (ct : Ctl) (d a : BitVec 7) (s : State) : Host.Outcome State Fault Refusal :=
  run (.tdep ct d a) s fun s =>
    let rs := (List.range 7).map fun k => s.readF (a.toNat + k)
    let t := rs.map (·.v)
    let w := tw t 0
    let target := bits w 26 2
    let fn := bits w 21 5
    if rs.any (·.p) then .consume s
    else match checkLimits (tdepLimits t) with
      | some p => trapAt s 0x18 p
      | none =>
        let s := s.log (12 :: t.map (·.toNat))
        if s.cur.sh then mirrorGive s
        else match s.readWords (taskLen target fn) (ta t 5) with
          | .stop r => match r with
            | .trap s cause va after =>
              if cause = 0x0F then .next ((s.limitHit va).give 0 d.toNat [{ v := 0xFFFFFFFF }]) else .trap s cause va after
            | r => r
          | .lost s => .next (s.give 0 d.toNat [{ v := 0xFFFFFFFF }])
          | .ok s bs =>
            let n := taskLen target fn
            let tup := (List.range n).map (wordAt bs)
            if bs.any (·.2) then .consume s
            else match checkLimits (taskLimits target fn tup) with
              | some p => trapAt s 0x18 (p + 7)
              | none => commit s (opBytes rs) fun s =>
                let c := coreOf s.cur
                let x := s.core c
                if s.passive then passiveResult s d.toNat
                else
                  let r : State × Word := match x.freeTask with
                    | none => (s, 0xFFFFFFFF)
                    | some e =>
                      let cpym := target = 0 ∧ fn = 1
                      let k : Task := { num := x.taskSeq, high := bit w 31, target, fn, tup, ready := false
                                        inputs := (List.range (bits w 28 3)).map fun j => (bits (tw t (1 + j)) 23 9, bits (tw t (1 + j)) 0 23)
                                        cmd := s.newCmd fn (if cpym then tup.take 8 else tup) (if cpym then tup.drop 8 else []) [] }
                      let x := { x with tasks := AMap.set x.tasks e { k with ready := x.met k }, taskSeq := x.taskSeq + 1 }
                      (s.setCore c x, BitVec.ofNat 32 e)
                  .next ((r.1.give 0 d.toNat [{ v := r.2 }]).answerTwin s.cur s.myGrp.num [{ v := r.2 }] [])

end

end Sys2Proof.Machine
end

