-- ==== Sys2Proof/Machine/Drive.lean ====
section
/-! DEFINITION. Drive: the progress of commands in flight, and the events of the engines, the matrix units and the
dependency table (R202-R211, R220-R238). -/

namespace Sys2Proof.Machine

open Sys2Proof

noncomputable section

/-- The control word of a command (R204, R225-R230). -/
def ctlWord (o : Owner) (c : Cmd) : Word :=
  match o with
  | .engine _ _ => c.tup.getD (match c.fn with
    | 2 => 6
    | 3 => 6
    | 4 => 11
    | _ => 7) 0
  | _ => match c.fn with
    | 0 => c.tup.getD 2 0
    | 1 => c.tup.getD 3 0
    | 2 => c.tup.getD 2 0
    | 4 => c.tup.getD 6 0
    | _ => 0

/-- A saturation during a command raises its trap once (R233). -/
def State.satTrap (s : State) (o : Owner) (c : Cmd) : State :=
  if c.sattrap && !c.satTrapped then
    let (v, s) := s.fresh
    let s := s.setCmd o { c with satTrapped := true }
    { s with reports := s.reports ++ [{ t := c.owner, gnum := c.gnum, cause := 0x19, va := v, tag := c.tag, region := c.region }] }
  else s

/-- A `tstat` writes its thread's register (R232). -/
def State.giveStat (s : State) (u : MUnit) (c : Cmd) : State :=
  let w : Reg := { v := tstatWord u c.gnum }
  let f (th : Thread) : Thread := th.receive (s.now c.core.die) c.dest [w]
  let s' := (s.onThread c.owner c.gnum f).imageWrite c.core c.owner c.gnum c.dest
  let g := s.grp (gidOf c.owner)
  if g.num ≠ c.gnum then s'
  else if g.shadow = 1 then s'.onThread { c.owner with sh := true } c.gnum f
  else match g.twin with
    | some h => let t : ThreadId := ⟨h.die, h.core, h.slot, c.owner.t, false⟩; s'.setThr t (f (s'.thr t))
    | none => s'

/-- What a command does next; a unit's command changes its unit. -/
def State.jobStep (s : State) (o : Owner) (c : Cmd) : State × JStep :=
  match o with
  | .engine e _ => (s, engineStep (((s.engine e).fly.takeWhile fun k => k.num != c.num).filter fun k => !k.waiting) c)
  | .unit p _ =>
    let u := (s.part p).unit
    match c.fn with
    | 0 => let r := wloadStep u c; (s.setUnit p r.1, r.2)
    | 1 =>
      let s := if c.aux = [] ∧ (mmaOf c.tup).ragged then s.cover c.core 2 (mmaOf c.tup).rc else s
      (s, mmaStep u (s.ctr c.core) c)
    | 2 => let r := accxStep u c; (s.setUnit p r.1, r.2)
    | 3 => (s.setUnit p (tclrUnit u (tw c.tup 0)), .finish c)
    | 4 => (s, quant2Step c)
    | _ => (s.giveStat u c, .finish c)
  | _ => (s, .halt c)

/-- A command in flight goes on until it waits for an access or an event. -/
def State.drive : Nat → State → Owner → State
  | 0, s, _ => s
  | k + 1, s, o => match s.cmdOf o with
    | none => s
    | some c =>
      if c.done || !c.started || c.outs ≠ [] || (s.core c.core).fbuf.any (fun p => p.owner == o) then s
      else
        let r := s.jobStep o c
        let s := r.1
        match r.2 with
        | .read ps c => (s.jobReads o c ps).1
        | .write ps c => (s.jobWrites o c ps).1
        | .go c => State.drive k (s.setCmd o c) o
        | .units n c =>
          let w := ctlWord o c
          let s := s.setCmd o c
          State.drive k (if ctlMode w = 2 then s.bump c.core (ctlCounter w) n (s.view c.core (pathOf o)) else s) o
        | .halt c => s.setCmd o c
        | .finish c => s.setCmd o { c with done := true }
        | .fail cause va => s.jobFail o cause va
        | .failFree cause => s.fresh.2.jobFail o cause s.fresh.1.toNat
        | .poison => s.jobConsume o

/-- Longest run of a command without an access. -/
def driveFuel : Nat := 4096

def State.go (s : State) (o : Owner) : State := State.drive driveFuel s o

/-- A command that waits for no access of its own looks again: what held its translation or its place in a fault buffer back may be
over (R206). -/
def State.driveAll (s : State) : State :=
  let eng (e : EngineId) (x : Engine) : List Owner := x.fly.map fun c => .engine e c.num
  let l := (s.copies.flatMap fun e => eng (.copy e.1.die e.1.core) e.2) ++
    (s.clusters.flatMap fun e => eng (.chain e.1.1 e.1.2) e.2.chain ++ eng (.psum e.1.1 e.1.2) e.2.psum ++ eng (.walk e.1.1 e.1.2) e.2.walk) ++
    s.parts.flatMap fun e => e.2.unit.q.map fun c => .unit e.1 c.num
  l.foldl State.go s

def flyMax : EngineId → Nat
  | .copy _ _ => 4
  | .chain _ _ => 2
  | .psum _ _ => 1
  | .walk _ _ => 4

/-- A copy engine's head command may start beside those in flight (R210). -/
def mayStart (e : EngineId) (fly : List Cmd) (c : Cmd) : Bool :=
  match e with
  | .copy _ _ => clear (startRanges c) fly && fly.all fun k => !(k.fn == 4 && k.j == 0 && !k.done)
  | _ => true

/-- An engine starts the oldest command queued, where it may (R202, R206, R210). -/
def execEngineCommandStart (e : EngineId) (s : State) : Host.Outcome State Fault Refusal :=
  let x := s.engine e
  match x.q with
  | [] => .next s
  | c :: q =>
    let fly := x.fly.filter fun k => !k.waiting
    if fly.length < flyMax e && mayStart e fly c then
      .next ((s.setEngine e { x with q, fly := x.fly ++ [{ c with started := true }] }).go (.engine e c.num))
    else .next s

/-- The counter of a command that has completed as a whole (R204); its launch's completion follows its writes (R286). -/
def State.countDone (s : State) (o : Owner) (c : Cmd) : State :=
  let w := ctlWord o c
  let s := s.launchLearns c.launch c.core (pathOf o)
  if ctlMode w = 1 ∧ !c.stopped then s.bump c.core (ctlCounter w) 1 (s.view c.core (pathOf o)) else s

/-- A `cpym`'s follow-on as a command (R211). -/
def followOn (c : Cmd) : Cmd :=
  let fn := tw c.extra 0
  { c with num := c.num + 1, fn, tup := (c.extra.drop 1).take (if fn = 0 then 3 else 4), extra := [], i := 0, j := 0, acc := 0, aux := []
           buf := [], outs := [], lo := 0, hi := 0, started := false, done := false, stopped := false, waiting := false }

/-- A `cpym` whose copy is complete and whose follow-on its unit cannot take yet (R211, R221, R222). -/
def State.unitWaits (s : State) (c : Cmd) : Bool :=
  let u := (s.part ⟨c.core.die, c.core.core, c.part⟩).unit
  c.fn == 1 && c.waiting && !c.stopped && (u.bound.any (· != c.gnum) || decide (8 ≤ u.q.length))

/-- The oldest command of an engine that has done its work completes (R204, R211, R218). A `cpym` whose follow-on the unit
cannot take yet keeps that alone: its copy is complete, and others complete beside it. -/
def execEngineCommandComplete (e : EngineId) (s : State) : Host.Outcome State Fault Refusal :=
  let x := s.engine e
  match x.fly.find? fun c => c.done && c.outs == [] && !s.unitWaits c with
  | none => .next s
  | some c =>
    let o : Owner := .engine e c.num
    let d := engineDie e
    let rest (s : State) : State :=
      let s := s.setEngine e { s.engine e with fly := (s.engine e).fly.filter fun k => k.num != c.num }
      (((s.engine e).fly.map fun k => Owner.engine e k.num).foldl (fun s o => s.go o) s)
    if c.fn = 1 then
      let s := if c.waiting then s else ((s.countDone o c).setCmd o { c with waiting := true }).drained d c.num
      if c.stopped then .next (rest (s.drained d (c.num + 1)))
      else
        let p : PartId := ⟨c.core.die, c.core.core, c.part⟩
        let u := (s.part p).unit
        if s.unitWaits { c with waiting := true } then .next (((s.engine e).fly.map fun k => Owner.engine e k.num).foldl State.go s)
        else .next (rest (s.setUnit p { u with bound := some c.gnum, q := u.q ++ [followOn c], accepted := u.accepted + 1 }))
    else .next (rest ((s.countDone o c).drained d c.num))

/-- The unit's command that may start: its head, or a `tstat` behind an `mma` in a ragged wait (R222, R232). -/
def MUnit.nextUp (u : MUnit) : Option Cmd :=
  match u.q with
  | [] => none
  | c :: rest =>
    if !c.started then some c
    else match rest with
      | k :: _ => if c.fn = 1 && c.waiting && !c.done && k.fn == 5 && !k.started then some k else none
      | [] => none

/-- A matrix unit starts its next command (R222). -/
def execMatrixCommandStart (p : PartId) (s : State) : Host.Outcome State Fault Refusal :=
  match (s.part p).unit.nextUp with
  | none => .next s
  | some c =>
    let o : Owner := .unit p c.num
    .next ((s.setCmd o { c with started := true }).go o)

/-- A row step of the `mma` in flight (R227): the filled row is added, or a ragged wait is looked at again. -/
def execMmaRowStep (p : PartId) (s : State) : Host.Outcome State Fault Refusal :=
  let u := (s.part p).unit
  match u.q with
  | [] => .next s
  | c :: _ =>
    let o : Owner := .unit p c.num
    if c.fn ≠ 1 || !c.started || c.done || c.outs ≠ [] then .next s
    else if c.hi = 1 then
      if c.buf.any (·.2.2) then .next (s.jobConsume o)
      else if !rowOk u (mmaOf c.tup) c.j then .next (s.fresh.2.jobFail o 0x18 s.fresh.1.toNat)
      else
        let r := mmaRow u c
        let s := s.setUnit p r.1
        let c := { c with j := c.j + 1, hi := 0, buf := [] }
        let s := s.setCmd o c
        let w := ctlWord o c
        let s := if ctlMode w = 2 then s.bump c.core (ctlCounter w) 1 (s.view c.core 2) else s
        .next ((if r.2 then s.satTrap o c else s).go o)
    else .next (s.go o)

/-- The unit's state at binding (R220, R221): commands already queued stay, and the first of them binds it again. -/
def MUnit.release (u : MUnit) (q : List Cmd) (g : BitVec 64) : MUnit :=
  { q, accepted := u.accepted, bound := if q = [] then none else some g }

/-- A command of a matrix unit completes (R204, R222, R231); the last of a group that has retired releases the unit (R221). -/
def execMatrixCommandComplete (p : PartId) (s : State) : Host.Outcome State Fault Refusal :=
  match (s.part p).unit.q.find? fun c => c.done && c.outs == [] with
  | none => .next s
  | some c =>
    let o : Owner := .unit p c.num
    let s := (s.countDone o c).drained p.die c.num
    let u := (s.part p).unit
    let q := u.q.filter fun k => k.num != c.num
    let gone := q == [] && !s.alive (gidOf c.owner) c.gnum
    .next ((s.setUnit p (if (c.fn = 3 && bit (tw c.tup 0) 13 && !c.stopped) || gone then u.release q c.gnum else { u with q })))

/-- An imprecise fault's report reaches its core (R90): the thread takes it at its next issue; a thread that has exited or
holds the handler bit leaves an event (R87), and one whose group has retired an event of its region (R207). -/
def execImpreciseFaultReport (n : Nat) (s : State) : Host.Outcome State Fault Refusal :=
  match s.reports[n]? with
  | none => .next s
  | some r =>
    let s := { s with reports := s.reports.eraseIdx n }
    match s.slotOf (gidOf r.t) r.gnum with
    | some g =>
      let t : ThreadId := ⟨g.die, g.core, g.slot, r.t.t, false⟩
      let th := s.thr t
      if th.handler || !liveThr th then .next (s.groupEvent t r.cause.toNat r.va)
      else .next (s.setThr t { th with impr := th.impr ++ [(r.cause, r.va)] })
    | none => match s.outs.find? fun o => o.g.num == r.gnum with
      | some o =>
        let th := AMap.getD o.thr (r.t.t, false) {}
        if th.handler || !liveThr th then .next (s.outEvent o r.t.t r.cause.toNat r.va)
        else .next (s.onThread r.t r.gnum fun th => { th with impr := th.impr ++ [(r.cause, r.va)] })
      | none => .next (s.record r.t.die { kind := 1, cause := r.cause.toNat, region := r.region, tag := r.tag.toNat, group := gnoOf r.gnum
                                          cno := s.cno (coreOf r.t), trapval := r.va.toNat })

/-- The lane's results of variable latency are written (R39). -/
def execVariableLatencyCompletion (t : ThreadId) (s : State) : Host.Outcome State Fault Refusal :=
  let th := s.thr t
  match th.vpend with
  | [] => .next s
  | p :: ps =>
    let th := { th.land p with vpend := ps, busy := (th.busy.filter fun d => !(Pend.busy p).contains d) ++ ps.flatMap Pend.busy }
    .next (s.setThr t th)

end

end Sys2Proof.Machine
end

