-- ==== Sys2Proof/Machine/Crypto.lean ====
section
/-! DEFINITION. Crypto: SHA-384 and the verification of an ECDSA signature on brainpoolP384r1, which the manual names and does
not define (R387; log entry 31: the digest as FIPS 180-4 gives it, the curve as RFC 5639 gives it). -/

namespace Sys2Proof.Machine

open Sys2Proof

/-! ### SHA-384 -/

/-- The greatest r with r^m ≤ n, bit by bit from bit k - 1. -/
def rootOf (m n : Nat) : Nat → Nat → Nat
  | 0, r => r
  | k + 1, r => rootOf m n k (if (r + 2 ^ k) ^ m ≤ n then r + 2 ^ k else r)

/-- The first 80 primes. -/
def shaPrimes : List Nat := (List.range 410).filter fun n => decide (2 ≤ n) && (List.range n).all fun d => d < 2 || n % d != 0

/-- Fractional parts of cube roots of the first 80 primes, and of square roots of the ninth to the sixteenth. -/
def shaK : List Nat := shaPrimes.map fun p => rootOf 3 (p * 2 ^ 192) 68 0 % 2 ^ 64
def shaInit : List Nat := ((shaPrimes.drop 8).take 8).map fun p => rootOf 2 (p * 2 ^ 128) 68 0 % 2 ^ 64

def rotr64 (k x : Nat) : Nat := x / 2 ^ k + x % 2 ^ k * 2 ^ (64 - k)
def xor3 (a b c : Nat) : Nat := Nat.xor (Nat.xor a b) c

/-- Words 16 to 79 of the schedule; the list so far is newest first. -/
def shaExtend : Nat → List Nat → List Nat
  | 0, l => l
  | k + 1, l =>
    let x := l.getD 1 0
    let y := l.getD 14 0
    let s1 := xor3 (rotr64 19 x) (rotr64 61 x) (x / 2 ^ 6)
    let s0 := xor3 (rotr64 1 y) (rotr64 8 y) (y / 2 ^ 7)
    shaExtend k ((s1 + l.getD 6 0 + s0 + l.getD 15 0) % 2 ^ 64 :: l)

def shaRound (v : List Nat) (kw : Nat × Nat) : List Nat :=
  match v with
  | [a, b, c, d, e, f, g, h] =>
    let t1 := h + xor3 (rotr64 14 e) (rotr64 18 e) (rotr64 41 e) + Nat.xor (Nat.land e f) (Nat.land (2 ^ 64 - 1 - e) g) + kw.1 + kw.2
    let t2 := xor3 (rotr64 28 a) (rotr64 34 a) (rotr64 39 a) + xor3 (Nat.land a b) (Nat.land a c) (Nat.land b c)
    [(t1 + t2) % 2 ^ 64, a, b, c, (d + t1) % 2 ^ 64, e, f, g]
  | _ => v

/-- The number big-endian bytes hold. -/
def beNat (bs : List Byte) : Nat := bs.foldl (fun v b => 256 * v + b.toNat) 0
def beBytes (n v : Nat) : List Byte := (leBytes n v).reverse

def shaBlock (h : List Nat) (bs : List Byte) : List Nat :=
  let w := (List.range 16).map fun k => beNat ((bs.drop (8 * k)).take 8)
  let v := (shaK.zip (shaExtend 64 w.reverse).reverse).foldl shaRound h
  List.zipWith (fun a b => (a + b) % 2 ^ 64) h v

def shaBlocks : Nat → List Nat → List Byte → List Nat
  | 0, h, _ => h
  | k + 1, h, bs => shaBlocks k (shaBlock h (bs.take 128)) (bs.drop 128)

/-- The SHA-384 digest of some bytes, as a number. -/
def sha384 (bs : List Byte) : Nat :=
  let z := (239 - bs.length % 128) % 128
  let m := bs ++ [0x80] ++ List.replicate z 0 ++ beBytes 16 (8 * bs.length)
  ((shaBlocks (m.length / 128) shaInit m).take 6).foldl (fun v w => v * 2 ^ 64 + w) 0

/-! ### ECDSA on brainpoolP384r1 -/

def ecP : Nat := 0x8CB91E82A3386D280F5D6F7E50E641DF152F7109ED5456B412B1DA197FB71123ACD3A729901D1A71874700133107EC53
def ecA : Nat := 0x7BC382C63D8C150C3C72080ACE05AFA0C2BEA28E4FB22787139165EFBA91F90F8AA5814A503AD4EB04A8C7DD22CE2826
def ecB : Nat := 0x04A8C7DD22CE28268B39B55416F0447C2FB77DE107DCD2A62E880EA53EEB62D57CB4390295DBC9943AB78696FA504C11
def ecG : Nat × Nat := (0x1D1C64F068CF45FFA2A63A81B7C13F6B8847A3E77EF14FE3DB7FCAFE0CBD10E8E826E03436D646AAEF87B2E247D4AF1E,
  0x8ABE1D7520F9C2A45CB1EB8E95CFD55262B70B29FEEC5864E19C054FF99129280E4646217791811142820341263C5315)
def ecQ : Nat := 0x8CB91E82A3386D280F5D6F7E50E641DF152F7109ED5456B31F166E6CAC0425A7CF3AB6AF6B7FC3103B883202E9046565

/-- `n` bits of an exponent, a power modulo m. -/
def powMod (m a : Nat) : Nat → Nat → Nat
  | 0, _ => 1
  | n + 1, e =>
    let h := powMod m a n (e / 2)
    if e % 2 = 1 then h * h % m * a % m else h * h % m
def invMod (m a : Nat) : Nat := powMod m (a % m) 384 (m - 2)

def ecAdd (p q : Option (Nat × Nat)) : Option (Nat × Nat) :=
  match p, q with
  | none, q => q
  | p, none => p
  | some (x1, y1), some (x2, y2) =>
    if x1 = x2 ∧ (y1 + y2) % ecP = 0 then none
    else
      let l := if x1 = x2 then (3 * x1 * x1 + ecA) % ecP * invMod ecP (2 * y1) % ecP else (y2 + ecP - y1) * invMod ecP (x2 + ecP - x1) % ecP
      let x := (l * l + 2 * ecP - x1 - x2) % ecP
      some (x, (l * (x1 + ecP - x) + ecP - y1) % ecP)

def ecMul (p : Nat × Nat) : Nat → Nat → Option (Nat × Nat)
  | 0, _ => none
  | n + 1, k =>
    let h := ecMul p n (k / 2)
    let d := ecAdd h h
    if k % 2 = 1 then ecAdd d (some p) else d

/-- A signature (r, s) over a digest holds for a public key. -/
def ecdsaOk (key : Nat × Nat) (digest r s : Nat) : Bool :=
  decide (1 ≤ r) && decide (r < ecQ) && decide (1 ≤ s) && decide (s < ecQ) && decide (key.1 < ecP) && decide (key.2 < ecP) &&
    (key.2 * key.2 % ecP == (key.1 * key.1 % ecP * key.1 + ecA * key.1 + ecB) % ecP) &&
    (let w := invMod ecQ s
     match ecAdd (ecMul ecG 384 (digest * w % ecQ)) (ecMul key 384 (r * w % ecQ)) with
     | none => false
     | some p => p.1 % ecQ == r)

end Sys2Proof.Machine
end

