-- ==== Sys2Proof/Machine/Order.lean ====
section
/-! DEFINITION. Order: fences (R250-R252), `drain` (R217, R218) and requests whose result an agent outside the thread brings. -/

namespace Sys2Proof.Machine

open Sys2Proof

noncomputable section

/-- The paths named by a mask (R239). -/
def pathsOf (m : Nat) : List Nat := (List.range 6).filter fun p => bit m p

/-- An earlier load or atomic of a thread on the source paths has not returned (R251). -/
def State.loadsOn (s : State) (t : ThreadId) (src : Nat) : Bool :=
  s.accs.any fun e => e.2.owner == .thread t && e.2.counted && (bit src 0 || (bit src 5 && s.hostHome e.2.home))

/-- An earlier write of a thread on the source paths has not been acknowledged by its home (R248). -/
def State.writesOn (s : State) (t : ThreadId) (src : Nat) : Bool :=
  s.accs.any fun e => e.2.owner == .thread t && (e.2.kind == .store || e.2.kind == .atomic) && !e.2.acked
    && ((bit src 0 && e.2.path == 0) || (bit src 5 && s.hostHome e.2.home))

/-- The destination views take the maximum of the source views (R251). -/
def State.joinViews (s : State) (c : CoreId) (src dst : List Nat) : State :=
  let v := src.foldl (fun v p => View.max v (s.view c p)) []
  dst.foldl (fun s p => s.merge c p v) s

/-- L1 lines whose home lies outside the stand are valid only until an acquire at system scope (R244). -/
def State.dropForeign (s : State) (c : CoreId) : State :=
  s.setCore c { s.core c with l1 := (s.core c).l1.filter fun l => l.home.isSome }

/-- `fence` (R250-R252). Kinds: 0 acquire, 1 release, 2 acquire-release, 3 sc. -/
def execFence (ct : Ctl) (d a : BitVec 6) (w : BitVec 3) (k : BitVec 2) (s : State) : Host.Outcome State Fault Refusal :=
  run (.fence ct d a w k) s fun s =>
    let c := coreOf s.cur
    let src := a.toNat
    let acq := k != 1
    if s.cur.sh then mirror s
    else commit s (0, []) fun s =>
      if s.loadsOn s.cur src then .wait s .order
      else if k != 0 && w == 7 && s.writesOn s.cur src then .wait s .order
      else if k == 3 && (AMap.find s.seqHold (s.instanceOf w.toNat)).isSome then .wait s .order
      else
        let s := s.joinViews c (pathsOf src) (pathsOf d.toNat)
        let s := if k = 3 then s.ticket w.toNat (pathsOf d.toNat) else s
        let s := if acq && w == 7 then s.dropForeign c else s
        .next (s.setMe { s.me with homeRead := if acq && w == 7 && bit src 5 then d else 0 })

/-! ### drain (R217, R218) -/

/-- What a command reads and writes: whether it writes, address and length. None: its tuple does not say (a walk's pages, the
destination of an `rsort` that has not read its cursors). -/
def Cmd.ranges (o : Owner) (c : Cmd) : Option (List (Bool × Nat × Nat)) :=
  let t := c.tup
  match o with
  | .engine _ _ => match c.fn with
    | 2 => some ([(false, ta t 0, 4 * chainLen t), (true, ta t 2, 4 * chainLen t)] ++ if usesY t then [(false, ta t 4, 4 * chainLen t)] else [])
    | 3 => some [(false, ta t 0, 4 * tw t 4), (true, ta t 2, 4 * (tw t 4 + (bit (tw t 6) 1).toNat))]
    | 4 => if c.j = 0 then none else
        some ([(false, ta t 0, tw t 8 * tw t 9), (false, ta t 4, 4 * tw t 9), (false, ta t 6, 4 * tw t 10), (true, c.lo, c.hi - c.lo)]
          ++ if bit (tw t 11) 0 then [(true, ta t 6, 4 * tw t 10)] else [])
    | 5 => none
    | _ => some ((List.range (cpyRows t)).flatMap fun r =>
        [(false, rowAt (ta t 0) r (ti t 5) 0, tw t 4), (true, rowAt (ta t 2) r (ti t 6) 0, tw t 4)])
  | _ => match c.fn with
    | 0 => some [(false, ta t 0, if bits (tw t 2) 16 2 = 1 then 16384 else nbBytes 512)]
    | 1 =>
      let m := mmaOf t
      some [if m.i8 then (false, m.x + m.row0 * (128 * m.nb), (m.top - m.row0) * (128 * m.nb))
            else (false, m.x + 1056 * (4 * m.nb * m.row0 / 32), 1056 * ((4 * m.nb * m.top + 31) / 32 - 4 * m.nb * m.row0 / 32))]
    | 2 =>
      let f := bits (tw t 2) 19 2
      let n := bits (tw t 2) 7 6 + 1
      some (if f = 2 then [(true, ta t 0, nbBytes (4 * n))] else (List.range n).map fun i => (true, ta t 0 + i * tw t 3, if f = 0 then 512 else 256))
    | 4 =>
      let n := qRows t * qCols t
      some ([(false, ta t 0, n * qSize t)] ++ (if ta t 2 = 0 then [] else [(true, ta t 2, nbBytes (n / 32))])
        ++ if ta t 4 = 0 then [] else [(true, ta t 4, nbBytes (n / 32))])
    | _ => some []

/-- A range touches a memory (R217): each of its 64 KiB pages is looked at; a page that cannot be translated now, that no route leads to,
or that holders share, counts as touching it. -/
def State.rangeIn (s : State) (sp : Space) (mem : Nat) (r : Bool × Nat × Nat) : Bool :=
  let i := sp.core.die
  (((List.range (r.2.2 / 65536 + 2)).map fun k => if k = 0 then r.2.1 else (r.2.1 / 65536 + k) * 65536).filter fun va => decide (va < r.2.1 + r.2.2)).any
    fun va => match s.whereIs sp va with
      | none => true
      | some fa => match (if r.1 then s.homeRoute i fa else s.loadRoute i fa) with
        | none => true
        | some q => s.memCode q fa == mem || (s.die i).routes.any fun q => decide (48 < q.len) && q.pre / 65536 == fa / 65536

/-- A command touches the memory named (R217, log entry 25). -/
def State.cmdIn (s : State) (o : Owner) (mem : Nat) (c : Cmd) : Bool :=
  mem == 3 || (match c.ranges o with
    | none => true
    | some l => l.any (s.rangeIn (jobSpace o c) mem))

/-- A store held in a commit buffer touches the memory named. -/
def State.heldIn (s : State) (i mem : Nat) (h : Held) : Bool :=
  mem == 3 || (match s.homeRoute i h.fa with
    | none => true
    | some r => s.memCode r h.fa == mem)

/-- The commands of a core at an engine that satisfy a condition. -/
def State.engineNums (s : State) (e : EngineId) (c : CoreId) (f : Cmd → Bool) : List Nat :=
  (((s.engine e).q ++ (s.engine e).fly).filter fun k => k.core == c && f k).map (·.num)

/-- The transfers a `drain` of the lane issuing waits for (R217): accesses, held stores of every thread (R218), and commands; the copy of
a `cpym` whose follow-on waits for its unit is complete. -/
def State.drainSet (s : State) (path mem : Nat) : List Nat :=
  let c := coreOf s.cur
  let now := s.now c.die
  let old (k : Cmd) : Bool := decide (k.born < now) || k.owner == s.cur
  let on (e : EngineId) : List Nat := s.engineNums e c fun k => old k && !k.waiting && s.cmdIn (.engine e 0) mem k
  let lsu (a : Acc) : Bool := (a.kind == .load || a.kind == .store || a.kind == .atomic || a.kind == .sync) && (match a.owner with
    | .thread _ => true
    | _ => false)
  match path with
  | 0 => (s.accs.filter fun e => e.2.core == c && e.2.path == 0 && lsu e.2
      && (mem == 3 || e.2.touches == mem) && (decide (e.2.born < now) || e.2.owner == .thread s.cur)).map (·.1) ++
      s.threads.flatMap fun e => if coreOf e.1 = c ∧ !e.1.sh then
        (e.2.held.filter fun h => (decide (h.born < now) || decide (e.1 = s.cur)) && s.heldIn c.die mem h).map (·.num) else []
  | 1 => on (.copy c.die c.core)
  | 2 => ((partsOf c).flatMap fun p => ((s.part p).unit.q.filter fun k => k.fn != 5 && old k && s.cmdIn (.unit p 0) mem k).map (·.num)) ++
      (s.engineNums (.copy c.die c.core) c fun k => k.fn == 1 && old k && s.cmdIn (.unit ⟨c.die, c.core, k.part⟩ 0) mem (followOn k)).map (· + 1)
  | 3 => on (.chain c.die (c.core / 8)) ++ on (.psum c.die (c.core / 8))
  | _ => on (.walk c.die (c.core / 8))

/-- `drain` (R217, R218): in a block pair it is a commit point where its set holds a held store of the thread (R360). -/
def execDrain (ct : Ctl) (a b : BitVec 7) (s : State) : Host.Outcome State Fault Refusal :=
  run (.drain ct a b) s fun s =>
    let go (s : State) : Res :=
      let l := s.drainSet a.toNat b.toNat
      if l = [] then .next s else .past (s.setMe { s.me with status := .waiting (.drain l) })
    if s.cur.sh then mirror s
    else if a = 0 ∧ (s.me.held.any (s.heldIn s.cur.die b.toNat) ∨ s.me.atCommit ≠ 0) then commit s (0, []) go
    else go s

/-! ### Requests answered from outside (R161, R294, R333, R355) -/

/-- The lane asks once and waits; when the answer has come the instruction goes on with it. -/
def answered (s : State) (k : State → List Reg → Res) (ask : State → Res) : Res :=
  match s.me.port with
  | some r => portGo s r k
  | none => if s.cur.sh then mirror s else if s.passive then .wait s .port else ask s

end

end Sys2Proof.Machine
end

