-- ==== Sys2Proof/Machine/Wire.lean ====
section
/-! DEFINITION. Wire: the codes of a Galzan port: Reed-Solomon codewords, stripes, flit and packet headers, and packets as
flits (R340-R344, R398). -/

namespace Sys2Proof.Machine

open Sys2Proof

/-! ### GF(256) and RS(288,272) (R340) -/

/-- Doubling in GF(256) with field polynomial 0x11D. -/
def gfDbl (a : Nat) : Nat := if 2 * a < 256 then 2 * a else Nat.xor (2 * a) 0x11D

/-- Product in GF(256): `n` bits of `b` from the top. -/
def gfMulN : Nat → Nat → Nat → Nat
  | 0, _, _ => 0
  | n + 1, a, b => Nat.xor (gfDbl (gfMulN n a (b / 2))) (if b % 2 = 1 then a else 0)
def gfMul (a b : Nat) : Nat := gfMulN 8 a b

/-- Powers of α = 2. -/
def gfPow : Nat → Nat
  | 0 => 1
  | n + 1 => gfDbl (gfPow n)

def gfExp (a : Nat) : Nat → Nat
  | 0 => 1
  | n + 1 => gfMul a (gfExp a n)
/-- Inverse: a^254. -/
def gfInv (a : Nat) : Nat := gfExp a 254

/-- A polynomial times (x - r), highest degree first. -/
def polyRoot (p : List Nat) (r : Nat) : List Nat := List.zipWith Nat.xor (p ++ [0]) (0 :: p.map fun c => gfMul r c)

/-- g(x) of R340, highest degree first: 17 coefficients, the first 1. -/
def rsGen : List Nat := (List.range 16).foldl (fun p k => polyRoot p (gfPow k)) [1]

/-- One data symbol enters the division by g(x). -/
def rsStep (g rem : List Nat) (d : Nat) : List Nat :=
  let f := Nat.xor d (rem.headD 0)
  List.zipWith Nat.xor (rem.drop 1 ++ [0]) ((g.drop 1).map fun c => gfMul f c)

/-- The 16 parity symbols of 272 data symbols. -/
def rsParity (data : List Nat) : List Nat := data.foldl (rsStep rsGen) (List.replicate 16 0)

/-- Value of a polynomial, highest degree first. -/
def polyEval (p : List Nat) (x : Nat) : Nat := p.foldl (fun v c => Nat.xor (gfMul v x) c) 0
/-- Value of a polynomial, lowest degree first. -/
def polyEvalL (p : List Nat) (x : Nat) : Nat := polyEval p.reverse x

def syndromes (w : List Nat) : List Nat := (List.range 16).map fun j => polyEval w (gfPow j)

def xorL : List Nat → List Nat → List Nat
  | [], b => b
  | a, [] => a
  | x :: a, y :: b => Nat.xor x y :: xorL a b

/-- Berlekamp-Massey over the syndromes, lowest degree first: locator, its copy, length, gap, last discrepancy. -/
def massey (sy : List Nat) : Nat → Nat → List Nat × List Nat × Nat × Nat × Nat → List Nat
  | 0, _, st => st.1
  | k + 1, n, (c, b, l, m, bd) =>
    let d := (List.range (l + 1)).foldl (fun v i => Nat.xor v (gfMul (c.getD i 0) (sy.getD (n - i) 0))) 0
    if d = 0 then massey sy k (n + 1) (c, b, l, m + 1, bd)
    else
      let c' := xorL c (List.replicate m 0 ++ b.map fun x => gfMul (gfMul d (gfInv bd)) x)
      if 2 * l ≤ n then massey sy k (n + 1) (c', c, n + 1 - l, 1, d)
      else massey sy k (n + 1) (c', b, l, m + 1, bd)

/-- Product of two polynomials, lowest degree first. -/
def polyMul : List Nat → List Nat → List Nat
  | [], _ => []
  | x :: a, b => xorL (b.map fun y => gfMul x y) (0 :: polyMul a b)

/-- Formal derivative, lowest degree first. -/
def polyDer (p : List Nat) : List Nat := (p.drop 1).zipIdx.map fun e => if e.2 % 2 = 0 then e.1 else 0

/-- A received codeword corrected, with the number of symbols changed: none where no codeword lies within 8 symbols. -/
def rsDecode (w : List Nat) : Option (List Nat × Nat) :=
  let sy := syndromes w
  if sy.all (· == 0) then some (w, 0)
  else
    let loc := massey sy 16 0 ([1], [1], 0, 1, 1)
    let omega := (polyMul sy loc).take 16
    let fix := w.zipIdx.map fun e =>
      let x := gfPow ((287 - e.2) % 255)
      let xi := gfInv x
      if polyEvalL loc xi = 0 then Nat.xor e.1 (gfMul x (gfMul (polyEvalL omega xi) (gfInv (polyEvalL (polyDer loc) xi)))) else e.1
    let n := ((w.zip fix).filter fun e => e.1 != e.2).length
    if (syndromes fix).all (· == 0) ∧ n ≤ 8 then some (fix, n) else none

/-- Codeword `c` of a frame: byte 4s + c is its symbol s. -/
def codeword (f : List Byte) (c : Nat) : List Nat := (f.zipIdx.filter fun e => e.2 % 4 == c).map fun e => e.1.toNat

/-- Four codewords as a frame. -/
def weave (a b c d : List Nat) : List Byte :=
  ((a.zip b).zip (c.zip d)).flatMap fun e => [BitVec.ofNat 8 e.1.1, BitVec.ofNat 8 e.1.2, BitVec.ofNat 8 e.2.1, BitVec.ofNat 8 e.2.2]

/-- The 1,152 bytes of a frame of four flits. -/
def frameBytes (flits : List (List Byte)) : List Byte :=
  let d := flits.flatMap id
  let p (c : Nat) : List Nat := rsParity (codeword d c)
  d ++ weave (p 0) (p 1) (p 2) (p 3)

/-- The 4-byte groups of a frame, from group number `g0` on, by carrying wavelength (R341). -/
def stripe (lanes : List Nat) (g0 : Nat) (f : List Byte) : List (Nat × List Byte) :=
  lanes.zipIdx.map fun l => (l.1, (f.zipIdx.filter fun e => (g0 + e.2 / 4) % lanes.length == l.2).map (·.1))

/-! ### Headers (R342, R343) -/

/-- CRC-16 of R342 over bytes, each most significant bit first. -/
def crc16 (bs : List Byte) : Nat :=
  bs.foldl (fun c b => ([7, 6, 5, 4, 3, 2, 1, 0] : List Nat).foldl (fun c k =>
    let t := 2 * (c % 32768)
    if (bit c 15) != (bit b.toNat k) then Nat.xor t 0x1021 else t) c) 0xFFFF

def withCrc (body : List Byte) : List Byte := body ++ leBytes 2 (crc16 body)

/-- Two copies of a block, split between codeword pairs: two bytes of copy A, the same two of copy B, and so on. -/
def twoCopies : List Byte → List Byte
  | x :: y :: l => x :: y :: x :: y :: twoCopies l
  | l => l
def copyOf (second : Bool) (bs : List Byte) : List Byte := (bs.zipIdx.filter fun e => (e.2 / 2 % 2 == 1) == second).map (·.1)

/-- The body of the first copy whose CRC holds and which passes a check. -/
def firstGood (bs : List Byte) (ok : List Byte → Bool) : Option (List Byte) :=
  ([false, true] : List Bool).findSome? fun k =>
    let c := copyOf k bs
    let body := c.take (c.length - 2)
    if leNat (c.drop (c.length - 2)) = crc16 body ∧ ok body then some body else none

/-- A flit header (R342). `kind`: 0 data, 1 idle, 2 refresh, 3 marker. -/
structure FlitHead where
  cls : Nat
  first : Bool := false
  last : Bool := false
  poisoned : Bool := false
  kind : Nat
  retCls : Nat := 0
  ret : Nat := 0
  change : Option Nat := none
  seq : Nat := 0
deriving DecidableEq, Repr

def FlitHead.body (h : FlitHead) : Nat :=
  h.cls * 2 ^ 46 + h.first.toNat * 2 ^ 45 + h.last.toNat * 2 ^ 44 + h.poisoned.toNat * 2 ^ 43 + h.kind * 2 ^ 41 + h.retCls * 2 ^ 39 +
    h.ret % 2 ^ 16 * 2 ^ 23 + (match h.change with
      | some w => (w - 1) % 8 * 2 ^ 20 + 2 ^ 19
      | none => 0) + h.seq % 256 * 2 ^ 11
def FlitHead.bytes (h : FlitHead) : List Byte := twoCopies (withCrc (leBytes 6 h.body))

def parseHead (bs : List Byte) : Option FlitHead :=
  (firstGood (bs.take 16) fun b => leNat b % 2048 == 0).map fun b =>
    let v := leNat b
    { cls := bits v 46 2, first := bit v 45, last := bit v 44, poisoned := bit v 43, kind := bits v 41 2, retCls := bits v 39 2, ret := bits v 23 16
      change := if bit v 19 then some (bits v 20 3 + 1) else none, seq := bits v 11 8 }

/-- Header of an idle flit (R400). -/
def idleHead : FlitHead := { cls := 3, kind := 1 }

/-- The class of a packet kind (R343): request, response. -/
def kindClass (k : Nat) : Nat := if [3, 4, 5, 6, 7, 8, 9, 11, 14].contains k then 1 else 0

/-! ### Packets as bytes (R343, R344) -/

/-- A die's place in the stand's tables (R381). -/
def State.standPos (s : State) (n : Nat) : Nat := 4 * s.flash.pkgs.idxOf (n / 4) + n % 4
def State.dieAtPos (s : State) (q : Nat) : Nat := 4 * s.flash.pkgs.getD (q / 4) 0 + q % 4

/-- The counts a request takes at its home. -/
def Pkt.turns (p : Pkt) : List (Nat × Nat) := (p.origin, p.count) :: p.also

/-- The entries a packet's stamp names: for a write the counts it takes first, then those of its home's column that it depends on, then
the others. The manual gives a merged request's further counts no mark of their own: where a request takes several, each of their
origins stands in the column once more, with what the request depends on (DESIGN CHOICE, log entry 75). -/
def Pkt.entries (p : Pkt) : View :=
  let own : View := if p.kind = 1 ∨ p.kind = 2 ∨ p.kind = 16 then (if p.fwd then [] else p.turns.map fun e => ((e.1, p.dst), e.2)) else []
  let col := p.view.filter fun e => e.1.2 == p.dst
  let more := if p.also = [] then [] else ((own.map (·.1)).dedup.filter fun k => !(col.any fun e => e.1 == k)).map fun k => (k, 0)
  own ++ col ++ more ++ p.view.filter fun e => e.1.2 != p.dst

/-- A write's entries as the counts it takes and those it depends on. -/
def splitEntries (src dst : Nat) : Bool → View → List (Nat × Nat) × View
  | _, [] => ([], [])
  | seen, e :: l =>
    let mine := e.1.1 == src && e.1.2 == dst
    let r := splitEntries src dst (seen || mine) l
    if (mine && !seen) || (e.1.2 == dst && l.any fun x => x.1 == e.1) then ((e.1.1, e.2) :: r.1, r.2) else (r.1, e :: r.2)

def State.entryBytes (s : State) (v : View) : List Byte :=
  v.flatMap fun e => leBytes 1 (s.standPos e.1.1) ++ leBytes 1 (s.standPos e.1.2) ++ leBytes 4 e.2

def State.stampBytes (s : State) (v : View) (ext : Nat) : List Byte := leBytes 2 v.length ++ leBytes 1 ext ++ [0] ++ s.entryBytes v

def trailBytes (l : List (Nat × Nat × Nat)) : List Byte := l.flatMap fun e => leBytes 1 e.2.2 ++ leBytes 1 e.2.1 ++ leBytes 2 e.1

def maskOfAddrs (base n step : Nat) (l : List Nat) : Nat :=
  (List.range n).foldl (fun m k => if l.any fun a => a / step == base / step + k then m + 2 ^ k else m) 0

/-- The bytes of a segment that a packet's cells name, zero elsewhere. -/
def segBytes (seg : Nat) (cells : List Host.Cell) : List Byte :=
  (List.range 128).map fun k => match cells.find? fun c => c.1 == seg + k with
    | some c => c.2
    | none => 0

/-- Lanes an atomic's request carries on the wire: of a merged one the single operand (R194). -/
def Pkt.wireLanes (p : Pkt) : List Lane :=
  if p.comb then [{ acc := p.acc, v := p.operand.1, incs := p.operand.2, off := p.fa % 128 }] else p.lanes

/-- Payload of a packet by its kind (R344). -/
def State.payload (s : State) (p : Pkt) : List Byte :=
  let seg := p.fa / 128 * 128
  match p.kind with
  | 0 => leBytes 16 (maskOfAddrs seg 128 1 p.want) ++ leBytes 1 p.val
  | 1 => p.cells.map (·.2)
  | 2 => match p.aop with
    | none => []
    | some o =>
      let ls := p.wireLanes
      leBytes 1 o.op ++ leBytes 1 o.w ++ leBytes 1 (o.ord % 4 + 4 * o.scope) ++ leBytes 1 p.trail.length ++ leBytes 4 (2 ^ ls.length - 1) ++
        leBytes 2 (match ls with
          | [l] => l.incs
          | _ => 1) ++ trailBytes p.trail ++
        ls.flatMap fun l => leBytes 8 (l.off / 4) ++ leBytes 8 l.v ++ leBytes 8 l.n
  | 3 => (if p.push then List.replicate (p.fa % 128) 0 ++ leBytes 4 p.val ++ List.replicate (124 - p.fa % 128) 0 else segBytes seg p.cells) ++
      leBytes 4 (maskOfAddrs seg 32 4 p.pois)
  | 5 =>
    trailBytes p.trail ++ (if p.comb then leBytes 8 p.val ++ leBytes 4 p.poisoned.toNat
      else (p.lanes.flatMap fun l => leBytes 8 l.v) ++ leBytes 4 (maskOfAddrs 0 32 1 ((p.lanes.zipIdx.filter fun l => l.1.bad).map (·.2))))
  | 6 => leBytes 2 p.val ++ leBytes 1 p.val2 ++ trailBytes p.trail
  | 7 => leBytes 2 p.val ++ leBytes 1 p.val2
  | 12 => leBytes 2 p.origin ++ leBytes 2 p.val ++ leBytes 4 p.count
  | 13 => leBytes 2 p.tag.toNat ++ leBytes 1 p.val2 ++ [0] ++ leBytes 2 p.origin
  | 15 => []
  | 16 => leBytes 16 (maskOfAddrs seg 128 1 (p.cells.map (·.1))) ++ leBytes 4 (maskOfAddrs seg 32 4 p.pois) ++
      ((List.range 128).filterMap fun k => (p.cells.find? fun c => c.1 == seg + k).map (·.2))
  | _ => []

/-- The 36-byte trailer of a write of kind 1: poisoned words of the 1,024-byte span, data bytes in the last flit. -/
def trailer (p : Pkt) (n : Nat) : List Byte := leBytes 32 (maskOfAddrs (p.fa / 1024 * 1024) 256 4 p.pois) ++ leBytes 2 n ++ [0, 0]

/-- Flits of a packet whose stamp and payload take `n` bytes: the first holds 216, later ones 256; the last of a write of kind 1
stops before its trailer. -/
def flitCount (kind n : Nat) : Nat :=
  if kind = 1 then (if n ≤ 180 then 1 else if n ≤ 436 then 2 else 2 + (n - 436 + 255) / 256)
  else if n ≤ 216 then 1 else 1 + (n - 216 + 255) / 256

def State.wireBody (s : State) (p : Pkt) : List Byte := (if p.stamped then s.stampBytes p.entries p.ext else []) ++ s.payload p

/-- Flits a queued item takes: kind 200 a control message, 201 a marker, one flit each. -/
def State.flitsOf (s : State) (p : Pkt) : Nat := if 200 ≤ p.kind then 1 else flitCount p.kind (s.wireBody p).length

/-- The 32 bytes of a packet header (R343). -/
def packetHead (p : Pkt) (n : Nat) : List Byte :=
  twoCopies (withCrc (leBytes 2 p.dst ++ leBytes 2 p.src ++ leBytes 1 p.kind ++
    leBytes 1 (p.sysRel.toNat + 2 * p.cacheable.toNat + 4 * p.mixed.toNat + 8 * p.relayed.toNat + 16 * p.stamped.toNat + 32 * p.fwd.toNat) ++
    leBytes 2 p.tag.toNat ++ leBytes 1 p.hop ++ leBytes 1 n ++ leBytes 4 p.acc))

/-- `n` pieces of 256 bytes. -/
def chop : Nat → List Byte → List (List Byte)
  | 0, _ => []
  | n + 1, bs => (bs.take 256 ++ List.replicate (256 - Nat.min 256 bs.length) 0) :: chop n (bs.drop 256)

/-- The payloads of the flits of a queued item. -/
def State.flitPayloads (s : State) (p : Pkt) : List (List Byte) :=
  if 200 ≤ p.kind then chop 1 (p.cells.map (·.2))
  else
    let body := s.wireBody p
    let n := flitCount p.kind body.length
    let head := packetHead p n ++ leBytes 8 p.fa
    if p.kind = 1 then
      let before := if n = 1 then 0 else 216 + 256 * (n - 2)
      let last := body.length - before
      let room := 256 * n - 36 - 40
      chop n (head ++ body ++ List.replicate (room - body.length) 0 ++ trailer p last)
    else chop n (head ++ body)

/-! ### Packets from flits -/

/-- A count modulo 2^32 as the nearest to a known one. -/
def nearCount (known c : Nat) : Nat :=
  let d := (c + 2 ^ 32 - known % 2 ^ 32) % 2 ^ 32
  if d < 2 ^ 31 then known + d else known + d - 2 ^ 32

/-- The entries of a stamp, counts made whole against a die's applied table. -/
def State.parseEntries (s : State) (i : Nat) : Nat → List Byte → View
  | 0, _ => []
  | n + 1, bs =>
    let o := s.dieAtPos ((bs.getD 0 0).toNat % 64)
    let x := s.dieAtPos ((bs.getD 1 0).toNat % 64)
    ((o, x), nearCount (View.get (s.die i).applied o x) (leNat ((bs.drop 2).take 4))) :: s.parseEntries i n (bs.drop 6)

def parseTrail : Nat → List Byte → List (Nat × Nat × Nat)
  | 0, _ => []
  | n + 1, bs => (leNat ((bs.drop 2).take 2), (bs.getD 1 0).toNat, (bs.getD 0 0).toNat % 128) :: parseTrail n (bs.drop 4)

def bitsSet (n m : Nat) : List Nat := (List.range n).filter fun k => bit m k

/-- The lanes of an atomic request, 24 bytes each: word offset, v, n. -/
def parseLanes : Nat → List Byte → List (Nat × Nat × Nat)
  | 0, _ => []
  | n + 1, bs => ((bs.getD 0 0).toNat, leNat ((bs.drop 8).take 8), leNat ((bs.drop 16).take 8)) :: parseLanes n (bs.drop 24)

/-- What the flits of a packet come to at die `i` (R343, R344, R346). -/
inductive Parsed where
  | lost
  | ok (p : Pkt)
  /-- Fabric address or stamp poisoned: the request is not performed (R346); nor is an atomic with a poisoned operand (log entry 45). -/
  | bad (p : Pkt)
deriving Repr

/-- A packet's payload read by its kind. -/
def State.parsePayload (s : State) (i : Nat) (p : Pkt) (b : List Byte) (badAt : Nat → Bool) (n : Nat) : Pkt :=
  let seg := p.fa / 128 * 128
  let f (o k : Nat) : Nat := leNat ((b.drop o).take k)
  let words (m : Nat) : List Nat := (bitsSet 32 m).map fun k => seg + 4 * k
  match p.kind with
  | 0 => { p with want := (bitsSet 128 (f 0 16)).map (seg + ·), val := f 16 1 }
  | 1 =>
    let cells := cellsAt p.fa (b.take n)
    let mask := f (b.length - 36) 32
    let pois := (bitsSet 256 mask).map (fun k => p.fa / 1024 * 1024 + 4 * k) ++ wordsOf (((List.range n).filter badAt).map (p.fa + ·))
    { p with cells, pois := wordsOf pois, push := decide (n = 64) && p.fa % 64 == 0 }
  | 2 =>
    let t := f 3 1
    let mask := f 4 4
    let ls := parseLanes (bitsSet 32 mask).length (b.drop (10 + 4 * t))
    let one := ls.length == 1
    let o : AOp := { op := f 0 1, w := f 1 1, ord := f 2 1 % 4, scope := f 2 1 / 4 % 8, v := (ls.map (·.2.1)).headD 0, n := (ls.map (·.2.2)).headD 0
                     incs := if one then f 8 2 else 1 }
    { p with fa := seg + 4 * (ls.map (·.1)).headD 0, trail := parseTrail t (b.drop 10), aop := some o, comb := one && o.merges
             lanes := ls.map fun x => { acc := p.acc, v := x.2.1, n := x.2.2, incs := o.incs, off := 4 * x.1 } }
  | 3 =>
    let pois := words (f 128 4) ++ ((List.range 128).filter badAt).map (seg + ·)
    { p with cells := cellsAt seg (b.take 128), pois := wordsOf pois, val := f (p.fa % 128) 4 }
  | 5 => { p with cells := cellsAt 0 b, pois := (List.range b.length).filter badAt }
  | 6 => { p with val := f 0 2, val2 := f 2 1 }
  | 7 => { p with val := f 0 2, val2 := f 2 1 }
  | 12 => { p with origin := f 0 2, val := f 2 2, count := nearCount (View.get (s.die i).applied (f 0 2) (f 2 2)) (f 4 4) }
  | 13 => { p with tag := BitVec.ofNat 16 (f 0 2), val := f 0 2, val2 := f 2 1, origin := f 4 2 }
  | 16 =>
    let cells : List Host.Cell := ((bitsSet 128 (f 0 16)).zip (b.drop 20)).map fun e => (seg + e.1, e.2)
    let bad := ((bitsSet 128 (f 0 16)).zipIdx.filter fun e => badAt (20 + e.2)).map fun e => seg + e.1
    { p with cells, pois := wordsOf (words (f 16 4) ++ bad) }
  | _ => p

/-- The flits of one packet at die `i`, poison of each flit's payload with it. -/
def State.parsePacket (s : State) (i : Nat) (fs : List (List Byte × Bool)) : Parsed :=
  match fs with
  | [] => .lost
  | f :: rest =>
    match firstGood (f.1.take 32) fun _ => true with
    | none => .lost
    | some h =>
      let g (o n : Nat) : Nat := leNat ((h.drop o).take n)
      let fl := g 5 1
      if 16 < g 4 1 ∨ g 9 1 ≠ fs.length then .lost
      else
        let p : Pkt := { kind := g 4 1, at_ := i, dst := g 0 2, src := g 2 2, fa := leNat ((f.1.drop 32).take 8), tag := BitVec.ofNat 16 (g 6 2)
                         hop := g 8 1, acc := g 10 4, origin := g 2 2 }
        let p : Pkt := { p with sysRel := bit fl 0, cacheable := bit fl 1, mixed := bit fl 2, relayed := bit fl 3, stamped := bit fl 4, fwd := bit fl 5 }
        let b := f.1.drop 40 ++ rest.flatMap fun e => e.1
        let n := leNat (b.take 2)
        let sl := if p.stamped then 4 + 6 * n else 0
        let v := if p.stamped then s.parseEntries i n (b.drop 4) else []
        let isWrite := (p.kind == 1 || p.kind == 2 || p.kind == 16) && !p.fwd
        let e := if isWrite then splitEntries p.src p.dst false v else ([], v)
        let first := e.1.headD (p.src, 0)
        let p : Pkt := { p with ext := if p.stamped then (b.getD 2 0).toNat else 0, count := first.2, also := e.1.drop 1, view := e.2
                                origin := if p.kind = 0 then (v.head?.map (·.1.2)).getD p.dst else first.1 }
        let flitBad (k : Nat) : Bool := (fs.getD (if k < 216 then 0 else (k - 216) / 256 + 1) ([], false)).2
        if f.2 || (List.range sl).any flitBad || p.kind = 2 && fs.any (·.2) then .bad p
        else
          let last := leNat ((b.drop (b.length - 4)).take 2)
          let data := (if fs.length = 1 then last else 216 + 256 * (fs.length - 2) + last) - sl
          .ok (s.parsePayload i p (b.drop sl) (fun k => flitBad (k + sl)) data)

end Sys2Proof.Machine
end

