-- ==== Sys2Proof/Machine/Net.lean ====
section
/-! DEFINITION. Net: what the holders do with requests: routing, holds, applying writes, performing atomics, combining, and
what goes back (R187, R193-R200, R242, R243, R318, R319, R324-R331). -/

namespace Sys2Proof.Machine

open Sys2Proof

noncomputable section

/-! ### Packets on their way -/

def State.delPkt (s : State) (n : Nat) : State := { s with net := AMap.del s.net n }
def State.setPkt (s : State) (n : Nat) (p : Pkt) : State := { s with net := AMap.set s.net n p }

def isRequest (p : Pkt) : Bool := p.kind == 0 || p.kind == 1 || p.kind == 2 || p.kind == 16

/-- A port changes: the time of a change of its state is kept, and each word of its status block whose value changes counts as
a write applied to it (R352, R397). -/
def State.putPort (s : State) (q : Nat) (x : Port) : State :=
  let old := s.port q
  let x : Port := if x.st = old.st then x else { x with changedAt := s.now (q / 4) }
  let base := dramBase (s.dieNo (q / 4)) + 0xFE0000000000 + 64 * (q % 4)
  let a := old.status
  let b := x.status
  let changed := ((List.range 16).filter fun k => (List.range 4).any fun j => a.getD (4 * k + j) 0 != b.getD (4 * k + j) 0).map fun k => base + 4 * k
  let s := s.setPort q x
  if changed = [] then s else
    s.mapThreads fun th => match th.status with
      | .mwait m => if changed.any fun w => w / 4 == m.fa / 4 then { th with status := .mwait { m with hit := true } } else th
      | _ => th

/-- Flits queued for a port in every class (R352, R398). -/
def State.depthOf (s : State) (x : Port) : Nat :=
  (x.txq.map fun p => s.flitsOf p).foldl (· + ·) 0 + (x.prog.map fun e => e.2.length).foldl (· + ·) 0

/-- The depth word and flag are rewritten from the values that stand (R397). -/
def State.rewriteDepth (s : State) (q : Nat) : State :=
  let x := s.port q
  let d := s.depthOf x
  s.putPort q { x with depthWord := d, depthFlag := if x.thresh ≠ 0 ∧ x.thresh ≤ d then 1 else 0, lastRewrite := some (s.now (q / 4)) }

/-- The depth has changed: a rewrite where 64 cycles have passed since the last one (R397). -/
def State.depthChanged (s : State) (q : Nat) : State :=
  match (s.port q).lastRewrite with
  | none => s.rewriteDepth q
  | some t => if t + 64 ≤ s.now (q / 4) then s.rewriteDepth q else s

/-- What a response on the wire does not carry, kept until it comes (R200, R344). -/
def State.ride (s : State) (p : Pkt) : State :=
  let r : Rider := { lanes := p.lanes, comb := p.comb, trail := p.trail, back := p.back, want := p.want, push := p.push, aop := p.aop
                     nth := p.nth, write := p.kind != 0 }
  { s with riders := AMap.set s.riders (p.src, p.acc) r }

def Port.allowOf (x : Port) (peer cls : Nat) : Allow := AMap.getD x.allow (peer, cls) {}
/-- A receive buffer of a class is freed (R347). -/
def Port.free (x : Port) (cls n : Nat) : Port :=
  let a := x.allowOf x.peer cls
  { x with allow := AMap.set x.allow (x.peer, cls) { a with freed := (a.freed + n) % 65536 } }

/-- An engine's write joins the last packet of its command in the same 1,024-byte span, where transmission of that has not begun and
it follows on (R398); none otherwise. -/
def State.joins (s : State) (x : Port) (p : Pkt) : Option Pkt :=
  match x.txq.getLast? with
  | none => none
  | some l =>
    let own (n : Nat) : Option Owner := match AMap.find s.accs n with
      | some a => if a.kind = .engineWrite then some a.owner else none
      | none => none
    if p.kind = 1 ∧ !p.push ∧ !p.fwd ∧ l.kind = 1 ∧ !l.push ∧ !l.fwd ∧ l.src = p.src ∧ l.dst = p.dst ∧ (own p.acc).isSome ∧ own p.acc = own l.acc
        ∧ l.fa + l.cells.length = p.fa ∧ l.fa / 1024 = p.fa / 1024 ∧ l.stamped = p.stamped then
      some { l with cells := l.cells ++ p.cells, pois := l.pois ++ p.pois, lanes := l.lanes ++ p.lanes
                    view := View.max l.view (p.view.filter fun e => !(e.1.1 == p.origin && e.1.2 == p.dst))
                    also := if p.stamped then l.also ++ p.turns else l.also }
    else none

/-- The region of the work that made an access (R364). -/
def State.accRegion (s : State) (id : Nat) : Nat :=
  match AMap.find s.accs id with
  | none => 0
  | some a => match s.groups.find? fun e => e.2.num == a.gnum with
    | some e => e.2.region
    | none => ((s.outs.find? fun o => o.g.num == a.gnum).map (·.g.region)).getD 0

/-- A local port takes a packet for the neighbour `via` (R349, R398). Poisoned data of a write whose home is the host attachment at
the port is dropped there and its tag purged (R192, R357; log entry 30). -/
def State.toPort (s : State) (q : Nat) (via : Nat) (p : Pkt) : State :=
  if (p.kind = 1 ∨ p.kind = 16) ∧ p.pois ≠ [] ∧ s.hostHome p.dst ∧ p.dst = (s.port q).peer then
    s.startPurge (q / 4) p.tag 0x10 (s.accRegion p.acc) none
  else
  let p : Pkt := { p with via }
  let x := s.port q
  match s.joins x p with
  | some l =>
    ((s.setPort q { x with txq := x.txq.dropLast ++ [l] }).ride l).depthChanged q
  | none =>
    let s := if isRequest p then s.ride p else s
    (s.setPort q { x with txq := x.txq ++ [p] }).depthChanged q

/-- The neighbour an entry's next hop leads to. -/
def Route.neighbour (r : Route) : Nat := r.path.getLastD r.origin

/-- A port through which a response can leave for a die whose routes are gone (R354 step 2). -/
def State.portTo (s : State) (i dst : Nat) : Option Nat :=
  (List.range 4).find? fun q => (s.port (4 * i + q)).peer / 4 == dst / 4 && ((s.port (4 * i + q)).st == .reconfiguring)

/-- A response to `p` leaves die `i`. -/
def reply (p : Pkt) (i kind : Nat) : Pkt :=
  { kind, at_ := i, dst := p.src, src := p.dst, fa := p.fa, tag := p.tag, mixed := p.mixed, acc := p.acc, trail := p.trail
    back := p.back, push := p.push, lanes := p.lanes, comb := p.comb, aop := p.aop, nth := p.nth }

/-- A packet crosses the direct link to a die of the package, whose router it enters by that link (R196); a request keeps the step
(R200). A router's input ports are numbered cores first, then direct links, then Galzan ports (DESIGN CHOICE, log entry 76). -/
def State.cross (s : State) (p : Pkt) (j : Nat) : Pkt :=
  { p with at_ := j, hop := p.hop + 1, sw := 0, came := s.now j, inp := 64 + p.at_
           back := if isRequest p then .die p.at_ :: p.back else p.back }

/-- One hop of a packet that goes to a die by number: over the direct link of the package, or by the route to that die's
memory; none where the die has no such route. -/
def State.hopTo (s : State) (n : Nat) (p : Pkt) (dst : Nat) : State :=
  match s.local? dst with
  | some j => s.setPkt n (s.cross p j)
  | none => match s.homeRoute p.at_ (dramBase dst) with
    | none => match (if kindClass p.kind = 1 then s.portTo p.at_ dst else none) with
      | some q => (s.delPkt n).toPort (4 * p.at_ + q) dst p
      | none => s.delPkt n
    | some r =>
      if r.next < 4 then (s.delPkt n).toPort (4 * p.at_ + r.next) r.neighbour { p with hop := p.hop + 1 }
      else if r.next < 8 then s.setPkt n (s.cross p (r.next - 4))
      else s.delPkt n

/-- A response takes the last step of its request back, whatever routes there are now (R200). -/
def State.homeward (s : State) (n : Nat) (p : Pkt) : State :=
  match p.back with
  | .die j :: l => s.setPkt n { p with at_ := j, back := l }
  | .port k via :: l => (s.delPkt n).toPort (4 * p.at_ + k) via { p with back := l }
  | [] => s.hopTo n p p.dst

/-- The route a die takes for a request (R324, R329): of a retry, the entry of the origin named, where it has one. -/
def State.routeFor (s : State) (p : Pkt) : Option Route :=
  let own := if p.kind = 0 ∧ !p.push then s.loadRoute p.at_ p.fa else s.homeRoute p.at_ p.fa
  if p.retry then
    match bestRoute ((s.matching p.at_ p.fa).filter fun r => r.origin == p.dst && (if p.kind = 0 ∧ !p.push then Route.usable r else Route.home r)) with
    | some r => some r
    | none => own
  else own

/-- The bytes of memory a request touches. -/
def Pkt.touches (p : Pkt) : List Nat :=
  if p.kind = 0 then p.want else if p.kind = 2 then (match p.aop with
    | some o => p.lanes.flatMap fun l => (List.range o.w).map (p.fa / 128 * 128 + l.off + ·)
    | none => []) else p.cells.map (·.1)

/-- Requests of this package not yet served, wherever they are. -/
def State.requests (s : State) : List Pkt :=
  (s.net.map (·.2)).filter isRequest ++ s.dies.flatMap fun d => d.2.holdW ++ d.2.holdL

/-- A packet carries an access of a die towards its holder, or back from one that did not perform it. -/
def Pkt.carries (p : Pkt) (src id : Nat) : Bool :=
  ((isRequest p && p.src == src) || ((p.kind == 6 || p.kind == 7 || p.kind == 14) && p.dst == src)) && p.lanes.any fun l => l.acc == id

/-- An access that no holder has yet performed: it has not left its core, is to be sent again, is on its way, held, parked or queued at
a port, or stands in a combine wait buffer. -/
def State.unperformed (s : State) (id : Nat) (a : Acc) : Bool :=
  let has (p : Pkt) : Bool := p.carries (s.dieNo a.core.die) id
  s.stage.contains id || a.resend.isSome || s.net.any (fun e => has e.2) || s.ports.any (fun e => e.2.txq.any has) ||
    s.dies.any fun d => d.2.holdW.any has || d.2.holdL.any has || d.2.moves.any (fun m => m.parked.any has) ||
      d.2.pairs.any fun e => has e.2.early || has e.2.late

/-- A request waits for an earlier access of its thread, or of its glean, to the same byte (R176, R180). -/
def State.behind (s : State) (p : Pkt) : Bool :=
  (s.local? p.src).isSome && p.lanes.any fun l => match AMap.find s.accs l.acc with
    | none => false
    | some a => a.kind != .push && s.accs.any fun e =>
        decide (e.1 < l.acc) && !(p.lanes.any fun k => k.acc == e.1) && e.2.kind != .push
          && ((e.2.owner == a.owner && e.2.gnum == a.gnum && (match a.owner with
            | .thread _ => true
            | _ => false)) || (a.glean != 0 && e.2.glean == a.glean))
          && (p.touches.any fun x => decide (e.2.fa ≤ x) && decide (x < e.2.fa + e.2.len)) && s.unperformed e.1 e.2

/-! ### Stamps at a home (R242, R243) -/

/-- Counts taken ahead of their turn follow as soon as their turn comes. -/
def advance : Nat → View → List (Nat × Nat) → Nat → Nat → View
  | 0, v, _, _, _ => v
  | k + 1, v, sk, o, x => if sk.contains (o, View.get v o x + 1) then advance k (View.raise v o x (View.get v o x + 1)) sk o x else v

def insertTurn (l : List (Nat × Nat)) (e : Nat × Nat) : List (Nat × Nat) := if l.contains e then l else l ++ [e]

/-- A count of origin `o` towards the home on die `i` has been taken, with the entries that came with it. -/
def State.take (s : State) (i o n : Nat) (w : View) : State :=
  let d := s.die i
  let x := s.dieNo i
  let v := advance (d.skips.length + 1) (View.raise (View.max d.applied w) o x n) d.skips o x
  let d := { d with applied := v, skips := d.skips.filter fun e => !(e.1 == o && decide (e.2 ≤ View.get v o x)) }
  s.setDie i { d with fwdDue := if d.fwd.any (fun f => f.2 != []) && d.fwdDue.isNone then some (s.now i + 1024) else d.fwdDue }

/-- A count is taken at die `i` at its turn. -/
def State.skip (s : State) (i o n : Nat) : State :=
  let d := s.die i
  if n ≤ View.get d.applied o (s.dieNo i) then s
  else if n = View.get d.applied o (s.dieNo i) + 1 then s.take i o n []
  else s.setDie i { d with skips := insertTurn d.skips (o, n) }

/-- Every count of a request that is applied is taken, each at its turn (R196), with the entries it carries. -/
def State.takeAll (s : State) (i : Nat) (l : List (Nat × Nat)) (w : View) : State :=
  l.foldl (fun s e => s.skip i e.1 e.2) (s.setDie i { s.die i with applied := View.max (s.die i).applied w })

/-- A skip notice for a count towards home die number `x` leaves die `i` (R243); at that home it is taken at once. -/
def State.skipNotice (s : State) (i o x n : Nat) : State :=
  if s.local? x = some i then s.skip i o n
  else s.send { kind := 12, at_ := i, dst := x, src := s.dieNo i, origin := o, val := x, count := n }

/-- The counts of a request that have not been taken at its home. -/
def State.untaken (s : State) (i : Nat) (p : Pkt) : List (Nat × Nat) :=
  p.turns.filter fun e => decide (View.get (s.die i).applied e.1 (s.dieNo i) < e.2) && !(s.die i).skips.contains e

/-- An earlier write of a source outside the package has not been acknowledged by its home (R248). -/
def State.earlierFrom (s : State) (p : Pkt) : Bool :=
  let w (q : Pkt) : Bool := isRequest q && q.kind != 0 && q.src == p.src && q.nth != 0 && decide (q.nth < p.nth)
  s.net.any (fun e => w e.2) || s.ports.any (fun e => e.2.txq.any w) ||
    s.riders.any (fun e => e.1.1 == p.src && e.2.write && e.2.nth != 0 && decide (e.2.nth < p.nth)) ||
    s.dies.any fun d => d.2.holdW.any w || d.2.moves.any (fun m => m.parked.any w) || d.2.hostDir.any (fun l => l.writes.any w) ||
      d.2.pairs.any fun e => w e.2.late

/-- The hold of a write at its home: one of the counts it takes is next in its origin's order, its column is covered, and its
extensions have been received (R242); a host's system release waits for that host's earlier writes (R248). The further counts of a
merged request depend on nothing before them that is not applied (R197), so they wait for no turn. -/
def State.writeAdmits (s : State) (i : Nat) (p : Pkt) : Bool :=
  let d := s.die i
  let x := s.dieNo i
  (!p.sysRel || !s.earlierFrom p) && (!p.stamped || ((s.untaken i p).any (fun e => e.2 == View.get d.applied e.1 x + 1) && View.covered p.view d.applied x
    && p.ext == (d.exts.filter fun e => e.src == p.src && e.acc == p.acc).length))

/-- The hold of a load at its holder. -/
def State.readAdmits (s : State) (i : Nat) (r : Route) (p : Pkt) : Bool := !p.stamped || View.covered p.view (s.appliedAt i r) p.origin

/-- A write whose count has been taken already is discarded (R243). -/
def State.stale (s : State) (i : Nat) (p : Pkt) : Bool := p.stamped && (s.untaken i p).isEmpty

/-- A request that its hold does not admit takes an entry, or is answered with a hold retry (R243). -/
def State.holdBack (s : State) (n i : Nat) (p : Pkt) (wr : Bool) : State :=
  let d := s.die i
  if wr then
    if d.holdW.length < 2048 then (s.delPkt n).setDie i { d with holdW := d.holdW ++ [p] }
    else (s.delPkt n).send (reply p i 14)
  else if d.holdL.length < 1024 then (s.delPkt n).setDie i { d with holdL := d.holdL ++ [p] }
  else (s.delPkt n).send (reply p i 14)

/-! ### Changing memory -/

/-- A write to a word that a thread waits on ends its wait at its next look (R103). -/
def State.touch (s : State) (as : List Nat) : State :=
  s.mapThreads fun th => match th.status with
    | .mwait m => if as.any fun a => a / 4 == m.fa / 4 then { th with status := .mwait { m with hit := true } } else th
    | _ => th

/-- Poisoned words after a write; stores of one or two bytes clear none (R192). -/
def poisonBy (sub : Bool) (old : List Nat) (cs : List Host.Cell) (pois : List Nat) : List Nat :=
  if sub then pois.foldl insertNat old else poisonAfter old cs pois

/-- Cells by fabric address stored where a holder keeps them. -/
def State.store (s : State) (q : Route) (cells : List Host.Cell) (pois : List Nat) (sub : Bool) : State :=
  let cs : List Host.Cell := cells.map fun c => (Route.physical q c.1, c.2)
  State.touch { s with mem := Memory.writeAll s.mem cs, poison := poisonBy sub s.poison cs (pois.map (Route.physical q)) } (cs.map fun c => c.1)

/-- Words of a filling replica's backing marked by a forwarded write are closed to other writes (R327). -/
def State.marked (s : State) (i phys : Nat) : Bool :=
  (s.die i).replicas.any fun r => r.2.marks.contains (phys / 4 * 4)

/-- A write the home has applied goes to each listed replica in order (R326), with the entries of the home's applied table that have
changed: its own column, which the replica's hold compares (R328), and the others, which loads served there pass on as loads served
at the home do (R241, R242). -/
def State.forward (s : State) (i : Nat) (q : Route) (cells : List Host.Cell) (pois : List Nat) (sub : Bool) : State :=
  let d := s.die i
  (AMap.getD d.fwd (q.pre, q.len) []).foldl (fun s x =>
    let d := s.die i
    let key := (q.pre, q.len, x)
    let old := AMap.getD d.fwdSent key []
    let s := s.setDie i { d with fwdSent := AMap.set d.fwdSent key d.applied }
    s.send { kind := 16, at_ := i, dst := x, src := s.dieNo i, fa := ((cells.head?).map (·.1)).getD q.pre, plen := q.len, cells, pois, sub, fwd := true
             stamped := true, view := d.applied.filter fun e => View.get old e.1.1 e.1.2 != e.2 }) s

/-- A packet towards a host goes hop by hop to the port that leads there; without a route it is dropped. -/
def State.sendOut (s : State) : Nat → Nat → Pkt → State
  | 0, _, _ => s
  | k + 1, i, p => match s.homeRoute i (dramBase p.dst) with
    | none => match s.portTo i p.dst with
      | some q => s.toPort (4 * i + q) p.dst p
      | none => s
    | some r => if r.next < 4 then s.toPort (4 * i + r.next) r.neighbour p else if r.next < 8 then s.sendOut k (r.next - 4) p else s

/-- A line's record takes its new value. -/
def State.setLine (s : State) (i : Nat) (l : HostLine) : State :=
  s.setDie i { s.die i with hostDir := (s.die i).hostDir.map fun x => if x.line = l.line then l else x }

/-- A recall of a line leaves for every holder but the writer (R319). -/
def State.startRecall (s : State) (i : Nat) (l : HostLine) (writer : Nat) : State :=
  let hs := l.holders.filter (· != writer)
  hs.foldl (fun s h => s.sendOut 4 i { kind := 10, at_ := i, dst := h, src := s.dieNo i, fa := l.line * 128, acc := l.line })
    (s.setLine i { l with holders := [], waiting := l.waiting ++ hs.map fun h => (h, s.now i) })

/-- What a write or an atomic of `writer` is answered with: every recorded line it touched is recalled from its other holders, and
the answer waits for the recalls (R319). -/
def State.answerWrite (s : State) (i writer : Nat) (touched : List Nat) (r : Pkt) : State :=
  let hit (l : HostLine) : Bool := touched.any fun a => a / 128 == l.line
  let s := ((s.die i).hostDir.filter fun l => hit l && l.holders.any (· != writer)).foldl (fun s l => s.startRecall i l writer) s
  let w := (s.die i).hostDir.filter fun l => hit l && l.waiting != []
  if w = [] then s.send r else w.foldl (fun s l => s.setLine i { l with writes := l.writes ++ [r] }) s

/-- The part's own writes that a queue or a status block turns away (R290, R352). -/
def State.closed (s : State) (i : Nat) (q : Route) (p : Pkt) : Bool :=
  (q.cls == 2 && !p.push) || p.cells.any (fun c => inStatus (Route.physical q c.1)) ||
    (p.aop.isSome && p.touches.any fun a => inStatus (Route.physical q a))

/-- The home has begun to move the prefix (R331 step 2). -/
def State.moving (s : State) (i fa : Nat) : Option Move :=
  (s.die i).moves.find? fun m => m.old && !m.ended && prefixOf m.len fa == m.pre

/-- The new home holds direct writes until the parked-end marker (R331 step 6). -/
def State.movedIn (s : State) (i fa : Nat) : Option Move :=
  (s.die i).moves.find? fun m => !m.old && !m.ended && prefixOf m.len fa == m.pre

/-- A purged tag's traffic is dropped on arrival (R364). -/
def State.purged (s : State) (i : Nat) (p : Pkt) : Bool := !p.mixed && (AMap.find (s.die i).filter p.tag.toNat).isSome

/-- An engine's write, once it is applied at a home of this package, invalidates the issuing core's L1 copy of its line (R206). -/
def State.dropLines (s : State) (p : Pkt) : State :=
  if (s.local? p.src).isNone then s
  else p.lanes.foldl (fun s l => match AMap.find s.accs l.acc with
    | some a => if a.kind = .engineWrite then s.l1Drop a.core (a.fa / 128) else s
    | none => s) s

/-- A write is applied at its home (R187, R242). -/
def State.applyWrite (s : State) (i : Nat) (q : Route) (p : Pkt) : State :=
  let s := if p.stamped then (s.setDie i { s.die i with exts := (s.die i).exts.filter fun e => !(e.src == p.src && e.acc == p.acc) }).takeAll i p.turns p.view else s
  if s.closed i q p then s.send { reply p i 8 with val2 := 0x0D }
  else
    let cells := p.cells.filter fun c => !s.marked i (Route.physical q c.1)
    let s := ((s.store q cells p.pois p.sub).forward i q cells p.pois p.sub).dropLines p
    s.answerWrite i p.src (cells.map (·.1)) (reply p i 4)

/-! ### Atomics at a home (R181, R182, R187) -/

/-- One operation on a location of a home: the state after, the old value and its poison. A poisoned location is left as it is. -/
def State.operate (s : State) (i : Nat) (q : Route) (fa w : Nat) (f : Nat → Nat) : State × Nat × Bool :=
  let bs := (List.range w).map fun k => s.byteAt (Route.physical q (fa + k))
  let bad := bs.any (·.2)
  let old := leNat (bs.map (·.1))
  let cells := cellsAt fa (leBytes w (f old))
  (if bad then s else (s.store q cells [] false).forward i q cells [] false, old, bad)

/-- The lanes of a request performed one after another, each on its own location (R176). -/
def State.operateLanes (i : Nat) (q : Route) (o : AOp) (seg : Nat) : List Lane → State → State × List Lane
  | [], s => (s, [])
  | l :: ls, s =>
    let x := s.operate i q (seg + l.off) o.w fun v => atomicOp o.op o.w v l.v l.n l.incs
    let r := State.operateLanes i q o seg ls x.1
    (r.1, { l with v := x.2.1, bad := x.2.2 } :: r.2)

/-- An atomic request is performed (R181): a merged one as one operation (R194, R196), another lane by lane. -/
def State.perform (s : State) (i : Nat) (q : Route) (p : Pkt) (o : AOp) : State :=
  let s := if p.stamped then s.takeAll i p.turns p.view else s
  if s.closed i q p then s.send { reply p i 8 with val2 := 0x0D }
  else
    let x := s.operate i q p.fa o.w fun v => atomicOp o.op o.w v p.operand.1 0 p.operand.2
    let y := State.operateLanes i q o (p.fa / 128 * 128) p.lanes s
    let s := if p.comb then x.1 else y.1
    let bad := if p.comb then x.2.2 else y.2.all (·.bad)
    let lanes := if p.comb then p.lanes else y.2
    let view := if p.stamped then (s.die i).applied else []
    s.answerWrite i p.src (if bad then [] else [p.fa]) { reply p i 5 with lanes, val := x.2.1, poisoned := bad, stamped := p.stamped, view }

/-! ### Reads -/

/-- A line is recalled from all its holders, once, to make room (R318). -/
def State.clearLine (s : State) (i : Nat) (l : HostLine) : State := if l.holders = [] then s else s.startRecall i l 0x10000

/-- A cacheable read by a host is recorded, the line then the one recorded last (R318). A fifth holder, and a new line in a full
directory, first recall: the read then waits for room. -/
def State.recordRead (s : State) (i : Nat) (p : Pkt) : State × Bool :=
  let d := s.die i
  let last (l : HostLine) : State × Bool := (s.setDie i { d with hostDir := (d.hostDir.filter fun x => x.line != l.line) ++ [l] }, true)
  if !p.cacheable then (s, true)
  else match d.hostDir.find? fun l => l.line == p.fa / 128 with
    | some l =>
      if l.holders.contains p.src then last l
      else if l.holders.length + l.waiting.length < 4 then last { l with holders := l.holders ++ [p.src] }
      else (s.clearLine i l, false)
    | none =>
      if d.hostDir.length < 32768 then last { line := p.fa / 128, holders := [p.src] }
      else ((d.hostDir.head?.map (s.clearLine i)).getD s, false)

/-- A read is served with the counts applied at its holder (R242). -/
def State.serveRead (s : State) (i : Nat) (q : Route) (p : Pkt) : State :=
  let bs := p.want.map fun a => (a, s.byteAt (Route.physical q a))
  s.send { reply p i 3 with cells := bs.map fun b => (b.1, b.2.1), pois := wordsOf ((bs.filter (·.2.2)).map (·.1)), stamped := p.stamped
                            view := if p.stamped then s.appliedAt i q else [], plen := q.len, hop := 0 }

/-- A `qlen`: the entries its queue holds (R294); a home that is no queue refuses. -/
def State.serveLen (s : State) (i : Nat) (p : Pkt) : State :=
  match s.queueAt i p.fa with
  | some (_, y) => s.send { reply p i 3 with val := y.entries.length }
  | none => s.send { reply p i 8 with val2 := 0x1C }

/-- The entry by which a die serves a request: its own installed entry, or, for a load, the entry of a withdrawal that has
not completed (R330). -/
def State.servingRoute (s : State) (i : Nat) (p : Pkt) : Option Route :=
  let own := bestRoute ((s.matching i p.fa).filter fun r => r.origin == s.dieNo i && r.st == .installed && (p.plen == 0 || r.len == p.plen)
    && (p.kind == 0 || r.cls != 1))
  match own with
  | some r => some r
  | none => if p.kind = 0 ∧ !p.push then
      (s.die i).rops.findSome? fun o => o.old.bind fun r => if o.fn = 1 ∧ Route.covers r p.fa ∧ (p.plen = 0 ∨ r.len = p.plen) then some r else none
    else none

/-- The counts of a write that will not be applied are skipped at their home (R243). -/
def State.skipTurns (s : State) (i : Nat) (p : Pkt) : State :=
  if p.kind ≠ 0 ∧ p.stamped then p.turns.foldl (fun s e => s.skipNotice i e.1 p.dst e.2) s else s

/-- The die's own home entry has lost a conflict or been moved away: writes are answered "moved" (R332). -/
def State.lostHome (s : State) (i fa : Nat) : Bool := (s.matching i fa).any fun r => r.origin == s.dieNo i && r.st == .suppressed && r.cls == 0

/-- A request is answered with a redirect to the die's own best route (R329); a write's count is skipped at its home. -/
def State.redirectFrom (s : State) (n i : Nat) (p : Pkt) (noRoute : Bool) : State :=
  let r := if noRoute then none else if p.kind = 0 ∧ !p.push then s.loadRoute i p.fa else s.homeRoute i p.fa
  let s := s.delPkt n
  let s := s.skipTurns i p
  let v1 := match r with | some r => r.origin | none => 0xFFFF
  let v2 := match r with | some r => r.len | none => 0
  s.send { reply p i (if p.kind ≠ 0 ∧ s.lostHome i p.fa then 7 else 6) with val := v1, val2 := v2 }

/-- Where a request stands at the die it is at. -/
inductive Spot where
  | serve (q : Route) | go (s : State) | redirect (noRoute : Bool)

/-- A die takes a request it holds, forwards it one hop, or redirects it (R329). -/
def State.spotBy (s : State) (n : Nat) (p : Pkt) : Spot :=
  let i := p.at_
  let here := s.dieNo i
  match s.routeFor p with
  | none => if p.dst = here then (match s.servingRoute i p with | some q => .serve q | none => .redirect true) else .redirect true
  | some r =>
    if p.dst = here then (match s.servingRoute i p with | some q => .serve q | none => .redirect false)
    else if r.origin = here then
      (if p.kind ≠ 0 ∧ p.stamped then .redirect false
       else match s.servingRoute i { p with plen := r.len } with | some q => .serve q | none => .redirect false)
    else if 16 ≤ p.hop then .redirect true
    else if r.next < 4 then .go ((s.delPkt n).toPort (4 * i + r.next) r.neighbour { p with hop := p.hop + 1 })
    else .go (s.setPkt n (s.cross p (r.next - 4)))

/-- Where a request stands; in the quiet power state an access to DRAM waits (R391). -/
def State.spot (s : State) (n : Nat) (p : Pkt) : Spot :=
  match s.spotBy n p with
  | .serve q => if s.dramWaits (Route.physical q p.fa) then .go s else .serve q
  | r => r

/-- What a die does on receipt of a purged request: it is dropped, and a write's count skipped (R364). -/
def State.dropPurged (s : State) (n i : Nat) (p : Pkt) : State :=
  (s.delPkt n).skipTurns i p

/-- A read request at a die (R175, R242, R324, R329). -/
def execReadRequest (n : Nat) (s : State) : Host.Outcome State Fault Refusal :=
  match AMap.find s.net n with
  | none => .next s
  | some p =>
    if p.kind ≠ 0 || p.relay then .next s
    else if s.purged p.at_ p then .next (s.dropPurged n p.at_ p)
    else match s.spot n p with
      | .go s => .next s
      | .redirect b => .next (s.redirectFrom n p.at_ p b)
      | .serve q =>
        if s.behind p then .next s
        else if !s.readAdmits p.at_ q p then .next (s.holdBack n p.at_ p false)
        else if p.push then .next ((s.delPkt n).serveLen p.at_ p)
        else
          let r := s.recordRead p.at_ p
          .next (if r.2 then (r.1.delPkt n).serveRead p.at_ q p else r.1)

/-- A write at its home, on arrival or from the hold buffer: parked by a move, held, or applied. -/
def State.writeHere (s : State) (i : Nat) (q : Route) (p : Pkt) : Option State :=
  if !s.writeAdmits i p then none
  else match s.moving i p.fa with
    | some m => some (s.setDie i { s.die i with moves := (s.die i).moves.map fun x => if x = m then { x with parked := x.parked ++ [p] } else x })
    | none => if (s.movedIn i p.fa).isSome then none else some (s.applyWrite i q p)

/-- A write request, whole or masked, at a die. -/
def State.writeAt (s : State) (n : Nat) (kind : Nat) : State :=
  match AMap.find s.net n with
  | none => s
  | some p =>
    if p.kind ≠ kind || p.push || p.fwd || p.relay then s
    else if s.purged p.at_ p then s.dropPurged n p.at_ p
    else match s.spot n p with
      | .go s => s
      | .redirect b => s.redirectFrom n p.at_ p b
      | .serve q =>
        if s.behind p then s
        else if s.stale p.at_ p then s.delPkt n
        else match (s.delPkt n).writeHere p.at_ q p with
          | some s => s
          | none => s.holdBack n p.at_ p true

/-- A write request (R187, R242). -/
def execWriteRequest (n : Nat) (s : State) : Host.Outcome State Fault Refusal := .next (s.writeAt n 1)
/-- A masked write (R344). -/
def execMaskedWrite (n : Nat) (s : State) : Host.Outcome State Fault Refusal := .next (s.writeAt n 16)

/-! ### Combining (R193-R197) -/

/-- Two requests may pair (R194): one location and one operation, waiting in one switch for one output. -/
def pairable (p q : Pkt) : Bool :=
  match p.aop, q.aop with
  | some o, some u => p.comb && q.comb && p.fa == q.fa && o.op == u.op && o.merges && o.w == u.w && o.ord == u.ord && o.scope == u.scope
      && (o.op != 12 || (p.operand.1 == q.operand.1)) && decide (p.operand.2 + q.operand.2 ≤ 65535) && p.at_ == q.at_ && p.sw == q.sw
      && p.relay == q.relay && p.dst == q.dst
  | _, _ => false

/-- The lowest free entry of the wait buffer of a die's switch. -/
def Die.freePair (d : Die) (sw : Nat) : Option Nat := (List.range 128).find? fun k => (AMap.find d.pairs (128 * sw + k)).isNone

/-- `p` entered the switch before `q` (R196): in an earlier cycle, or by a lower input port, or before it by the same. -/
def entered (n : Nat) (p : Pkt) (m : Nat) (q : Pkt) : Bool := decide ([p.came, p.inp, n] < [q.came, q.inp, m])

/-- The later party depends on no write of an origin after the earlier party's, and the earlier on none of the later's (R197). -/
def apart (early late : Pkt) : Bool :=
  early.stamped == late.stamped && (!early.stamped ||
    ((early.turns.all fun e => decide (View.get late.view e.1 early.dst ≤ e.2)) && late.turns.all fun e => decide (View.get early.view e.1 early.dst < e.2)))

/-- What the later party depends on beside the earlier party's own writes. -/
def beside (early late : Pkt) : View :=
  late.view.map fun x => if early.turns.any (fun e => e.1 == x.1.1 && x.1.2 == early.dst && e.2 == x.2) then (x.1, x.2 - 1) else x

/-- The request that a pair forwards (R195-R198). -/
def forwarded (o : AOp) (early late : Pkt) (die e : Nat) : Pkt :=
  { early with lanes := [{ acc := early.acc, v := combined o early.operand.1 late.operand.1, incs := early.operand.2 + late.operand.2, off := early.fa % 128 }]
               trail := early.trail ++ [(die, early.sw, e)], back := []
               view := View.max early.view (beside early late), also := if late.stamped then early.also ++ late.turns else []
               tag := if early.tag = late.tag ∧ !early.mixed ∧ !late.mixed then early.tag else 0
               mixed := early.mixed || late.mixed || early.tag != late.tag }

/-- Two requests become one in their switch: the entry holds the parties, and the later's place in a relay area is free. -/
def State.pairUp (s : State) (o : AOp) (n : Nat) (early : Pkt) (m : Nat) (late : Pkt) (e : Nat) : State :=
  let i := early.at_
  let d := s.die i
  let s := s.setDie i { d with pairs := AMap.set d.pairs (128 * early.sw + e) { early, late, born := s.now i, killE := false, killL := false } }
  let q := 4 * i + (early.sw - 1)
  let s := if late.relay then s.setPort q ((s.port q).free 2 (s.flitsOf late)) else s
  (s.delPkt m).setPkt n (forwarded o early late (s.dieNo i) e)

/-- An atomic request at a die (R181, R193-R197): it may pair with another request queued in its switch; else it goes on from a relay
point to the router, and from there it is performed, forwarded or redirected. -/
def execAtomicRequest (n : Nat) (partner : Option Nat) (s : State) : Host.Outcome State Fault Refusal :=
  match AMap.find s.net n with
  | none => .next s
  | some p => match p.aop with
    | none => .next s
    | some o =>
      if p.kind ≠ 2 then .next s
      else if s.purged p.at_ p then .next (if p.relay then s else s.dropPurged n p.at_ p)
      else match partner.bind fun m => (AMap.find s.net m).map fun q => (m, q) with
        | some (m, q) => match (s.die p.at_).freePair p.sw with
          | some e =>
            let first := entered n p m q
            let early := if first then p else q
            let late := if first then q else p
            if m ≠ n ∧ q.kind = 2 ∧ pairable p q ∧ apart early late ∧ !s.behind p ∧ !s.behind q ∧ !s.purged q.at_ q ∧ early.trail.length < 16 then
              .next (s.pairUp o (if first then n else m) early (if first then m else n) late e)
            else .next s
          | none => .next s
        | none =>
          if p.relay then .next s
          else if p.sw ≠ 0 then .next (s.setPkt n { p with sw := 0, came := s.now p.at_, inp := 67 + p.sw })
          else match s.spot n p with
          | .go s => .next s
          | .redirect b => .next (s.redirectFrom n p.at_ p b)
          | .serve q =>
            if s.behind p then .next s
            else if s.stale p.at_ p then .next (s.delPkt n)
            else if !s.writeAdmits p.at_ p || (s.movedIn p.at_ p.fa).isSome then .next (s.holdBack n p.at_ p true)
            else match s.moving p.at_ p.fa with
              | some m => .next ((s.delPkt n).setDie p.at_ { s.die p.at_ with moves := (s.die p.at_).moves.map fun x => if x = m then { x with parked := x.parked ++ [p] } else x })
              | none => .next ((s.delPkt n).perform p.at_ q p o)

/-- A request in a hold buffer whose hold now admits it is applied or served (R242). `n` is 4 times its place in the buffers of its die,
writes first, and the die's index. -/
def execHoldBufferAdmit (n : Nat) (s : State) : Host.Outcome State Fault Refusal :=
  let i := n % 4
  let d := s.die i
  match (d.holdW ++ d.holdL)[n / 4]? with
  | none => .next s
  | some p =>
    let s' := s.setDie i { d with holdW := d.holdW.filter (fun x => x != p), holdL := d.holdL.filter fun x => x != p }
    if s'.purged i p then .next (s'.dropPurged 0 i p)
    else match s'.servingRoute i p with
      | none => .next (s'.redirectFrom 0 i p false)
      | some q =>
        if s'.behind p then .next s
        else if p.kind = 0 then
          if !s'.readAdmits i q p then .next s
          else if p.push then .next (s'.serveLen i p)
          else
            let r := s'.recordRead i p
            .next (if r.2 then r.1.serveRead i q p else (s.recordRead i p).1)
        else if s'.stale i p then .next s'
        else if p.kind = 2 then match p.aop with
          | some o => .next (if s'.writeAdmits i p && (s'.moving i p.fa).isNone && (s'.movedIn i p.fa).isNone then s'.perform i q p o else s)
          | none => .next s
        else if p.push then .next (if s'.writeAdmits i p then s'.send { p with at_ := i } else s)
        else match s'.writeHere i q p with
          | some s => .next s
          | none => .next s

/-- A skip notice reaches the home of its count (R243). -/
def execSkipNotice (n : Nat) (s : State) : Host.Outcome State Fault Refusal :=
  match AMap.find s.net n with
  | none => .next s
  | some p =>
    if p.kind ≠ 12 then .next s
    else if s.local? p.dst = some p.at_ then .next ((s.delPkt n).skip p.at_ p.origin p.count)
    else .next (s.hopTo n p p.dst)

/-- A write parked at the former home is applied at the new one, in parked order; its count is then taken at the home it was
stamped for (R331). -/
def State.applyParked (s : State) (i h : Nat) (p : Pkt) : State :=
  match s.servingRoute i { p with kind := 16 } with
  | none => s
  | some q =>
    let s := if p.stamped then p.turns.foldl (fun s e => s.skipNotice i e.1 h e.2) s else s
    let p := { p with stamped := false, fwd := false }
    match p.aop with
    | some o => s.perform i q p o
    | none => s.applyWrite i q p

/-- A forwarded write reaches a replica (R326-R328): applied to the backing in order, marking words while it fills, and its
counts taken. -/
def execForwardedWrite (n : Nat) (s : State) : Host.Outcome State Fault Refusal :=
  match AMap.find s.net n with
  | none => .next s
  | some p =>
    if !p.fwd || (p.kind ≠ 16 && p.kind ≠ 1) then .next s
    else if s.local? p.dst ≠ some p.at_ then .next (s.hopTo n p p.dst)
    else if s.net.any fun e => decide (e.1 < n) && e.2.fwd && (e.2.src == p.src || p.parkedBy.isSome) && e.2.parkedBy == p.parkedBy && e.2.dst == p.dst && e.2.plen == p.plen
        && prefixOf p.plen e.2.fa == prefixOf p.plen p.fa then .next s
    else
      let i := p.at_
      let s := s.delPkt n
      match p.parkedBy with
      | some h => .next (s.applyParked i h p)
      | none => match (s.matching i p.fa).find? fun r => r.cls == 1 && r.origin == s.dieNo i && r.pre == prefixOf r.len p.fa && (p.plen == 0 || r.len == p.plen) with
      | none => .next s
      | some q =>
        let d := s.die i
        let x := AMap.getD d.replicas (q.pre, q.len) {}
        if x.src.any (· != p.src) then
          .next (s.setDie i { d with replicas := AMap.set d.replicas (q.pre, q.len) { x with waiting := x.waiting ++ [p] } })
        else
          let marks := if q.ready then x.marks else wordsOf (x.marks ++ p.cells.map fun c => Route.physical q c.1)
          let s := s.setDie i { d with replicas := AMap.set d.replicas (q.pre, q.len) { x with marks, counts := View.max x.counts p.view, src := some p.src } }
          .next (s.store q p.cells p.pois p.sub)

/-- A stamp extension (R328, R344): the counts of a replica's stream, or part of a write's stamp, kept for it. -/
def execStampExtension (n : Nat) (s : State) : Host.Outcome State Fault Refusal :=
  match AMap.find s.net n with
  | none => .next s
  | some p =>
    if p.kind ≠ 15 then .next s
    else if s.local? p.dst ≠ some p.at_ then .next (s.hopTo n p p.dst)
    else
      let i := p.at_
      let s := s.delPkt n
      let d := s.die i
      if p.fwd then
        match (s.matching i p.fa).find? fun r => r.cls == 1 && r.origin == s.dieNo i with
        | none => .next s
        | some q =>
          let x := AMap.getD d.replicas (q.pre, q.len) {}
          .next (s.setDie i { d with replicas := AMap.set d.replicas (q.pre, q.len) { x with counts := View.max x.counts p.view } })
      else .next (s.setDie i { d with exts := d.exts ++ [p], applied := View.max d.applied (p.view.filter fun e => e.1.2 != s.dieNo i) })

/-- A home sends the counts that have changed to each listed replica (R328). -/
def execCountUpdateDeadline (die : Nat) (s : State) : Host.Outcome State Fault Refusal :=
  let d := s.die die
  if d.fwdDue.isNone then .next s
  else
    let s := s.setDie die { d with fwdDue := none }
    .next (d.fwd.foldl (fun s f => f.2.foldl (fun s x =>
      let d := s.die die
      let key := (f.1.1, f.1.2, x)
      let new := d.applied.filter fun e => View.get (AMap.getD d.fwdSent key []) e.1.1 e.1.2 != e.2
      if new = [] then s
      else (s.setDie die { d with fwdSent := AMap.set d.fwdSent key d.applied }).send
        { kind := 15, at_ := die, dst := x, src := s.dieNo die, fa := f.1.1, plen := f.1.2, fwd := true, stamped := true, view := new }) s) s)

/-- The holders of a line that are still to acknowledge. With none left the recall has ended: the line leaves the directory, unless a
read has recorded it since, and the answers leave that wait for no other line (R319). -/
def State.recalled (s : State) (i : Nat) (l : HostLine) (w : List (Nat × Nat)) : State :=
  if w ≠ [] then s.setLine i { l with waiting := w }
  else
    let d := s.die i
    let s := if l.holders = [] then s.setDie i { d with hostDir := d.hostDir.filter fun x => x.line != l.line } else s.setLine i { l with waiting := [], writes := [] }
    (l.writes.filter fun r => !(s.die i).hostDir.any fun x => x.writes.contains r).foldl (fun s r => s.send r) s

/-- A recall acknowledgement reaches the home (R319). -/
def execRecallAcknowledgement (n : Nat) (s : State) : Host.Outcome State Fault Refusal :=
  match AMap.find s.net n with
  | none => .next s
  | some p =>
    if p.kind ≠ 11 then .next s
    else if s.local? p.dst ≠ some p.at_ then .next (s.hopTo n p p.dst)
    else
      let i := p.at_
      let s := s.delPkt n
      match (s.die i).hostDir.find? fun l => l.line == p.fa / 128 with
      | none => .next s
      | some l =>
        if l.waiting.any (·.1 == p.src) then .next (s.recalled i l (l.waiting.eraseP (·.1 == p.src))) else .next s

/-- A recall that has not been acknowledged counts as acknowledged: its holder is removed, and the firmware gets an event (R319). -/
def execRecallTimeout (die line : Nat) (s : State) : Host.Outcome State Fault Refusal :=
  match (s.die die).hostDir.find? fun l => l.line == line && l.waiting.any fun h => decide (h.2 + 4194304 ≤ s.now die) with
  | none => .next s
  | some l => .next ((s.setDie die { s.die die with events := (1, line) :: (s.die die).events }).recalled die l
      (l.waiting.eraseP fun h => decide (h.2 + 4194304 ≤ s.now die)))

/-- A combine entry whose response has not returned is freed (R200). -/
def execCombineEntryExpiry (die entry : Nat) (s : State) : Host.Outcome State Fault Refusal :=
  let d := s.die die
  match AMap.find d.pairs entry with
  | none => .next s
  | some x => if s.now die < x.born + 4194304 then .next s else .next (s.setDie die { d with pairs := AMap.del d.pairs entry })

end

end Sys2Proof.Machine
end

