-- ==== Sys2Proof/Machine/Reply.lean ====
section
/-! DEFINITION. Reply: what comes back to the die that made a request: data, acknowledgements, old values, redirects,
refusals, hold retries, and accesses that expire (R175, R190-R192, R196, R200, R243, R291, R329, R346). -/

namespace Sys2Proof.Machine

open Sys2Proof

noncomputable section

/-! ### The access a response belongs to -/

def State.delAcc (s : State) (id : Nat) : State := { s with accs := AMap.del s.accs id }

/-- An access is over: nothing waits for it any longer (R179, R217, R245). An sc atomic's completion releases its
sequencer (R247). -/
def State.overAcc (s : State) (id : Nat) (a : Acc) : State :=
  let s := (s.delAcc id).drained a.core.die id
  { s with seqHold := s.seqHold.filter fun e => e.2 != id }

/-- A thread that has exited is gone once its last load has returned (R99, R175). -/
def State.drainExit (s : State) (t : ThreadId) (gnum : BitVec 64) : State :=
  match s.slotOf (gidOf t) gnum with
  | none => s
  | some g =>
    let u : ThreadId := ⟨g.die, g.core, g.slot, t.t, false⟩
    if (s.thr u).status = .draining ∧ s.outLoads t = 0 then
      let s := s.finalExit u
      let s := if (s.grp g).shadow = 1 then s.finalExit { u with sh := true } else s
      s.groupEnd g
    else s

/-- Registers with free values, poisoned: what an access that failed leaves in its destination (R190, R191). -/
def freshPoison : Nat → State → State × List Reg
  | 0, s => (s, [])
  | k + 1, s =>
    let (v, s) := s.fresh
    let r := freshPoison k s
    (r.1, { v := v.setWidth 32, p := true } :: r.2)

/-- The registers of a load or an atomic are written, in both copies of a lane pair; an operation performed once gives its
result, and the counts `v` that came with it, to the twin of a block pair (R82, R161, R175, R245, R358). -/
def State.giveLoad (s : State) (id : Nat) (a : Acc) (rs : List Reg) (v : View := []) : State :=
  match a.owner with
  | .thread t =>
    let now := s.now a.core.die
    let f (th : Thread) : Thread :=
      let th := th.receive now a.dest rs
      if th.status = .waiting (.resp id) then th.wakeAt now else th
    let s := (s.onThread t a.gnum f).imageWrite a.core t a.gnum a.dest
    let s := if a.shadow then s.onThread { t with sh := true } a.gnum f else s
    let s := if a.kind = .atomic then s.answerTwin t a.gnum rs v else s
    (s.overAcc id a).drainExit t a.gnum
  | .launch l => { s with launches := AMap.del s.launches l }.overAcc id a
  | _ => s.overAcc id a

/-- Cause and value reach the issuing thread as an imprecise fault (R90, R190). -/
def State.reportTo (s : State) (a : Acc) (cause : Nat) : State :=
  match a.owner with
  | .thread t => { s with reports := s.reports ++ [{ t, gnum := a.gnum, cause := BitVec.ofNat 8 cause, va := BitVec.ofNat 64 a.va, tag := a.tag
                                                     region := (s.grp (gidOf t)).region }] }
  | _ => s

/-- A lost access is recorded against the group that made it (R87, R191). -/
def State.lostEvent (s : State) (a : Acc) : State :=
  match a.owner with
  | .thread t => match s.slotOf (gidOf t) a.gnum with
    | some g => s.groupEvent ⟨g.die, g.core, g.slot, t.t, false⟩ 0x11 (BitVec.ofNat 64 a.va)
    | none => match s.outs.find? fun o => o.g.num == a.gnum with
      | some o => s.outEvent o t.t 0x11 (BitVec.ofNat 64 a.va)
      | none => s
  | .block g => s.record g.die (s.groupRecord g 1 0x11 a.tag (BitVec.ofNat 64 a.va))
  | _ => s

/-- Work that waits for a read goes on (R88, R96, R237, R310, R401). -/
def State.resume (s : State) (o : Owner) : State :=
  match o with
  | .engine _ _ => s.go o
  | .unit _ _ => s.go o
  | _ => s

/-- A command no longer waits for an access. -/
def State.cmdDone (s : State) (id : Nat) (a : Acc) (buf : List (Nat × Byte × Bool)) : State :=
  match s.cmdOf a.owner with
  | none => s
  | some c => (s.setCmd a.owner { c with outs := c.outs.filter (· != id), buf := c.buf ++ buf }).go a.owner

/-! ### Switches on the way back (R195, R196, R199, R200) -/

/-- The response one party of a pair gets, for the value it receives; it goes back the way that party's request came (R200). -/
def partyReply (r q : Pkt) (v : Nat) : Pkt :=
  { r with acc := q.acc, dst := q.src, tag := q.tag, mixed := q.mixed, trail := q.trail, back := q.back, lanes := q.lanes, comb := q.comb
           nth := q.nth, val := if r.kind = 5 then v else r.val }

/-- A response at the switch that made a pair: one response per party, and the entry is freed; a response for an entry that has been
freed, or made again for other requests, is discarded (R196, R199, R200). -/
def State.splitAt (s : State) (n : Nat) (r : Pkt) (e : Nat) : State :=
  let d := s.die r.at_
  match AMap.find d.pairs e with
  | none => s.delPkt n
  | some x =>
    if x.early.acc ≠ r.acc ∨ x.early.src ≠ r.dst then s.delPkt n else
    let s := (s.delPkt n).setDie r.at_ { d with pairs := AMap.del d.pairs e }
    let v := match r.aop with
      | some o => laterGets o r.val x.early.operand.1 x.early.operand.2
      | none => r.val
    let s := if x.killE then s else s.send (partyReply r x.early r.val)
    if x.killL then s else s.send (partyReply r x.late v)

/-- The lanes a response answers, with their old values. -/
def Pkt.answers (p : Pkt) : List Lane :=
  match p.lanes, p.aop with
  | [], _ => [{ acc := p.acc, v := p.val, bad := p.poisoned }]
  | l, some o => if p.kind = 5 ∧ p.comb then splitLanes o p.poisoned l p.val (0, 0) else l
  | l, none => l

/-- The lane of an access whose tag is being purged: its part of a response of several tags is dropped (R364). -/
def State.laneLive (s : State) (i : Nat) (l : Lane) : Bool :=
  match AMap.find s.accs l.acc with
  | none => true
  | some a => (AMap.find (s.die i).filter a.tag.toNat).isNone

/-- A response has come to the die of its requester, every switch behind it. -/
def State.atHome (s : State) (p : Pkt) : Bool := p.back == [] && p.trail == [] && s.local? p.dst == some p.at_

/-- A response of some kind: a step back, a split at a switch, or its arrival at the requester's die, where `k` takes it for each
access it answers. A dropped tag's response is dropped (R364). -/
def State.response (s : State) (n kind : Nat) (k : State → Pkt → Lane → State) : State :=
  match AMap.find s.net n with
  | none => s
  | some p =>
    if p.kind ≠ kind || p.relay then s
    else if s.atHome p then
      if s.purged p.at_ p then s.delPkt n
      else (p.answers.filter (s.laneLive p.at_)).foldl (fun s l => k s p l) (s.delPkt n)
    else match p.back, p.trail.getLast? with
      | [], some e => if s.local? e.1 = some p.at_ then s.splitAt n p (128 * e.2.1 + e.2.2) else s.homeward n p
      | _, _ => s.homeward n p

/-! ### Data and old values -/

/-- The data a response brings is no older than what its core's present view of its home names, and no store of the core to an
unstamped home may still overtake it: only then may it stand as a line of the present generation (R178, R241, R244). -/
def State.fresh1 (s : State) (a : Acc) (p : Pkt) (home : Option Nat) : Bool :=
  match home with
  | some h => p.stamped && View.covered (s.view a.core 0) p.view h
  | none => !(s.accs.any fun e => e.2.core == a.core && e.2.kind == .store && !e.2.stamped && e.2.fa / 128 == a.fa / 128)

/-- A line that a load has brought takes its place in the L1; which it replaces is not architected, but a line that a
streaming load brought goes first (R12, R178, R244; log entry 10). -/
def State.l1Fill (s : State) (a : Acc) (p : Pkt) : State :=
  let k := s.core a.core
  let home := match s.homeRoute a.core.die a.fa with
    | some h => if s.inStand h.origin then some h.origin else none
    | none => none
  if !s.fresh1 a p home then s else
  let line : Line := { seg := a.fa / 128, cells := p.cells.map (·.2), pois := p.pois, home
                       gen := (match home with | some x => (AMap.getD k.gens x 0).toNat | none => 0), str := a.hint == 1 }
  let l := k.l1.filter fun l => l.seg != line.seg
  let l := if l.length < 2048 then l else match l.find? (·.str) with
    | some x => l.filter fun y => y.seg != x.seg
    | none => l.drop 1
  s.setCore a.core { k with l1 := l ++ [line] }

/-- The bytes an access asked for, from a response; bytes its thread holds in its commit buffer come first (R360). -/
def Acc.bytes (a : Acc) (cells : List Host.Cell) (pois : List Nat) : List (Byte × Bool) :=
  (List.range a.len).map fun k =>
    let x := a.fa + k
    match a.cells.find? fun c => c.1 == x with
    | some c => (c.2, a.pois.contains (x / 4 * 4))
    | none => (((cells.find? fun c => c.1 == x).map (·.2)).getD 0, pois.contains (x / 4 * 4))

/-- A view reaches the path of a core that made an access, and the group it was made for where that is elsewhere or out (R240). -/
def State.mergeAt (s : State) (a : Acc) (v : View) : State :=
  let s := s.merge a.core a.path v
  match (s.groups.find? fun e => e.2.num == a.gnum).map (·.1) with
  | some g => if (⟨g.die, g.core⟩ : CoreId) = a.core then s else s.merge ⟨g.die, g.core⟩ a.path v
  | none => { s with outs := s.outs.map fun o =>
      if o.g.num = a.gnum then { o with views := AMap.set o.views a.path (View.max (AMap.getD o.views a.path []) v) } else o }

/-- A response's counts are merged into the view of the path that made the access (R242); dispatch's into the launch's. -/
def State.mergeResp (s : State) (a : Acc) (p : Pkt) : State :=
  if !p.stamped then s
  else match a.owner with
    | .launch l => match AMap.find s.launches l with
      | some x => { s with launches := AMap.set s.launches l { x with view := View.max x.view p.view } }
      | none => s
    | .part => s
    | _ => s.mergeAt a p.view

/-- A read response (R175, R179, R192, R242). -/
def execReadResponse (n : Nat) (s : State) : Host.Outcome State Fault Refusal :=
  .next (s.response n 3 fun s p l => match AMap.find s.accs l.acc with
    | none => s
    | some a =>
      let s := s.mergeResp a p
      let bs := a.bytes p.cells p.pois
      match a.kind with
      | .load =>
        let s := if a.fill ∧ p.cells.length = 128 then s.l1Fill a p else s
        s.giveLoad l.acc a (loadRegs a.len a.signed bs)
      | .sync =>
        let got : List (Owner × Nat × Byte × Bool) := bs.zipIdx.map fun b => (a.owner, a.fa + b.2, b.1)
        let s : State := { s with syncBuf := s.syncBuf ++ got }
        (s.overAcc l.acc a).resume a.owner
      | .engineRead => (s.overAcc l.acc a).cmdDone l.acc a (bs.zipIdx.map fun b => (a.va + b.2, b.1))
      | .qlen => match a.owner with
        | .thread t => (s.overAcc l.acc a).answer t a.gnum true (.ok [{ v := BitVec.ofNat 32 p.val }])
        | _ => s
      | _ => s)

/-- A write's acknowledgement (R175, R218, R248); a push's carries its number (R294). -/
def execWriteAcknowledgement (n : Nat) (s : State) : Host.Outcome State Fault Refusal :=
  .next (s.response n 4 fun s p l => match AMap.find s.accs l.acc with
    | none => s
    | some a => match a.kind with
      | .engineWrite => ((s.l1Drop a.core (a.fa / 128)).overAcc l.acc a).cmdDone l.acc a []
      | .push => match a.owner with
        | .thread t => (s.overAcc l.acc a).answer t a.gnum true (.ok [{ v := BitVec.ofNat 32 p.val }])
        | _ => s.overAcc l.acc a
      | _ => s.overAcc l.acc a)

/-- An atomic's old value (R175, R181, R196): an acquire at system scope also ends the validity of lines whose home lies
outside the stand (R244). -/
def execAtomicResponse (n : Nat) (s : State) : Host.Outcome State Fault Refusal :=
  .next (s.response n 5 fun s p l => match AMap.find s.accs l.acc with
    | none => s
    | some a =>
      let s := s.mergeResp a p
      let s := match a.aop with
        | some o => if o.scope = 7 ∧ (o.ord = 1 ∨ o.ord = 3) then s.dropForeign a.core else s
        | none => s
      s.giveLoad l.acc a (loadRegs a.len false ((leBytes a.len l.v).map fun b => (b, l.bad))) (if p.stamped then p.view else []))

/-! ### Failures -/

/-- An access ends without a response: its destination is poisoned, or a store counts as complete (R190, R191). -/
def State.loseAcc (s : State) (id : Nat) (a : Acc) (cause : Nat) : State :=
  match a.kind with
  | .engineRead => (s.jobFail a.owner cause a.va).overAcc id a |>.cmdDone id a []
  | .engineWrite => (s.jobFail a.owner cause a.va).overAcc id a |>.cmdDone id a []
  | .sync => ({ s with syncFail := s.syncFail ++ [(a.owner, a.fa, cause)] }.overAcc id a).resume a.owner
  | .load => let r := freshPoison a.dest.length s; r.1.giveLoad id a r.2
  | .atomic => let r := freshPoison a.dest.length s; r.1.giveLoad id a r.2
  | _ => s.overAcc id a

/-- A completion add that fails leaves the counter as it is and an entry for its record (R286). -/
def State.addFails (s : State) (a : Acc) : State :=
  match a.owner, a.kind with
  | .launch l, .atomic => match AMap.find s.launches l with
    | some x => s.invalidEntry l x x.region
    | none => s
  | _, _ => s

/-- The fourth redirect of an access, or a redirect that leaves it no way (R190, R207, R294). -/
def State.routeFail (s : State) (id : Nat) (a : Acc) : State :=
  match a.kind, a.owner with
  | .load, _ => (s.loseAcc id a 0x0F).reportTo a 0x0F
  | .atomic, _ => ((s.addFails a).loseAcc id a 0x0F).reportTo a 0x0F
  | .store, _ => (s.loseAcc id a 0x1A).reportTo a 0x1A
  | .push, .thread t => (s.overAcc id a).answer t a.gnum true (.bad 0x1A (BitVec.ofNat 64 a.va))
  | .qlen, .thread t => (s.overAcc id a).answer t a.gnum true (.bad 0x1A (BitVec.ofNat 64 a.va))
  | _, _ => s.loseAcc id a 0x0F

/-- No response in time (R191): a load's, an atomic's or a push's result is poisoned, and a load's or an atomic's thread has its tag
marked; a read that the part makes for an instruction has failed, as each rule that makes one says. -/
def State.expire (s : State) (id : Nat) (a : Acc) : State :=
  let s := s.lostEvent a
  let s := if a.stamped ∧ a.count ≠ 0 then s.skipNotice a.core.die (s.dieNo a.core.die) a.home a.count else s
  match a.kind, a.owner with
  | .push, .thread t => let r := freshPoison 1 (s.overAcc id a); r.1.answer t a.gnum true (.ok r.2)
  | .qlen, .thread t => let r := freshPoison 1 (s.overAcc id a); r.1.answer t a.gnum true (.ok r.2)
  | .load, .thread t => (s.onThread t a.gnum fun th => { th with marked := true }).loseAcc id a 0x11
  | .atomic, .thread t => (s.onThread t a.gnum fun th => { th with marked := true }).loseAcc id a 0x11
  | _, _ => (s.addFails a).loseAcc id a 0x11

/-! ### Sending again -/

/-- An access is sent again to a home, with a new count where it writes there (R242, R329); whether its line may stand in the L1 is
the new holder's (R12). -/
def State.retryAt (s : State) (id : Nat) (a : Acc) (home plen : Nat) : State :=
  let i := a.core.die
  let r := (s.matching i a.fa).find? fun r => r.origin == home && r.len == plen
  let cache := a.cache && r.any fun r => s.cacheable i a.fa r
  (s.setAccs [(id, { a with home, plen, cache })]).sendVec [id] true

/-- A redirect or a moved answer for one access (R190, R329). -/
def State.redirected (s : State) (p : Pkt) (id : Nat) : State :=
  match AMap.find s.accs id with
  | none => s
  | some a =>
    let a := { a with redirects := a.redirects + 1 }
    if 4 ≤ a.redirects then s.routeFail id a
    else if p.val ≠ 0xFFFF then s.retryAt id a p.val p.val2
    else match (if a.kind = .load ∨ a.kind = .sync ∨ a.kind = .engineRead then s.loadRoute a.core.die a.fa else s.homeRoute a.core.die a.fa) with
      | some r => s.retryAt id a r.origin r.len
      | none => s.routeFail id a

/-- A load that is to go to another holder waits for the earlier loads of its thread on its bytes: only their return puts the two in
order (R180, R255). -/
def State.redirectWaits (s : State) (n : Nat) : Bool :=
  match AMap.find s.net n with
  | none => false
  | some p => s.atHome p && p.answers.any fun l => match AMap.find s.accs l.acc with
    | none => false
    | some a => a.kind == .load && s.accs.any fun e =>
        decide (e.1 < l.acc) && e.2.kind == .load && e.2.owner == a.owner && e.2.gnum == a.gnum && e.2.meets a.va a.len

/-- A redirect or a moved answer on its way, and each lane's retry when it has come. -/
def State.redirectIn (s : State) (n kind : Nat) : State :=
  if s.redirectWaits n then s else s.response n kind fun s p l => s.redirected p l.acc

/-- A redirect reaches the requester (R190, R200, R329). -/
def execRedirect (n : Nat) (s : State) : Host.Outcome State Fault Refusal := .next (s.redirectIn n 6)
/-- A moved answer, handled as a redirect (R329). -/
def execMoved (n : Nat) (s : State) : Host.Outcome State Fault Refusal := .next (s.redirectIn n 7)

/-- A refusal (R290, R291, R294, R352): `val2` names why: 0 a full queue, 0x1C no queue, 0x0D a prefix that takes no such
write. A `qtry` gets 0xFFFF_FFFF; a `qpush` or `qspawn` stays and waits for a free entry. -/
def execRefused (n : Nat) (s : State) : Host.Outcome State Fault Refusal :=
  .next (s.response n 8 fun s p l => match AMap.find s.accs l.acc with
    | none => s
    | some a => match a.kind, a.owner with
      | .push, .thread t =>
        if p.val2 = 0 then
          if a.hint = 1 then (s.overAcc l.acc a).answer t a.gnum true (.ok [{ v := 0xFFFFFFFF }])
          else s.setAccs [(l.acc, { a with acked := true })]
        else (s.overAcc l.acc a).answer t a.gnum true (.bad p.val2 (BitVec.ofNat 64 a.va))
      | .qlen, .thread t => (s.overAcc l.acc a).answer t a.gnum true (.bad p.val2 (BitVec.ofNat 64 a.va))
      | .store, _ => (s.overAcc l.acc a).reportTo a 0x0D
      | .atomic, _ => let r := freshPoison a.dest.length (s.addFails a); (r.1.giveLoad l.acc a r.2).reportTo a 0x0D
      | _, _ => s.loseAcc l.acc a 0x0D)

/-- A poisoned response: the request was not performed, and the access is lost (R346). -/
def execPoisonedResponse (n : Nat) (s : State) : Host.Outcome State Fault Refusal :=
  .next (s.response n 9 fun s _ l => match AMap.find s.accs l.acc with
    | none => s
    | some a => s.expire l.acc a)

/-- A hold retry reaches the sender (R243). -/
def execHoldRetry (n : Nat) (s : State) : Host.Outcome State Fault Refusal :=
  .next (s.response n 14 fun s _ l => match AMap.find s.accs l.acc with
    | none => s
    | some a => s.setAccs [(l.acc, { a with resend := some (s.now a.core.die + 256) })])

/-- The accesses of a packet that was held back are sent again, with the same count and stamp (R243). -/
def execHoldRetryResend (n : Nat) (s : State) : Host.Outcome State Fault Refusal :=
  match AMap.find s.accs n with
  | none => .next s
  | some a => match a.resend with
    | none => .next s
    | some t =>
      if s.now a.core.die < t then .next s
      else
        let l := (s.accs.filter fun e => e.2.lead == a.lead && e.2.core == a.core && e.2.resend.isSome).map fun e => (e.1, { e.2 with resend := none })
        let s := s.setAccs l
        .next (s.send (s.packetOf l))

/-! ### The accesses of a glean leave (R175 stages 4 and 5, R176, R178) -/

/-- Two accesses travel in one vector packet: lanes of one glean and instruction, on one segment at one holder (R176). -/
def Acc.together (a b : Acc) : Bool :=
  let o (x : Acc) : Option (Nat × Nat × Nat × Nat) := x.aop.map fun o => (o.op, o.w, o.ord, o.scope)
  a.glean == b.glean && a.kind == b.kind && a.core == b.core && a.path == b.path && a.home == b.home && a.plen == b.plen && a.fa / 128 == b.fa / 128
    && prefixOf a.plen a.fa == prefixOf a.plen b.fa && a.len == b.len && a.hint == b.hint && a.cache == b.cache && o a == o b

/-- Accesses as packets, each with its lanes in their order. -/
def vectors : Nat → List (Nat × Acc) → List (List (Nat × Acc))
  | 0, _ => []
  | _, [] => []
  | k + 1, e :: l => (e :: l.filter fun x => e.2.together x.2) :: vectors k (l.filter fun x => !e.2.together x.2)

/-- A packet's accesses leave their core. A load whose line is present may be served from it or not, as the next choice says
(R178, log entry 10). -/
def State.leaveCore (s : State) (l : List (Nat × Acc)) : State :=
  match l with
  | [] => s
  | (_, a) :: _ =>
    let ids := l.map (·.1)
    match (if a.kind = .load ∧ a.cache then s.l1Hit a.core a.fa else none) with
    | none => s.sendVec ids
    | some x =>
      let s' : State := { s with l1Serve := s.l1Serve.drop 1 }
      if s.l1Serve.headD false then
        l.foldl (fun s e => s.giveLoad e.1 e.2 (loadRegs e.2.len e.2.signed (e.2.bytes (cellsAt (x.seg * 128) x.cells) x.pois))) s'
      else s'.sendVec ids

/-- The accesses formed by the lanes of a glean leave. -/
def State.coalesce (s : State) : State :=
  let l := s.accsOf s.stage
  (vectors l.length l).foldl State.leaveCore { s with stage := [] }

/-- An access that left its die has had no response for 4,194,304 cycles (R191). -/
def execAccessExpiry (n : Nat) (s : State) : Host.Outcome State Fault Refusal :=
  match AMap.find s.accs n with
  | none => .next s
  | some a =>
    if a.home = s.dieNo a.core.die || s.now a.core.die < a.born + 4194304 || (a.kind == .push && a.acked) then .next s
    else .next (s.expire n a)

end

end Sys2Proof.Machine
end

