-- ==== Sys2Proof/Machine/Launch.lean ====
section
/-! DEFINITION. Launch: what dispatch reads of a launch record, a kernel header, a wait word, a count word and a closure task's
environment, and what makes a record invalid (R165, R282-R287, R316, R401). -/

namespace Sys2Proof.Machine

open Sys2Proof

noncomputable section

/-! ### Dispatch's reads (R286, R316, R401) -/

/-- The part of a die that dispatch reads through, numbered as a core that runs no threads. -/
def agent (d : Nat) : CoreId := ⟨d, 64⟩

def State.setLaunch (s : State) (l : Nat) (x : Launch) : State := { s with launches := AMap.set s.launches l x }

def State.setView (s : State) (c : CoreId) (path : Nat) (v : View) : State :=
  s.setCore c { s.core c with views := AMap.set (s.core c).views path v }

inductive LRes where
  | ok (s : State) (bs : List (Byte × Bool))
  | bad (s : State)
  | poison (s : State)
  | wait (s : State)

/-- The tag in word 1 of a record (R284). -/
def launchTag (x : Launch) : BitVec 16 := BitVec.ofNat 16 (bits (x.words.getD 1 0).toNat 16 16)

/-- A missing page parks dispatch's access in the fault buffer until replay (R286, R316). -/
def State.launchPark (s : State) (l : Nat) (x : Launch) (va level kind : Nat) : State :=
  let c := agent x.die
  let k := s.core c
  if (k.fbuf.any fun p => p.owner == .launch l) || 256 ≤ k.fbuf.length then s
  else
    let p : Parked := { owner := .launch l, ctx := x.ctx, va, level, kind, tag := launchTag x, group := 0, at_ := s.now x.die }
    s.setCore c { k with fbuf := k.fbuf ++ [p] }

/-- An access of dispatch for a launch is parked. -/
def State.launchParked (s : State) (d l : Nat) : Bool := (s.core (agent d)).fbuf.any fun p => p.owner == .launch l

/-- Dispatch acts in the context of the record's region, with its privilege (R286, R301). -/
def State.launchSpace (s : State) (l : Nat) (x : Launch) : Space :=
  { owner := .launch l, core := agent x.die, ctx := x.ctx, sys := s.effSys treeDepth x.region, path := 0, tag := launchTag x }

/-- `k` pieces of at most 16 bytes at the homes of their locations. -/
def State.launchPieces (sp : Space) (l : Nat) (x : Launch) : Nat → State → Nat → Nat → LRes
  | 0, s, _, _ => .ok s []
  | k + 1, s, va, n =>
    if 2 ^ 55 ≤ va then .bad s
    else match s.xlate sp va 1 with
      | .miss s lv => .wait (s.launchPark l x va lv 0)
      | .fault _ => .bad s
      | .poison => .poison s
      | .wait s => .wait s
      | .ok s fa => match s.homeRoute x.die fa with
        | none => .bad s
        | some r => match s.syncRead sp r fa (Nat.min n 16) with
          | .fault _ => .bad s
          | .wait s => .wait s
          | .ok s bs => match State.launchPieces sp l x k s (va + 16) (n - 16) with
            | .ok s cs => .ok s (bs ++ cs)
            | r => r

/-- A read of dispatch: an acquire at system scope, whose counts join the launch's view. -/
def State.launchRead (s : State) (l : Nat) (x : Launch) (va n : Nat) : LRes :=
  if s.launchParked x.die l then .wait s
  else
    let done (s : State) : State := (s.setLaunch l { x with view := View.max x.view (s.view (agent x.die) 0) }).dropSync (.launch l)
    match State.launchPieces (s.launchSpace l x) l x ((n + 15) / 16) (s.setView (agent x.die) 0 x.view) va n with
    | .ok s bs => .ok (done s) bs
    | .bad s => .bad (done s)
    | .poison s => .poison (done s)
    | .wait s => .wait s

/-! ### Records and headers (R282, R284) -/

def lw (ws : List Word) (k : Nat) : Nat := (ws.getD k 0).toNat
def la (ws : List Word) (k : Nat) : Nat := lw ws k + 2 ^ 32 * lw ws (k + 1)

/-- The kind of a record: 0 launch, 1 closure task, 2 marker. -/
def recordKind (ws : List Word) : Nat := bits (lw ws 0) 16 8

/-- A record meets the limits of R284 that its words show. A launch or closure task with a header address of 0 names no header. -/
def recordOk (ws : List Word) : Bool :=
  bits (lw ws 0) 24 8 == 1 && decide (recordKind ws < 3) && bits (lw ws 0) 1 15 == 0 && decide (bits (lw ws 1) 8 8 < 8) && bits (lw ws 1) 0 8 == 0
    && (recordKind ws == 2 || (la ws 2 % 256 == 0 && la ws 2 != 0)) && decide (lw ws 7 ≤ 1024)
    && (recordKind ws != 2 || (lw ws 6 == 0 && lw ws 7 == 0))
    && la ws 8 % 4 == 0 && (lw ws 6 != 0xFFFFFFFF || la ws 8 != 0) && la ws 10 % 4 == 0 && la ws 12 % 4 == 0

/-- A queue's region, or an active or held region below it (R289, R307). -/
def State.admitted (s : State) (top r : Nat) : Bool :=
  match s.region r with
  | some x => x.st != 2 && s.below treeDepth top r
  | none => false

def State.tagOk (s : State) (r tag : Nat) : Bool :=
  let t := s.effTag treeDepth r
  decide (t.1 ≤ tag) && decide (tag ≤ t.2)

/-- A field of a kernel header. -/
def hdr (h : List Byte) (o n : Nat) : Nat := leNat ((h.drop o).take n)

/-- Threads per group of a launch (R284). -/
def Launch.threads (l : Launch) : Nat := if (l.words.getD 7 0).toNat = 0 then hdr l.header 14 2 else (l.words.getD 7 0).toNat

/-- The kernel header's limits (R282). -/
def headerOk (h : List Byte) : Bool :=
  let f := hdr h 6 2
  hdr h 0 4 == 0x594B0001 && hdr h 4 2 == 1 && f / 32 == 0 && bits f 3 2 != 3 && hdr h 8 4 % 4 == 0 && decide (hdr h 8 4 < 2 ^ 31)
    && decide (32 ≤ hdr h 12 2) && decide (hdr h 12 2 ≤ 256) && hdr h 12 2 % 16 == 0
    && decide (1 ≤ hdr h 14 2) && decide (hdr h 14 2 ≤ 1024) && decide (hdr h 16 1 ≤ 32) && hdr h 17 3 == 0
    && hdr h 20 4 % 64 == 0 && decide (hdr h 20 4 ≤ 4194304) && hdr h 24 4 % 8 == 0 && decide (hdr h 28 2 ≤ 256)
    && (hdr h 28 2 != 0 || hdr h 24 4 == 0) && hdr h 30 2 == 0 && hdr h 32 4 % 8 == 0 && ((h.drop 40).all (· == 0))

/-! ### Invalid records and completion (R285-R287, R292) -/

/-- Its entry leaves its queue (R292). -/
def State.freeEntry (s : State) (x : Launch) : State :=
  match x.q.bind fun q => (s.queue? q).map fun y => (q, y) with
  | some (q, y) => s.setQueue q { y with entries := y.entries.filter fun e => e.num != x.num }
  | none => s

/-- The launch is complete (R286 step 5). -/
def State.completeLaunch (s : State) (l : Nat) (x : Launch) : State := ((s.freeEntry x).setLaunch l { x with phase := 5 }).clamp

/-- A launch past step 1 found invalid (R285): its entry in the fault record, and its completion. -/
def State.invalidate (s : State) (l : Nat) (x : Launch) : State := (s.invalidEntry l x x.region).completeLaunch l { x with count := 0 }

/-- Dispatch consumes a poisoned word (R287, R292): the purge of the record's tag starts. -/
def State.launchPoison (s : State) (l : Nat) (x : Launch) : State :=
  (s.setLaunch l { x with dead := true }).clamp.startPurge x.die (launchTag x) 0x10 x.region none

/-- The environment a closure task starts with (R165), or none where the handle is stale. -/
def State.taskEnv (s : State) (die h : Nat) : State × Option (DWord × List Reg) :=
  if isFrame h then (s, none)
  else match s.homeOf die h with
    | .here c =>
      let e := s.slot c (hSlot h)
      (s, if liveIn e h then some (e.base, e.words) else none)
    | .far =>
      let n := s.freeCtr
      let s := { s with freeCtr := n + 1 }
      if bits h 5 10 = 0 ∧ bits h 48 16 ≠ 0 ∧ Config.remoteLive n (BitVec.ofNat 64 h) then
        (s, some ((farSlot n h).base, (farSlot n h).words))
      else (s, none)
    | .none => (s, none)

/-- The kernel header is read, and for a closure task with a group its environment: when the count proves to be zero, or when the
first group is bound (R165, R282). -/
def State.launchHeader (s : State) (l : Nat) (x : Launch) : State :=
  match s.launchRead l x (la x.words 2) 256 with
  | .wait s => s
  | .bad s => s.invalidate l x
  | .poison s => s.launchPoison l x
  | .ok s bs =>
    let x := (AMap.find s.launches l).getD x
    let h := bs.map (·.1)
    if bs.any (·.2) then s.launchPoison l x
    else if !headerOk h then s.invalidate l x
    else
      let x := { x with header := h, phase := 4 }
      if recordKind x.words = 1 ∧ x.count ≠ 0 then
        match s.taskEnv x.die (la x.words 4) with
        | (s, some e) => s.setLaunch l { x with env := some e }
        | (s, none) => (s.invalidEntry l x x.region).completeLaunch l { x with count := 0 }
      else s.setLaunch l x

end

end Sys2Proof.Machine
end

