-- ==== Sys2Proof/Machine/Group.lean ====
section
/-! DEFINITION. Group: binding, restoring, swapping out, pre-empting and retiring groups, and the sheaves of a core's active
and pending sets (R9, R10, R269-R281, R297, R303). -/

namespace Sys2Proof.Machine

open Sys2Proof

noncomputable section

/-! ### Sheaves (R10, R272) -/

/-- An access of a thread to its own core's vault: a short wait (R81). -/
def State.ownVault (s : State) (a : Acc) : Bool :=
  let b := vaultBase (s.dieNo a.core.die) a.core.core
  decide (b ≤ a.fa) && decide (a.fa < b + 2 ^ 22)

/-- A thread that may be swapped (R81): in long wait, parked, or stopped for good. R81 names no wait for a variable-latency result that
comes neither from memory nor from an engine or tile (a division, `fdiv`, FP64): the model takes it as a long wait (DESIGN CHOICE,
log entry 72). -/
def State.swappable (s : State) (t : ThreadId) (th : Thread) : Bool :=
  match th.status with
  | .ready => false
  | .waiting (.flags _) => false
  | .waiting .score =>
    let mine := s.accs.filter fun e => e.2.owner == .thread { t with sh := false }
    decide (mine = []) || mine.any fun e => !s.ownVault e.2
  | .exited => true
  | .draining => true
  | _ => true

def State.sheafThreads (s : State) (g : GroupId) (x : Group) (k : Nat) : List (ThreadId × Thread) :=
  s.threads.filter fun e => decide (gidOf e.1 = g) && sheafOf x e.1.t == k && liveThr e.2

/-- Cycle since which the longest-waiting ready thread of a sheaf has been ready. -/
def State.readySince (s : State) (g : GroupId) (x : Group) (k : Nat) : Option Nat :=
  ((s.sheafThreads g x k).filter fun e => e.2.status == .ready).foldl (fun m e => match m with
    | none => some e.2.since
    | some n => some (Nat.min n e.2.since)) none

/-- Pending sheaves of a partition with a ready thread, the longest waiting first. -/
def State.pendingReady (s : State) (p : PartId) : List (GroupId × Group × Nat × Nat) :=
  let l := (s.pendingOn ⟨p.die, p.core⟩).filter fun e => e.2.2 % 4 == p.part
  (l.filterMap fun e => (s.readySince e.1 e.2.1 e.2.2).map fun n => (e.1, e.2.1, e.2.2, n)).mergeSort fun a b => decide (a.2.2.2 ≤ b.2.2.2)

def State.setActive (s : State) (g : GroupId) (k : Nat) (b : Bool) : State :=
  let x := s.grp g
  s.setGrp g { x with sheaves := AMap.set x.sheaves k { AMap.getD x.sheaves k {} with active := b } }

/-- A pending sheaf with a ready thread enters its partition's active set when that has room (R272). -/
def execPendingSheafEntry (p : PartId) (s : State) : Host.Outcome State Fault Refusal :=
  match (s.pendingReady p).find? fun e => s.activeRoom p e.2.1.count with
  | some e => .next (s.setActive e.1 e.2.2.1 true)
  | none => .next s

/-- A partition exchanges an active sheaf, all of whose live threads are swap candidates, for the pending one that fits and
has waited longest (R272); the image that goes to the vault fits there (R10). -/
def execSheafExchange (p : PartId) (s : State) : Host.Outcome State Fault Refusal :=
  let act := s.activeOn p
  let used := (act.map fun e => 32 * e.2.1.count).sum
  let vault := s.vaultUsed ⟨p.die, p.core⟩
  let out := act.filter fun e => (s.sheafThreads e.1 e.2.1 e.2.2).all fun t => s.swappable t.1 t.2
  match (s.pendingReady p).findSome? fun e => (out.find? fun a => decide (used + 32 * e.2.1.count ≤ 32768 + 32 * a.2.1.count)
      && decide (vault + imageBytes a.2.1.count ≤ 4194304 + imageBytes e.2.1.count)).map fun a => (a, e) with
  | none => .next s
  | some (a, e) => .next ((s.setActive a.1 a.2.2 false).setActive e.1 e.2.2.1 true)

/-- Where each sheaf of a group goes at binding (R272): a sheaf whose lanes are all unused or exited takes no place. -/
def State.placeSheaves (s : State) (g : GroupId) : State :=
  let x := s.grp g
  (x.sheaves.map (·.1)).foldl (fun s k =>
    let room := s.sheafLive g x k && s.activeRoom ⟨g.die, g.core, k % 4⟩ x.count
    s.setActive g k room) s

/-! ### Conditions of a bind (R270) -/

/-- Sheaves of a group (R281). -/
def sheafCount (x : Group) : Nat := if x.shadow = 1 then (x.threads + 15) / 16 else (x.threads + 31) / 32

/-- The lowest place, a multiple of 256 bytes (R392), in a core's vault for an allocation, clear of other allocations and of the space of
retired groups (R280). The manual gives no placement: the lowest is the model's choice (DESIGN CHOICE, log entry 71). -/
def State.vaultPlace (s : State) (c : CoreId) (n : Nat) : Option Nat :=
  let l := ((s.onCore c).map fun e => (e.2.vaultOff, e.2.vaultBytes)) ++ (s.core c).left.map fun e => (e.2.2.1, e.2.2.2)
  let l := l.filter fun e => e.2 != 0
  let ends := 0 :: l.map fun e => (e.1 + e.2 + 255) / 256 * 256
  (ends.mergeSort fun a b => decide (a ≤ b)).find? fun o => decide (o + n ≤ 4194304) && l.all fun e => decide (o + n ≤ e.1) || decide (e.1 + e.2 ≤ o)

/-- How many of the sheaves `live` of a group would go to the pending set. -/
def State.toPending (s : State) (c : CoreId) (x : Group) (live : List Nat) : Nat :=
  ([0, 1, 2, 3].map fun p =>
    let mine := (live.filter fun k => k % 4 == p).length
    let a := s.activeOn ⟨c.die, c.core, p⟩
    let byWords := (32768 - (a.map fun e => 32 * e.2.1.count).sum) / (32 * x.count)
    mine - Nat.min (8 - a.length) byWords).sum

/-- The first row of R270 that a bind of `x` at a slot does not meet, counted from 1; 0 where all are met. `home`: the core
that holds its matrix unit, or that it must return to; `live`: its sheaves with live threads. -/
def State.unmet (s : State) (c : CoreId) (slot : Nat) (x : Group) (live : List Nat) (home : Option CoreId) (partner : Bool) : Nat :=
  let pend := s.toPending c x live
  let bytes := x.vaultBytes + (if x.shadow = 2 then 131072 else 0) + pend * imageBytes x.count
  if (AMap.find s.groups ⟨c.die, c.core, slot⟩).isSome then 1
  else if 32 < ((s.onCore c).map fun e => e.2.nbar).sum + x.nbar then 2
  else if 4194304 < s.vaultUsed c + bytes ∨ (s.vaultPlace c x.vaultBytes).isNone then 3
  else if 96 < (s.pendingOn c).length + pend then 4
  else if home.any (· != c) then 5
  else if x.shadow = 2 ∧ !partner then 6
  else 0

/-! ### Fresh groups (R77, R263, R270, R272, R281, R293) -/

/-- A launch's group before it is bound; its shadow mode and its privilege are those of this moment (R281, R282, R301). -/
def State.newGroup (s : State) (id : Nat) (l : Launch) (num : BitVec 64) : Group :=
  let f := hdr l.header 6 2
  { num, region := l.region, ctx := l.ctx, sys := s.effSys treeDepth l.region, tag := BitVec.ofNat 16 (bits (l.words.getD 1 0).toNat 16 16)
    header := leNat ((leBytes 4 (l.words.getD 2 0).toNat) ++ leBytes 4 (l.words.getD 3 0).toNat)
    threads := l.threads, count := hdr l.header 12 2, strict := bit f 0, inttrap := bit f 1, sattrap := bit f 2
    shadow := Nat.max (bits f 3 2) (s.effShadow treeDepth l.region), safeOff := hdr l.header 24 4, safeCount := hdr l.header 28 2
    handOff := hdr l.header 32 4, nbar := hdr l.header 16 1, vaultBytes := hdr l.header 20 4, launch := some id }

/-- A thread as dispatch creates it (R77, R165). -/
def newThread (l : Launch) (x : Group) (now : Nat) : Thread :=
  let regs : List Reg := match l.env with
    | some e => e.2
    | none => [{ v := l.words.getD 4 0 }, { v := l.words.getD 5 0 }]
  { pc := match l.env with
      | some e => e.1
      | none => BitVec.ofNat 64 (x.header + hdr l.header 8 4)
    regs := regs.zipIdx.map fun r => (r.2, r.1), tag := x.tag, status := .ready, notBefore := now, since := now }

/-- The views of a core's paths take a launch's (R293). -/
def State.mergeAll (s : State) (c : CoreId) (v : View) : State := [0, 1, 2, 3, 4, 5].foldl (fun s p => s.merge c p v) s

/-- The barriers of a group at a slot. -/
def State.setBars (s : State) (g : GroupId) (l : List (Nat × Bar)) : State := l.foldl (fun s b => s.setBar g b.1 b.2) s

/-- A group is bound at a slot. Its vault allocation's address lies in near space, at a multiple of 256 (R172, R392), and is a free value (log entry 26). -/
def State.bindAt (s : State) (g : GroupId) (l : Launch) (x : Group) : State :=
  let c : CoreId := ⟨g.die, g.core⟩
  let now := s.now g.die
  let (v, s) := s.fresh
  let x := { x with vbase := v &&& 0xFFFFFF00, vaultOff := (s.vaultPlace c x.vaultBytes).getD 0, bound := now
                    sheaves := (List.range (sheafCount x)).map fun k => (k, {}) }
  let s := s.setGrp g x
  let th := newThread l x now
  let s := (List.range x.threads).foldl (fun s t =>
    let s := s.setThr ⟨g.die, g.core, g.slot, t, false⟩ th
    if x.shadow = 1 then s.setThr ⟨g.die, g.core, g.slot, t, true⟩ th else s) s
  let s := s.setBars g ((List.range x.nbar).map fun n => (n, { e := x.threads }))
  let s := (s.placeSheaves g).mergeAll c l.view
  if x.shadow = 1 ∧ 512 < x.threads then s.groupFault g 0x02 x.tag 0 else s

def State.setBind (s : State) (d n : Nat) (b : Bind) : State := s.setDie d { s.die d with slots := AMap.set (s.die d).slots n b }
def State.bind (s : State) (d n : Nat) : Bind := AMap.getD (s.die d).slots n {}

/-- A record is refused: the first unmet row of R270 stands in its status (R296). -/
def State.refuse (s : State) (d n row : Nat) : State := s.setBind d n { s.bind d n with status := 2 + 256 * row }

/-- Dispatch clears valid when it sets status 1 (R296). -/
def State.bound (s : State) (d n : Nat) : State := s.setBind d n { s.bind d n with valid := false, status := 1 }

/-- A core of another cluster (R270). -/
def otherCluster (a b : Nat) : Bool := a / 8 != b / 8

/-- The first record of a block pair that a record belongs to, or the record itself (R296). -/
def State.firstRec (s : State) (d n : Nat) : Nat :=
  if n ≠ 0 ∧ (s.bind d (n - 1)).valid ∧ (s.bind d (n - 1)).partner then n - 1 else n

/-- A record that dispatch may act on: valid, fresh or restoring as asked, not bound, and its region's domain has not stopped (R306). -/
def State.actable (s : State) (r : Bind) (restore : Bool) : Bool := r.valid && r.restore == restore && r.status % 256 != 1 && !s.halted r.region

/-- The valid bit of a record, and of its partner's, is cleared: its group is not to be bound. -/
def State.cancelBind (s : State) (d n : Nat) : State :=
  let r := s.bind d n
  let s := s.setBind d n { r with valid := false }
  if r.partner then s.setBind d (n + 1) { s.bind d (n + 1) with valid := false } else s

/-- Dispatch binds a launch's group at the slot that a record names, or refuses the record (R270, R296). The second copy's context block
lies directly after the first's (R281). -/
def State.bindGroup (s : State) (die rec : Nat) (l : Launch) : State :=
  let r := s.bind die rec
  let x := { s.newGroup r.launch l r.num with block := r.block }
  let c : CoreId := ⟨die, r.core⟩
  let r2 := s.bind die (rec + 1)
  let c2 : CoreId := ⟨die, r2.core⟩
  let pair := r.partner && r2.valid && otherCluster r.core r2.core
  let live := List.range (sheafCount x)
  let row := match s.unmet c r.slot x live none pair with
    | 0 => if x.shadow = 2 then (match s.unmet c2 r2.slot x live none true with | 0 => 0 | _ => 6) else 0
    | n => n
  if row ≠ 0 then s.refuse die rec row
  else
    let g : GroupId := ⟨die, r.core, r.slot⟩
    let h : GroupId := ⟨die, r2.core, r2.slot⟩
    let l' := { l with live := l.live + 1, gnums := l.gnums ++ [r.num] ++ if x.shadow = 2 then [r2.num] else [] }
    let s := s.setLaunch r.launch l'
    if x.shadow = 2 then
      let s := s.bindAt g l { x with twin := some h }
      let s := s.bindAt h l { x with twin := some g, isShadow := true, num := r2.num, block := r.block + blockSize x, vbase := 0 }
      let s := s.setGrp h { s.grp h with vbase := (s.grp g).vbase }
      (s.bound die rec).bound die (rec + 1)
    else
      let s := (s.bindAt g l x).bound die rec
      if r.partner then s.setBind die (rec + 1) { r2 with valid := false } else s

/-- Dispatch acts on a bind record of a fresh group: for the launch's first, it reads the kernel header first (R282); then it binds or
refuses (R270). -/
def execGroupBind (die rec : Nat) (s : State) : Host.Outcome State Fault Refusal :=
  let n := s.firstRec die rec
  let r := s.bind die n
  if !s.actable r false then .next s
  else match AMap.find s.launches r.launch with
    | none => .next (s.cancelBind die n)
    | some l =>
      if l.dead || l.phase != 4 then .next (s.cancelBind die n)
      else
        let s := if l.header = [] then s.launchHeader r.launch l else s
        match AMap.find s.launches r.launch with
        | none => .next s
        | some l => if l.header = [] || l.dead || l.phase != 4 then .next s else .next (s.bindGroup die n l)

/-! ### Going out (R269, R273, R274, R277, R278) -/

/-- A ragged wait of the group's unit ends as if its counter had closed (R228). -/
def State.endRagged (s : State) (c : CoreId) (num : BitVec 64) : State :=
  (partsOf c).foldl (fun s p =>
    let u := (s.part p).unit
    let hit := u.q.filter fun k => k.gnum == num && k.fn == 1 && k.waiting && !k.done
    hit.foldl (fun s k => (s.setCmd (.unit p k.num) { k with closed := true }).go (.unit p k.num)) s) s

/-- Nothing of the group that is under way touches its vault allocation: the copy of that can be taken (log entry 27). -/
def State.quiet (s : State) (x : Group) : Bool :=
  let lo := x.vbase.toNat
  let mine (o : Owner) (k : Cmd) : Bool := k.gnum == x.num && !(o == .unit ⟨0, 0, 0⟩ 0 && k.waiting && k.fn == 1) && (match k.ranges o with
    | none => true
    | some l => l.any fun r => decide (r.2.1 < lo + x.vaultBytes) && decide (lo < r.2.1 + r.2.2))
  let eng (e : EngineId) (y : Engine) : Bool := (y.q ++ y.fly).any (mine (.engine e 0))
  !(s.accs.any fun e => e.2.gnum == x.num && decide (lo ≤ e.2.va) && decide (e.2.va < lo + x.vaultBytes))
    && !(s.copies.any fun e => eng (.copy e.1.die e.1.core) e.2)
    && !(s.clusters.any fun e => eng (.chain e.1.1 e.1.2) e.2.chain || eng (.psum e.1.1 e.1.2) e.2.psum || eng (.walk e.1.1 e.1.2) e.2.walk)
    && !(s.parts.any fun e => e.2.unit.q.any (mine (.unit ⟨0, 0, 0⟩ 0)))

/-- A barrier's word of the block (R273). -/
def barWord (b : Bar) : Nat := b.e % 2048 + b.c % 2048 * 2 ^ 11 + b.lv % 2048 * 2 ^ 22 + b.g.toNat * 2 ^ 33
def barOf (v : Nat) : Bar := { e := bits v 0 11, c := bits v 11 11, lv := bits v 22 11, g := BitVec.ofNat 16 (bits v 33 16) }

/-- The first 512 bytes of a group's block. -/
def State.blockHeader (s : State) (g : GroupId) (kind : Nat) : List Byte :=
  let x := s.grp g
  leBytes 4 kind ++ leBytes 4 (s.cno ⟨g.die, g.core⟩) ++ leBytes 8 (gnoOf x.num) ++
    (List.range 32).flatMap (fun n => leBytes 8 (if n < x.nbar then barWord (s.bar g n) else 0)) ++ List.replicate 240 0

/-- The bytes of thread records: the manual names what they hold and gives it no layout, so they are free values (log entry 27). -/
def freeBytes : Nat → State → State × List Byte
  | 0, s => (s, [])
  | k + 1, s =>
    let r := freeBytes k s.fresh.2
    (r.1, leBytes 8 s.fresh.1.toNat ++ r.2)

/-- A thread's register image. -/
def imageOf (count : Nat) (th : Thread) : List (Byte × Bool) :=
  (List.range count).flatMap fun n => (leBytes 4 (th.reg n).v.toNat).map fun b => (b, (th.reg n).p)

/-- The threads of a group that have an image: every primary that is not saved (R273, R276, R277). -/
def State.imaged (s : State) (g : GroupId) (x : Group) : List Nat :=
  (List.range x.threads).filter fun t => (s.thr ⟨g.die, g.core, g.slot, t, false⟩).status != .saved

/-- Data cut at boundaries of 128 bytes. -/
def cutBlock : Nat → Nat → List (Byte × Bool) → List (Nat × List (Byte × Bool))
  | 0, _, _ => []
  | k + 1, va, bs => if bs = [] then [] else
      let n := 128 - va % 128
      (va, bs.take n) :: cutBlock k (va + n) (bs.drop n)
def blockData (va : Nat) (bs : List (Byte × Bool)) : List (Nat × List (Byte × Bool)) := cutBlock (bs.length / 128 + 2) va bs

/-- Why the block cannot be written or read now: a fault ends the group (R273; for a cause other than protection and for reads DESIGN
CHOICE, log entry 27), a page that is not present parks. -/
def State.blockStop (s : State) (g : GroupId) (kind : Nat) : JStop → State
  | .fault c va => s.groupFault g c (s.grp g).tag (BitVec.ofNat 64 va)
  | .poison => (s.endGroup g).startPurge g.die (s.grp g).tag 0x10 (s.grp g).region none
  | .park va level =>
    let k := s.core ⟨g.die, g.core⟩
    let x := s.grp g
    let p : Parked := { owner := .block g, ctx := x.ctx, va, level, kind, tag := x.tag, group := x.num, at_ := s.now g.die }
    if 256 ≤ k.fbuf.length then s else s.setCore ⟨g.die, g.core⟩ { k with fbuf := k.fbuf ++ [p] }
  | .wait => s

/-- The block's writes leave on the lsu path, or none of them (R273). -/
def State.blockSend (s : State) (g : GroupId) (l : List (Nat × List (Byte × Bool))) : State × Bool :=
  let x := s.grp g
  let c : CoreId := ⟨g.die, g.core⟩
  match State.jobPlan (s.blockSpace g x) 2 (l.map (·.1)) s with
  | (s, some st, _) => (s.blockStop g 1 st, false)
  | (s, none, fs) => match (l.zip fs).find? fun e => (s.homeRoute g.die e.2).isNone with
    | some e => (s.blockStop g 1 (.fault 0x1A e.1.1), false)
    | none =>
      ((l.zip fs).foldl (fun s e => match s.homeRoute g.die e.2 with
        | none => s
        | some r =>
          let cells := cellsAt e.2 (e.1.2.map (·.1))
          let pois := wordsOf ((e.1.2.zipIdx.filter fun b => b.1.2).map fun b => e.2 + b.2)
          let a : Acc := { owner := .block g, core := c, path := 0, kind := .store, va := e.1.1, fa := e.2
                           len := e.1.2.length, cells, pois, tag := x.tag, gnum := x.num }
          ((s.l1Store c cells pois).sendAcc a r).1) s, true)

/-- The group's block is not waiting for a page. -/
def State.blockParked (s : State) (g : GroupId) : Bool := (s.core ⟨g.die, g.core⟩).fbuf.any fun p => p.owner == .block g

/-- The next part of a group's block that can be written is written (R274, R277): every record and image once no register drains (R99),
then the vault copy. -/
def State.leaveOn (s : State) (g : GroupId) : State :=
  let x := s.grp g
  match x.leaving with
  | none => s
  | some kind =>
    if s.blockParked g then s
    else if x.leaveStep = 0 then
      if s.threads.any fun e => decide (gidOf e.1 = g) && e.2.status == .draining then s
      else
        let r := freeBytes (64 * x.threads) s
        let images := (s.imaged g x).flatMap fun t => blockData (imageAt x t 0) (imageOf x.count (s.thr ⟨g.die, g.core, g.slot, t, false⟩))
        let w := r.1.blockSend g (blockData x.block (plain (s.blockHeader g kind ++ r.2)) ++ images)
        if w.2 then w.1.setGrp g { w.1.grp g with leaveStep := 1 } else w.1
    else if x.leaveStep = 1 then
      if x.vaultBytes ≠ 0 && !s.quiet x then s
      else
        let w := s.blockSend g (blockData (vaultCopyAt x) (s.bytesAt (vaultBase (s.dieNo g.die) g.core + x.vaultOff) x.vaultBytes))
        if w.2 then w.1.setGrp g { w.1.grp g with leaveStep := 2 } else w.1
    else s

/-- Every write to the block has been acknowledged. -/
def State.away (s : State) (g : GroupId) : Bool :=
  (s.grp g).leaving.isSome && (s.grp g).leaveStep == 2 && !(s.accs.any fun e => e.2.owner == .block g)

/-- A thread as its record and image keep it: a saved thread's registers are discarded (R276). -/
def outThread (th : Thread) : Thread := if th.status = .saved then { th with regs := [] } else th

/-- One copy has left its slot: that, its barriers and its vault space are free (R274). -/
def State.depart (s : State) (g : GroupId) : State :=
  let x := s.grp g
  let c : CoreId := ⟨g.die, g.core⟩
  let k := s.core c
  let mine := s.threads.filter fun e => decide (gidOf e.1 = g)
  let x' : Group := { x with st := .out, cycles := x.cycles + (s.now g.die - x.bound), leaving := none, leaveStep := 0 }
  let o : OutGroup := { g := x', thr := mine.map fun e => ((e.1.t, e.1.sh), outThread e.2), kind := x.leaving.getD 1, was := g, views := k.views }
  let s := s.setCore c { k with bars := k.bars.filter fun b => b.1.1 != g.slot }
  { s with groups := AMap.del s.groups g, threads := s.threads.filter (fun e => !decide (gidOf e.1 = g)), outs := s.outs ++ [o] }

/-- The copies of a group. -/
def State.pairOf (s : State) (g : GroupId) : List GroupId :=
  match (s.grp g).twin with
  | some h => [g, h]
  | none => [g]

/-- A pre-emption that was asked for a starved candidate has completed: the group is out, or has ended (R304). -/
def State.askedGone (s : State) (d : Nat) (nums : List (BitVec 64)) : State :=
  let x := s.die d
  if x.starving.any fun e => nums.contains e.2 then s.setDie d { x with starving := x.starving.filter fun e => !nums.contains e.2 } else s

/-- A group that is going out goes on doing so; of a block pair, both copies leave together (R281). A starved candidate's pre-emption has
then completed (R304). -/
def State.goOut (s : State) (g : GroupId) : State :=
  let s := s.leaveOn g
  let both := s.pairOf g
  if both.all s.away then
    (both.foldl State.depart s).askedGone g.die (both.map fun g => (s.grp g).num)
  else s

/-- A thread of a group that goes out: what its pipelines hold is in place (R40), and it issues nothing. -/
def Thread.piped (th : Thread) : Thread :=
  let th := th.pend.foldl Thread.land { th with pend := [] }
  th.vpend.foldl Thread.land { th with vpend := [], busy := th.busy.filter fun d => !(th.vpend.any fun p => (Pend.busy p).contains d) }

/-- One copy starts to go out (R274, R277, R278): its ragged waits end, its parked accesses leave the fault buffer, its retry points are
discarded (R361). -/
def State.startOut (s : State) (g : GroupId) (kind : Nat) : State :=
  let c : CoreId := ⟨g.die, g.core⟩
  let s := s.endRagged c (s.grp g).num
  let k := s.core c
  let s := s.setCore c { k with retry := k.retry.filter (fun r => gidOf r.t != g), fbuf := k.fbuf.filter fun p => match p.owner with
    | .thread t => gidOf t != g
    | _ => true }
  { s.setGrp g { s.grp g with leaving := some kind, leaveStep := 0 } with
    threads := s.threads.map fun e => if gidOf e.1 = g then (e.1, e.2.piped) else e
    glean := s.glean.filter fun t => gidOf t != g }

/-- A group starts to go out; of a block pair, both copies (R281). -/
def State.swapOut (s : State) (g : GroupId) (kind : Nat) : State :=
  let both := s.pairOf g
  both.foldl State.goOut (both.foldl (fun s g => s.startOut g kind) s)

/-- Every live thread satisfies a condition. -/
def State.allLive (s : State) (g : GroupId) (f : ThreadId → Thread → Bool) : Bool :=
  s.threads.all fun e => !decide (gidOf e.1 = g) || !liveThr e.2 || f e.1 e.2

/-- Swap-out on a fault (R274). -/
def execFaultSwapOut (g : GroupId) (s : State) : Host.Outcome State Fault Refusal :=
  let x := s.grp g
  let now := s.now g.die
  let old := (s.core ⟨g.die, g.core⟩).fbuf.any fun p => (match p.owner with | .thread t => decide (gidOf t = g) | _ => false) && decide (p.at_ + 2048 ≤ now)
  if (AMap.find s.groups g).isSome ∧ (x.st = .resident ∨ x.st = .preempting) ∧ old
      ∧ x.leaving = none ∧ s.allLive g (fun t th => th.status == .parked || (s.swappable t th && th.status != .stopped)) then
    .next (s.swapOut g 1)
  else .next s

/-- Pre-emption of a resident group is requested (R276): a ragged wait ends; an `mwait` ends at its next look (R103). -/
def State.requestPre (s : State) (g : GroupId) : State :=
  let one (s : State) (g : GroupId) : State :=
    let x := s.grp g
    if (AMap.find s.groups g).isSome ∧ x.st = .resident ∧ x.leaving = none then
      (s.setGrp g { x with st := .preempting, preAt := s.now g.die }).endRagged ⟨g.die, g.core⟩ x.num
    else s
  match (s.grp g).twin with
  | some h => one (one s g) h
  | none => one s g

/-- A region, or an ancestor, has a budget of its own and has consumed it (R303); the budget is read only with its override bit set
(R300). -/
def State.exhausted (s : State) : Nat → Nat → Bool
  | 0, _ => false
  | k + 1, r => match s.region r with
    | none => false
    | some x => (x.ovr.getLsbD 1 && x.budget != 0 && decide (x.budget ≤ x.consumed)) || (x.parent != 0 && s.exhausted k x.parent)

/-- The resident groups of exhausted regions are asked to leave (R303). -/
def State.exhaustion (s : State) : State :=
  (s.groups.filter fun e => e.2.st == .resident && e.2.leaving.isNone && s.exhausted treeDepth e.2.region).foldl (fun s e => s.requestPre e.1) s

/-- The management core requests pre-emption of a group for its region's budget or for a starved candidate (R276, R303, R304). -/
def execPreemptionRequest (g : GroupId) (s : State) : Host.Outcome State Fault Refusal :=
  if s.exhausted treeDepth (s.grp g).region || ((s.die g.die).starving.any fun e => e.2 == (s.grp g).num) then .next (s.requestPre g) else .next s

/-- Pre-emption completes when every live thread is saved, parked or in long wait (R277). -/
def execPreemptionComplete (g : GroupId) (s : State) : Host.Outcome State Fault Refusal :=
  let x := s.grp g
  let both := s.pairOf g
  if (AMap.find s.groups g).isSome ∧ x.st = .preempting ∧ x.leaving = none
      ∧ both.all (fun g => s.allLive g fun t th => s.swappable t th && th.status != .stopped && (match th.status with | .mwait _ => false | _ => true)) then
    .next (s.swapOut g 2)
  else .next s

/-- Pre-emption that has not completed within the limit falls back to a swap (R278). -/
def execPreemptionFallback (g : GroupId) (s : State) : Host.Outcome State Fault Refusal :=
  let x := s.grp g
  if (AMap.find s.groups g).isSome ∧ x.st = .preempting ∧ x.leaving = none ∧ x.preAt + (s.die g.die).preLimit ≤ s.now g.die then
    .next (s.swapOut g 3)
  else .next s

/-! ### Coming back (R208, R275, R277) -/

/-- A thread as it stands after a restore (R275, R277): a saved thread enters its restore routine with every register 0; a parked access
is issued again, and so is a push its queue had not accepted (R291); an `mwait` looks at its word again (R103); else the thread is ready
or waits as its record states. -/
def backThread (now : Nat) (th : Thread) : Thread :=
  let th := { th with notBefore := now, since := now }
  match th.status with
  | .saved => { th with status := .ready, regs := [], restoring := true, saving := none }
  | .parked => { th with status := .ready }
  | .waiting (.push _) => { th with status := .ready }
  | .waiting (.drain []) => { th with status := .ready }
  | .mwait m => { th with status := .mwait { m with hit := true, near := true } }
  | _ => th

/-- Accesses and commands of a group still under way; a push that waits for a free entry is not (R208, R291). -/
def State.underWay (s : State) (num : BitVec 64) : Bool :=
  (s.accs.any fun e => e.2.gnum == num && !(e.2.kind == .push && e.2.acked))
    || (s.copies.any fun e => (e.2.q ++ e.2.fly).any fun k => k.gnum == num)
    || (s.clusters.any fun e => (e.2.chain.q ++ e.2.chain.fly ++ e.2.psum.q ++ e.2.psum.fly ++ e.2.walk.q ++ e.2.walk.fly).any fun k => k.gnum == num)

/-- Some transfer of a group is still under way (R280). -/
def State.spaceBusy (s : State) (num : BitVec 64) : Bool :=
  s.underWay num || s.parts.any fun e => e.2.unit.q.any fun k => k.gnum == num

/-- The core a group that is out must return to, if any (R221, R273, R278). -/
def State.homeFor (s : State) (o : OutGroup) : Option CoreId :=
  if o.kind = 3 then some ⟨o.was.die, o.was.core⟩
  else (s.parts.find? fun e => e.2.unit.bound == some o.g.num).map fun e => ⟨e.1.die, e.1.core⟩

/-- The sheaves of a group that is out which hold a live thread. -/
def OutGroup.sheaves (o : OutGroup) : List Nat := ((o.thr.filter fun e => liveThr e.2).map fun e => sheafOf o.g e.1.1).dedup

/-- The views of a core's paths are merged into those of another core (R240). -/
def State.mergeViews (s : State) (c : CoreId) (vs : AMap Nat View) : State := vs.foldl (fun s e => s.merge c e.1 e.2) s

/-- One copy takes a slot and starts to be restored (R275). -/
def State.startBack (s : State) (o : OutGroup) (g : GroupId) : State :=
  let c : CoreId := ⟨g.die, g.core⟩
  let x : Group := { o.g with
    st := .restoring, bound := s.now g.die, vaultOff := (s.vaultPlace c o.g.vaultBytes).getD 0, from_ := some ⟨o.was.die, o.was.core⟩
    sheaves := o.g.sheaves.map fun e => (e.1, { e.2 with active := false }) }
  let s : State := { s with outs := s.outs.filter (fun p => p.g.num != x.num)
                            accs := s.accs.filter fun e => !(e.2.gnum == x.num && e.2.kind == AccKind.push && e.2.acked) }
  let s := s.setGrp g x
  let s := o.thr.foldl (fun s e => s.setThr ⟨g.die, g.core, g.slot, e.1.1, e.1.2⟩ e.2) s
  let move (t : ThreadId) : ThreadId := if gidOf t = o.was then ⟨g.die, g.core, g.slot, t.t, t.sh⟩ else t
  let s : State := { s with cores := s.cores.map fun e => (e.1, { e.2 with env := e.2.env.map fun v => (v.1, { v.2 with owner := if v.2.region = x.region then v.2.owner.map move else v.2.owner }) }) }
  s.mergeViews c o.views

/-- Bytes of the block, read on the lsu path. -/
def State.blockRead (sp : Space) : List (Nat × Nat) → State → State × Option JStop × List (Byte × Bool)
  | [], s => (s, none, [])
  | (va, n) :: l, s =>
    if 2 ^ 55 ≤ va then (s, some (.fault 0x0D va), [])
    else match s.xlate sp va 1 with
      | .ok s fa => match s.loadRoute sp.core.die fa with
        | none => (s, some (.fault 0x0E va), [])
        | some r => match s.syncRead sp r fa n with
          | .ok s bs => match State.blockRead sp l s with
            | (s, none, cs) => (s, none, bs ++ cs)
            | r => r
          | .fault c => (s, some (.fault c va), [])
          | .wait s => (s, some .wait, [])
      | .miss s lv => (s, some (.park va lv), [])
      | .fault c => (s, some (.fault c va), [])
      | .poison => (s, some .poison, [])
      | .wait s => (s, some .wait, [])

/-- The `n` bytes at place `o` of a list. -/
def slice (bs : List (Byte × Bool)) (o n : Nat) : List (Byte × Bool) := (bs.drop o).take n

/-- A copy whose block has been read is resident (R275): barriers, vault allocation, images; its sheaves are placed (R272). A thread whose
last load has come back in the meantime has exited. -/
def State.restored (s : State) (g : GroupId) (bs : List (Byte × Bool)) : State :=
  let x := s.grp g
  let c : CoreId := ⟨g.die, g.core⟩
  let now := s.now g.die
  let num (l : List (Byte × Bool)) : Nat := leNat (l.map (·.1))
  let im := s.imaged g x
  let s := s.setBars g ((List.range x.nbar).map fun n => (n, barOf (num (slice bs (8 * n) 8))))
  let s := (im.zipIdx).foldl (fun s e =>
    let t : ThreadId := ⟨g.die, g.core, g.slot, e.1, false⟩
    let at_ (n : Nat) : List (Byte × Bool) := slice bs (256 + 4 * x.count * e.2 + 4 * n) 4
    s.setThr t { s.thr t with regs := (List.range x.count).map fun n => (n, { v := BitVec.ofNat 32 (num (at_ n)), p := (at_ n).any (·.2) }) }) s
  let base := vaultBase (s.dieNo g.die) g.core + x.vaultOff
  let v := (slice bs (256 + 4 * x.count * im.length) x.vaultBytes).zipIdx
  let cells := v.map fun b => (base + b.2, b.1.1)
  let s : State := { s with mem := Memory.writeAll s.mem cells
                            poison := poisonAfter s.poison cells (wordsOf ((v.filter fun b => b.1.2).map fun b => base + b.2)) }
  let s : State := { s with threads := s.threads.map fun e => if gidOf e.1 = g then (e.1, backThread now e.2) else e }
  let s := match x.from_ with
    | some k => s.mergeViews c (s.core k).views
    | none => s
  let s := (s.setGrp g { x with st := .resident, from_ := none }).placeSheaves g
  let s := s.dropSync (.block g)
  (List.range x.threads).foldl (fun s t => s.drainExit ⟨g.die, g.core, g.slot, t, false⟩ x.num) s

/-- A group that is being restored: once everything it issued has completed (R208), its block is read. -/
def State.comeBack (s : State) (g : GroupId) : State :=
  let x := s.grp g
  if x.st ≠ .restoring || s.blockParked g || s.underWay x.num then s
  else
    let l := piecesOf (x.block + 16) 256 ++ (s.imaged g x).flatMap (fun t => piecesOf (imageAt x t 0) (4 * x.count)) ++ piecesOf (vaultCopyAt x) x.vaultBytes
    match State.blockRead (s.blockSpace g x) l s with
    | (s, some st, _) => s.blockStop g 0 st
    | (s, none, bs) => s.restored g bs

/-- A ragged wait ends when its group is parked as a whole (R228): every live thread stands parked, saved or at a barrier (R276). -/
def State.parkedWhole (s : State) (g : GroupId) : State :=
  let all := s.allLive g fun _ th => match th.status with
    | .parked => true
    | .saved => true
    | .barrier _ => true
    | _ => false
  if all ∧ (s.threads.any fun e => decide (gidOf e.1 = g) && liveThr e.2) then s.endRagged ⟨g.die, g.core⟩ (s.grp g).num else s

/-- Vault space of retired groups is free once no transfer of theirs is under way (R280). -/
def State.freeLeft (s : State) : State :=
  (s.cores.filter fun e => e.2.left != []).foldl (fun s e => s.setCore e.1 { e.2 with left := e.2.left.filter fun x => s.spaceBusy x.1 }) s

/-- What groups of their own do as cycles pass: they go out and come back, and retired ones free their space. -/
def State.driveGroups (s : State) : State := ((s.groups.map (·.1)).foldl (fun s g => ((s.goOut g).comeBack g).parkedWhole g) s).freeLeft

/-- A restore binds a group from its context block, or is refused (R270, R275, R296). -/
def execGroupRestore (die rec : Nat) (s : State) : Host.Outcome State Fault Refusal :=
  let n := s.firstRec die rec
  let r := s.bind die n
  if !s.actable r true then .next s
  else match s.outs.find? fun o => o.g.num == r.num with
    | none => .next (s.cancelBind die n)
    | some o =>
      let c : CoreId := ⟨die, r.core⟩
      let r2 := s.bind die (n + 1)
      let c2 : CoreId := ⟨die, r2.core⟩
      let o2 := if o.g.shadow = 2 then s.outs.find? fun p => p.g.num == r2.num else none
      let pair := r.partner && r2.valid && o2.isSome && otherCluster r.core r2.core
      let row := match s.unmet c r.slot o.g o.sheaves (s.homeFor o) pair with
        | 0 => match o2 with
          | some p => (match s.unmet c2 r2.slot p.g p.sheaves (s.homeFor p) true with | 0 => 0 | _ => 6)
          | none => 0
        | k => k
      if row ≠ 0 then .next (s.refuse die n row)
      else
        let g : GroupId := ⟨die, r.core, r.slot⟩
        match o2 with
        | none => .next (((s.startBack o g).bound die n).comeBack g)
        | some p =>
          let h : GroupId := ⟨die, r2.core, r2.slot⟩
          let s := (s.startBack { o with g := { o.g with twin := some h } } g).startBack { p with g := { p.g with twin := some g } } h
          .next ((((s.bound die n).bound die (n + 1)).comeBack g).comeBack h)

/-! ### The end (R220, R221, R279, R280, R297, R303) -/

/-- Core-cycles a group is charged (R297). -/
def chargeOf (cycles sheaves : Nat) : Nat := (cycles * sheaves + 127) / 128

/-- A charge is added to a region and its ancestors, in their control blocks by system-scope additions (R300, R303). -/
def State.chargeRegion (s : State) (d n : Nat) : Nat → Nat → State
  | 0, _ => s
  | k + 1, r => match s.region r with
    | none => s
    | some x =>
      let s' := { s with regions := AMap.set s.regions r { x with consumed := (x.consumed + n) % 2 ^ 64 } }
      let s' := if x.block = 0 then s' else s'.partAdd d (x.block + 24) 8 n
      if x.parent = 0 then s' else State.chargeRegion s' d n k x.parent

/-- The queue of a launch is charged (R297, R298). -/
def State.chargeQueue (s : State) (l : Option Nat) (n : Nat) : State :=
  match l.bind fun l => (AMap.find s.launches l).bind (·.q) with
  | none => s
  | some q => match AMap.find s.queues q with
    | none => s
    | some y => { s with queues := AMap.set s.queues q { y with deficit := y.deficit - (n : Int) } }

/-- A group leaves for good: its cycles are charged, its launch has one group fewer. -/
def State.settleGroup (s : State) (d : Nat) (x : Group) (cycles : Nat) : State :=
  let n := chargeOf cycles (sheafCount x)
  let s := (s.chargeQueue x.launch n).chargeRegion d n treeDepth x.region
  let s := match x.launch.bind fun l => (AMap.find s.launches l).map fun y => (l, y) with
    | some (l, y) => if x.isShadow then s else { s with launches := AMap.set s.launches l { y with live := y.live - 1 } }
    | none => s
  s.exhaustion

/-- Every register of the group has drained and every command in its unit has completed (R280). -/
def State.spent (s : State) (g : GroupId) : Bool :=
  let x := s.grp g
  x.st == .ending && !(s.accs.any fun e => e.2.gnum == x.num && e.2.counted)
    && !(s.threads.any fun e => decide (gidOf e.1 = g) && e.2.status == .draining)
    && !((partsOf ⟨g.die, g.core⟩).any fun p => (s.part p).unit.q.any fun k => k.gnum == x.num)

/-- One copy retires (R280): barriers, unit, slot and vault space are free, that once its transfers have completed. -/
def State.retireOne (s : State) (g : GroupId) : State :=
  let x := s.grp g
  let c : CoreId := ⟨g.die, g.core⟩
  let s := (partsOf c).foldl (fun s p => if (s.part p).unit.bound = some x.num then s.setUnit p ((s.part p).unit.release [] x.num) else s) s
  let k := s.core c
  let left := if x.vaultBytes ≠ 0 ∧ s.spaceBusy x.num then [(x.num, x.vbase, x.vaultOff, x.vaultBytes)] else []
  let s := s.setCore c { k with bars := k.bars.filter (fun b => b.1.1 != g.slot), retry := k.retry.filter (fun r => gidOf r.t != g)
                                fbuf := k.fbuf.filter (fun p => match p.owner with
                                  | .thread _ => p.group != x.num
                                  | .block _ => p.group != x.num
                                  | _ => true), left := k.left ++ left }
  let mine := s.threads.filter fun e => decide (gidOf e.1 = g)
  let s := { s with groups := AMap.del s.groups g, threads := s.threads.filter fun e => !decide (gidOf e.1 = g) }
  let s := (s.discard g.die (mine.flatMap fun e => e.2.held)).askedGone g.die [x.num]
  (([0, 1, 2, 3, 4] : List Nat).foldl (fun s p => s.launchLearns x.launch c p) s).settleGroup g.die x (x.cycles + (s.now g.die - x.bound))

/-- A group that has ended retires (R280); the copies of a block pair together (R281). -/
def execGroupRetire (g : GroupId) (s : State) : Host.Outcome State Fault Refusal :=
  if (AMap.find s.groups g).isNone || !s.spent g then .next s
  else match (s.grp g).twin with
    | some h => if (AMap.find s.groups h).isSome && !s.spent h then .next s else .next ((s.retireOne g).retireOne h)
    | none => .next (s.retireOne g)

end

end Sys2Proof.Machine
end

