-- ==== Sys2Proof/Machine/Sched.lean ====
section
/-! DEFINITION. Sched: queues, launches, the management core's choice of binds, fault descriptors and the dependency
table's issue (R165, R237, R238, R284-R298, R303, R304, R315, R401). -/

namespace Sys2Proof.Machine

open Sys2Proof

noncomputable section

/-! ### Pushes at the home (R290-R294, R377) -/

/-- Who pushed: a master by its port, else the pushing die; and the pushing thread's region (R376, R377). -/
def State.callerWord (s : State) (p : Pkt) : Nat :=
  let outside := (s.local? p.src).isNone
  let code := if outside ∧ p.src = (s.port s.flash.master0).peer then 0xFFF0
    else if outside ∧ p.src = (s.port s.flash.master1).peer then 0xFFF1 else p.src
  let reg := match AMap.find s.accs p.acc with
    | some a => if outside then 0 else match a.owner with
      | .thread t => match s.slotOf (gidOf t) a.gnum with
        | some g => (s.grp g).region
        | none => 0
      | _ => 0
    | none => 0
  code + 65536 * reg

/-- The sixteen words of a record, with their poison. -/
def recordOf (p : Pkt) : List Reg :=
  (List.range 16).map fun k =>
    let bs := (List.range 4).map fun j => ((p.cells.find? fun c => c.1 == p.fa + 4 * k + j).map (·.2)).getD 0
    { v := BitVec.ofNat 32 (leNat bs), p := p.pois.contains (p.fa + 4 * k) }

/-- The 64 bytes of its storage that a record takes: those of its number modulo the capacity, or the first free (log entry 37). -/
def recordSlot (y : Queue) : Nat :=
  let used (k : Nat) : Bool := y.entries.any fun e => e.slot == k
  if used (y.accepted % y.cap) then ((List.range y.cap).find? fun k => !used k).getD 0 else y.accepted % y.cap

/-- A push takes its place in a queue's order: accepted with its number, or refused where the queue is full. -/
def State.pushInto (s : State) (i : Nat) (k : Nat) (y : Queue) (p : Pkt) : State :=
  if y.cap ≤ y.entries.length then
    (s.setQueue k { y with refused := y.refused + 1 }).send { reply p i 8 with val2 := 0 }
  else
    let ws := recordOf p
    let ws := if y.call then ws.set 1 { v := BitVec.ofNat 32 (s.callerWord p) } else ws
    let n := y.accepted
    let slot := recordSlot y
    let at_ := y.storage + 64 * slot
    let cells := cellsAt at_ (ws.flatMap fun w => leBytes 4 w.v.toNat)
    let pois := (ws.zipIdx.filter fun w => w.1.p).map fun w => at_ + 4 * w.2
    let s := if y.call then s else { s with mem := Memory.writeAll s.mem cells, poison := poisonAfter s.poison cells pois }
    let e : Entry := { num := n, words := if y.call then ws else [], launch := none, done := false, slot
                       late := ((s.region (ws.getD 15 {}).v.toNat).map (·.st)) != some 0
                       view := if p.stamped then View.raise p.view p.origin p.dst p.count else [] }
    (s.setQueue k { y with accepted := n + 1, entries := y.entries ++ [e] }).send { reply p i 4 with val := n }

/-- A push at a die (R290): a push that reaches a home which is no queue is refused (R294); a write of 64 bytes from another
package is then a plain write. -/
def execQueuePush (n : Nat) (s : State) : Host.Outcome State Fault Refusal :=
  match AMap.find s.net n with
  | none => .next s
  | some p =>
    if p.kind ≠ 1 || !p.push then .next s
    else if s.purged p.at_ p then .next (s.dropPurged n p.at_ p)
    else match s.spot n p with
      | .go s => .next s
      | .redirect b => .next (s.redirectFrom n p.at_ p b)
      | .serve q =>
        let i := p.at_
        if s.stale i p then .next (s.delPkt n)
        else if q.cls ≠ 2 ∧ (s.local? p.src).isNone then .next (s.setPkt n { p with push := false })
        else if !s.writeAdmits i p then .next (s.holdBack n i p true)
        else
          let s := s.delPkt n
          let s := if p.stamped then s.takeAll i p.turns p.view else s
          match (if q.cls = 2 then s.queueAt i p.fa else none) with
          | some (k, y) => .next (s.pushInto i k y p)
          | none => .next (s.send { reply p i 8 with val2 := 0x1C })

/-- The group an access was made for stands where its threads issue. -/
def State.issuing (s : State) (a : Acc) : Bool :=
  match a.owner with
  | .thread t => (s.slotOf (gidOf t) a.gnum).any fun g => ((s.grp g).st == .resident || (s.grp g).st == .preempting) && (s.grp g).leaving.isNone
  | _ => true

/-- A waiting push is sent again when an entry of its queue has been freed (R291); not while its group is out, or once that has ended. -/
def execPushRetry (n : Nat) (s : State) : Host.Outcome State Fault Refusal :=
  match AMap.find s.accs n with
  | none => .next s
  | some a =>
    if a.kind ≠ .push || !a.acked || !s.issuing a then .next s
    else match (s.local? a.home).bind fun j => s.queueAt j a.fa with
      | some (_, y) => if y.entries.length < y.cap then .next (s.retryAt n { a with acked := false } a.home a.plen) else .next s
      | none => if (s.local? a.home).isNone then .next (s.retryAt n { a with acked := false } a.home a.plen) else .next s

/-! ### Steps 1 to 4 (R286) -/

/-- Step 3: the count, read once at system scope where the record names a count word. With a count of zero the header is read now,
else when the first group is bound (R282). -/
def State.launchCount (s : State) (l : Nat) (x : Launch) : State :=
  let counted (s : State) (x : Launch) (n : Nat) : State := s.setLaunch l { x with phase := if n = 0 then 3 else 4, count := n }
  if recordKind x.words = 2 then s.completeLaunch l x
  else if lw x.words 6 ≠ 0xFFFFFFFF then counted s x (lw x.words 6)
  else match s.launchRead l x (la x.words 8) 4 with
    | .wait s => s
    | .bad s => s.invalidate l x
    | .poison s => s.launchPoison l x
    | .ok s bs =>
      let x := (AMap.find s.launches l).getD x
      let n := leNat (bs.map (·.1))
      if bs.any (·.2) then s.launchPoison l x
      else if n = 0xFFFFFFFF then s.invalidate l x
      else counted s x n

/-- Step 2: the wait word is read again after each write applied to it (R286). -/
def execWaitCounterRead (q : Nat) (s : State) : Host.Outcome State Fault Refusal :=
  match s.launches.find? fun l => l.2.q == some q && l.2.phase == 1 && !l.2.dead with
  | none => .next s
  | some (l, x) => match s.launchRead l x (la x.words 12) 4 with
    | .wait s => .next s
    | .bad s => .next (s.invalidate l x)
    | .poison s => .next (s.launchPoison l x)
    | .ok s bs =>
      let x := (AMap.find s.launches l).getD x
      if bs.any (·.2) then .next (s.launchPoison l x)
      else if lw x.words 14 ≤ leNat (bs.map (·.1)) then .next (s.setLaunch l { x with phase := 2 })
      else .next s

/-- Dispatch reads the oldest record of a queue that it has not read: one with a poisoned word is consumed (R292); one that breaks a
limit has its entry in the fault record of its region, or of the queue's where it names no region that the queue admits (R285). -/
def State.readRecord (s : State) (q : Nat) (y : Queue) (e : Entry) : State :=
  let rs := s.heldWords y e
  let ws := rs.map (·.v)
  let reg := lw ws 15
  let known := s.admitted y.region reg && !e.late
  let r := if known then reg else y.region
  let x : Launch := { die := y.die, q := some q, num := e.num, words := ws, region := r, ctx := ((s.region r).map (·.ctx)).getD 0
                      phase := 0, view := e.view, entry := y.storage + 64 * e.slot }
  let mark (v : Entry) : Queue := { y with entries := y.entries.map fun f => if f.num = e.num then v else f }
  if (rs.any (·.p)) && !(rs.getD 1 {}).p then (s.setQueue q (mark { e with done := true })).startPurge y.die (launchTag x) 0x10 r none
  else
    let l := s.nextId
    let bad := (rs.getD 1 {}).p || !recordOk ws || !known || !s.tagOk reg (launchTag x).toNat
    let s := ({ s with nextId := l + 1 }.setQueue q (mark { e with launch := some l })).setLaunch l { x with invalid := bad }
    if bad then s.invalidEntry l x r else s

/-- What step 1 waits for (R286): an earlier record of the queue that has not begun dispatch, or one of which a read or the completion add
is parked; with the serial flag, any earlier record that has not completed. -/
def State.held1 (s : State) (q : Nat) (y : Queue) (x : Launch) : Bool :=
  (y.entries.any fun e => decide (e.num < x.num) && (s.notBegun e || (bit (lw x.words 0) 0 && !x.invalid)))
    || s.launches.any fun l => l.2.q == some q && decide (l.2.num < x.num) && s.launchParked l.2.die l.1

/-- Step 1 is over: an invalid record completes (R285); a valid one waits for its counter, or has none. -/
def State.beginRecord (s : State) (l : Nat) (x : Launch) : State :=
  if x.invalid then s.completeLaunch l { x with count := 0 } else s.setLaunch l { x with phase := if la x.words 12 = 0 then 2 else 1 }

/-- Dispatch reads a queue's records, and each goes on through steps 1 to 3 of R286. -/
def execLaunchDispatch (q : Nat) (s : State) : Host.Outcome State Fault Refusal :=
  match s.queue? q with
  | none => .next s
  | some y =>
    if y.call then .next s
    else match y.entries.find? fun e => e.launch.isNone && !e.done with
      | some e => .next (s.readRecord q y e)
      | none => match s.launches.find? fun l => l.2.q == some q && !l.2.dead && (l.2.phase == 2 || l.2.phase == 3 || (l.2.phase == 0 && !s.held1 q y l.2)) with
        | some (l, x) => .next (if x.phase = 0 then s.beginRecord l x else if x.phase = 2 then s.launchCount l x else s.launchHeader l x)
        | none => .next s

/-! ### Steps 5 and 6 (R286, R287, R292) -/

/-- Commands accepted from a launch's threads, or started by their tile tasks, that have not completed. -/
def State.launchBusy (s : State) (l : Nat) : Bool :=
  let f (c : Cmd) : Bool := c.launch == some l
  (s.copies.any fun e => (e.2.q ++ e.2.fly).any f)
    || (s.clusters.any fun e => (e.2.chain.q ++ e.2.chain.fly ++ e.2.psum.q ++ e.2.psum.fly ++ e.2.walk.q ++ e.2.walk.fly).any f)
    || (s.parts.any fun e => e.2.unit.q.any f) || (s.threads.any fun t => t.2.cmds.any fun c => f c.2)

/-- A launch completes (R286 step 5); a purged one frees its entry and is gone (R292). -/
def execLaunchComplete (l : Nat) (s : State) : Host.Outcome State Fault Refusal :=
  match AMap.find s.launches l with
  | none => .next s
  | some x =>
    let pending := s.dies.any fun d => d.2.slots.any fun r => r.2.valid && !r.2.restore && r.2.launch == l
    if x.live ≠ 0 || s.launchBusy l then .next s
    else if x.dead then
      let s := s.freeEntry x
      .next { s with launches := AMap.del s.launches l }
    else if x.phase = 4 ∧ x.count ≤ x.next ∧ !pending then .next (s.completeLaunch l x)
    else .next s

/-- The completion counter is raised once every write of the launch has been acknowledged (R286 step 6). -/
def execCompletionCounterAdd (l : Nat) (s : State) : Host.Outcome State Fault Refusal :=
  match AMap.find s.launches l with
  | none => .next s
  | some x =>
    let gone (s : State) : State := { s with launches := AMap.del s.launches l }
    let va := la x.words 10
    if x.phase ≠ 5 || x.dead then .next s
    else if va = 0 || va % 4 ≠ 0 then .next (gone s)
    else if s.accs.any fun e => x.gnums.contains e.2.gnum && (e.2.kind == .store || e.2.kind == .engineWrite || e.2.kind == .atomic) then .next s
    else if s.launchParked x.die l then .next s
    else
      let fail (s : State) : State := gone (s.invalidEntry l x x.region)
      match (if 2 ^ 55 ≤ va then XRes.fault 0x0D else (s.setView (agent x.die) 0 x.view).xlate (s.launchSpace l x) va 3) with
      | .miss s lv => .next (s.launchPark l x va lv 2)
      | .fault _ => .next (fail s)
      | .poison => .next (gone (s.launchPoison l x))
      | .wait s => .next s
      | .ok s fa => match s.homeRoute x.die fa with
        | none => .next (fail s)
        | some r =>
          let aop : AOp := { op := 0, w := 4, ord := 2, scope := 7, v := 1, n := 0, incs := 1 }
          .next (State.setLaunch (s.sendAcc { owner := .launch l, core := agent x.die, path := 0, kind := .atomic, va, fa, len := 4, aop := some aop
                                              tag := launchTag x } r).1 l { x with phase := 6 })

/-! ### The management core's choice (R296, R298, R303, R304) -/

/-- The level of a launch (R298). -/
def State.levelOf (s : State) (x : Launch) : Nat := Nat.min (bits (lw x.words 1) 8 8) (s.effPrio treeDepth x.region)

/-- Nothing is bound for an exhausted region (R303), in a stopped domain (R306), or in the quiet state (R391). -/
def State.mayBind (s : State) (r : Nat) : Bool := !s.exhausted treeDepth r && !s.halted r && s.power != 2

/-- Slots a valid record names already. -/
def State.reserved (s : State) (d core slot : Nat) : Bool := (s.die d).slots.any fun r => r.2.valid && r.2.core == core && r.2.slot == slot

/-- The first slot of a die that fits a group; which fitting slot is chosen is the model's (log entry 28). -/
def State.fitFrom (s : State) (d : Nat) (x : Group) (live : List Nat) (home : Option CoreId) (ok : Nat → Bool) : Option (Nat × Nat) :=
  ((List.range 64).filter ok).findSome? fun c =>
    match (List.range 64).find? fun k => !s.reserved d c k && (AMap.find s.groups ⟨d, c, k⟩).isNone with
    | some k => if s.unmet ⟨d, c⟩ k x live home true = 0 then some (c, k) else none
    | none => none

/-- A fit, with a partner on a core of another cluster for a block pair. -/
def State.fit (s : State) (d : Nat) (x : Group) (live : List Nat) (home home2 only : Option CoreId) : Option ((Nat × Nat) × Option (Nat × Nat)) :=
  match s.fitFrom d x live home fun c => only.all fun o => o.core == c with
  | none => none
  | some a =>
    if x.shadow ≠ 2 then some (a, none)
    else match s.fitFrom d x live home2 fun c => otherCluster a.1 c with
      | some b => some (a, some b)
      | none => none

/-- Free records of a slot table: one, or two next to each other. -/
def State.freeRec (s : State) (d : Nat) (pair : Bool) : Option Nat :=
  (List.range (if pair then 255 else 256)).find? fun k => !(s.bind d k).valid && (!pair || !(s.bind d (k + 1)).valid)

/-- A record of the slot table as it is written for a fit, and its partner's next to it (R296). The second copy's number and block are
given. -/
def State.putBind (s : State) (d k : Nat) (b : Bind) (num2 : BitVec 64) (block2 : Nat) (f : (Nat × Nat) × Option (Nat × Nat)) : State :=
  let b := { b with valid := true, core := f.1.1, slot := f.1.2, partner := f.2.isSome, status := 0 }
  let s := s.setBind d k b
  match f.2 with
  | none => s
  | some p => s.setBind d (k + 1) { b with partner := false, core := p.1, slot := p.2, num := num2, block := block2 }

/-- A record in the first free place of the table, if it has one. -/
def State.writeBind (s : State) (d : Nat) (b : Bind) (num2 : BitVec 64) (block2 : Nat) (f : (Nat × Nat) × Option (Nat × Nat)) : Option State :=
  (s.freeRec d f.2.isSome).map fun k => s.putBind d k b num2 block2 f

/-- The number of the second copy of a block pair. -/
def secondNum (n : BitVec 64) : BitVec 64 := n + 0x100000000

/-- The context block the management core gives a group, at a multiple of 256: the next of `State.blocks`, else a free value (R273, log
entry 27). -/
def State.newBlock (s : State) : Nat × State :=
  match s.blocks with
  | a :: l => (a / 256 * 256, { s with blocks := l })
  | [] => let r := s.fresh; (r.1.toNat / 256 * 256, r.2)

/-- The header a launch's groups will have: the one dispatch has read, or before that the bytes that stand at its address, which the
management core looks at without an access (DESIGN CHOICE, log entry 39). Where it finds no valid header, it takes the group to fit:
dispatch reads the header when it acts on the bind record (R282). -/
def State.headerNow (s : State) (l : Nat) (x : Launch) : List Byte :=
  if x.header ≠ [] then x.header
  else
    let found := (List.range 256).filterMap fun k => ((s.whereIs (s.launchSpace l x) (la x.words 2 + k)).bind fun fa =>
      (s.homeRoute x.die fa).bind fun r => s.placeOf r fa).map fun p => (s.byteAt p).1
    if found.length = 256 ∧ headerOk found then found else []

/-- The group a launch would bind next, for the conditions of R270. -/
def State.candGroup (s : State) (l : Nat) (x : Launch) : Group := s.newGroup l { x with header := s.headerNow l x } 0

/-- A slot for a launch's next group. -/
def State.fitLaunch (s : State) (d : Nat) (l : Nat × Launch) : Option ((Nat × Nat) × Option (Nat × Nat)) :=
  let x := s.candGroup l.1 l.2
  s.fit d x (List.range (sheafCount x)) none none l.2.core

/-- The next group of a launch gets a record, where the table has a free place. -/
def State.bindNext (s : State) (l : Nat) (x : Launch) (f : (Nat × Nat) × Option (Nat × Nat)) : Option State :=
  let n := s.nextId
  let b := s.newBlock
  let num := BitVec.ofNat 64 (n * 2 ^ 32 + x.next)
  let g := s.candGroup l x
  (State.writeBind { b.2 with nextId := n + 2 } x.die { num, launch := l, entry := s.launchAddr (some l), block := b.1, region := x.region }
    (secondNum num) (b.1 + blockSize g) f).map fun s => (s.setLaunch l { x with next := x.next + 1, since := none }).clamp

/-- The oldest launch of a list, by its place in its queue or table. -/
def oldestOf (l : List (Nat × Launch)) : Option (Nat × Launch) :=
  l.foldl (fun m e => match m with
    | none => some e
    | some x => if e.2.num < x.2.num then some e else m) none

/-- A queue's candidate: its oldest launch past steps 1-3 with groups not yet handed out (R298). -/
def State.candOf (s : State) (q : Nat) : Option (Nat × Launch) := oldestOf (s.launches.filter fun l => l.2.q == some q && l.2.unbound)

/-- A core's candidate of its dependency table: the oldest of its closure tasks (R298). -/
def State.taskOf (s : State) (c : CoreId) : Option (Nat × Launch) := oldestOf (s.launches.filter fun l => l.2.core == some c && l.2.unbound)

/-- The candidates of a die, of its queues and of its cores. -/
def State.cands (s : State) (d : Nat) : List (Nat × Launch) :=
  (s.queues.filter fun q => q.2.die == d && !q.2.call).filterMap (fun q => s.candOf q.1) ++
    ((s.launches.filterMap fun l => if l.2.die = d then l.2.core else none).dedup).filterMap s.taskOf

/-- Groups that are out and have no record yet, of a level. -/
def State.outsAt (s : State) (d lv : Nat) : List OutGroup :=
  s.outs.filter fun o => o.was.die == d && !o.g.isShadow && s.mayBind o.g.region
    && !((s.die d).slots.any fun r => r.2.valid && r.2.restore && r.2.num == o.g.num)
    && (match o.g.launch.bind (fun l => AMap.find s.launches l) with | some x => s.levelOf x == lv | none => false)

/-- The other copy of a block pair that is out. -/
def State.outTwin (s : State) (o : OutGroup) : Option OutGroup :=
  if o.g.shadow = 2 then s.outs.find? fun p => p.g.isShadow && p.g.num == secondNum o.g.num else none

/-- A slot for a group that is out. -/
def State.fitOut (s : State) (d : Nat) (o : OutGroup) : Option ((Nat × Nat) × Option (Nat × Nat)) :=
  s.fit d o.g o.sheaves (s.homeFor o) ((s.outTwin o).bind s.homeFor) none

/-- A restore that fits. -/
def State.restoreAt (s : State) (d lv : Nat) : Option State :=
  (s.outsAt d lv).findSome? fun o => (s.fitOut d o).bind fun f =>
    s.writeBind d { restore := true, num := o.g.num, launch := o.g.launch.getD 0, entry := s.launchAddr o.g.launch, block := o.g.block, region := o.g.region }
      (secondNum o.g.num) (((s.outTwin o).map (·.g.block)).getD 0) f

/-- A closure task of a dependency table that fits its core (R298). -/
def State.taskAt (s : State) (d lv : Nat) : Option State :=
  ((s.cands d).filter fun l => l.2.core.isSome && s.mayBind l.2.region && s.levelOf l.2 == lv).findSome? fun l =>
    (s.fitLaunch d l).bind fun f => s.bindNext l.1 l.2 f

/-- Visits a queue needs before it is served (R298). -/
def visits (y : Queue) : Nat := if 0 < y.deficit then 0 else (-y.deficit).toNat / y.quantum + 1

/-- The place in ring order of the queue that is served first. -/
def firstServed (l : List (Nat × Queue)) : Option (Nat × Nat) :=
  (l.zipIdx.map fun e => (visits e.1.2, e.2)).foldl (fun m e => match m with
    | none => some e
    | some x => if decide (e.1 < x.1) then some e else m) none

/-- A queue with its candidate and the slots that fit it. -/
abbrev QCand := Nat × Queue × (Nat × Launch) × ((Nat × Nat) × Option (Nat × Nat))

/-- The deficit walk over the queues of a level whose candidates fit (R298). -/
def State.walkQueues (s : State) (d lv : Nat) : Option State :=
  let mine : List QCand := (s.queues.filter fun q => q.2.die == d && !q.2.call).filterMap fun q => (s.candOf q.1).bind fun l =>
    if s.levelOf l.2 ≠ lv || !s.mayBind l.2.region then none else (s.fitLaunch d l).map fun f => (q.1, q.2, l, f)
  let ring : List QCand := mine.mergeSort fun (a b : QCand) => decide (a.1 ≤ b.1)
  let ring : List QCand := match (s.die d).lastQueue with
    | some k => ring.filter (fun (e : QCand) => decide (k < e.1)) ++ ring.filter fun (e : QCand) => decide (e.1 ≤ k)
    | none => ring
  match firstServed (ring.map fun (e : QCand) => (e.1, e.2.1)) with
  | none => none
  | some (v, i) =>
    let s := (ring.zipIdx).foldl (fun (s : State) (e : QCand × Nat) => s.setQueue e.1.1 { e.1.2.1 with deficit := e.1.2.1.deficit + (e.1.2.1.quantum * (if e.2 < i then v + 1 else v) : Nat) }) s
    match ring[i]? with
    | none => none
    | some e => (s.setDie d { s.die d with lastQueue := some e.1 }).bindNext e.2.2.1.1 e.2.2.1.2 e.2.2.2

/-- A refused record is written again for another slot where one fits (R296); one whose group may not be bound now stays as it is
(R303, R306). -/
def State.rewriteRefused (s : State) (d : Nat) : Option State :=
  (s.die d).slots.findSome? fun r =>
    if !r.2.valid || r.2.status % 256 != 2 || !s.mayBind r.2.region then none
    else
      let free := s.setBind d r.1 { r.2 with valid := false }
      let free := if r.2.partner then free.setBind d (r.1 + 1) { free.bind d (r.1 + 1) with valid := false } else free
      let go (block2 : Nat) (f : (Nat × Nat) × Option (Nat × Nat)) : Option State :=
        if r.2.partner == f.2.isSome then some (s.putBind d r.1 r.2 (secondNum r.2.num) block2 f) else free.writeBind d r.2 (secondNum r.2.num) block2 f
      if r.2.restore then (s.outs.find? fun o => o.g.num == r.2.num).bind fun o => (free.fitOut d o).bind (go (((s.outTwin o).map (·.g.block)).getD 0))
      else (AMap.find s.launches r.2.launch).bind fun x => (free.fitLaunch d (r.2.launch, x)).bind (go (r.2.block + blockSize (s.candGroup r.2.launch x)))

/-- Since when each candidate of the die has found no slot that fits (R304). -/
def State.noteStarving (s : State) (d : Nat) : State :=
  (s.cands d).foldl (fun s l =>
    let since := if (s.fitLaunch d l).isSome then none else if l.2.since.isSome then l.2.since else some (s.now d)
    if since = l.2.since then s else s.setLaunch l.1 { l.2 with since }) s

/-- The management core of a die writes at most one bind record (R298): at the highest level with a candidate that fits, a
restore first, then a dependency-table task, then a queue's group. -/
def execSchedulingDecision (die : Nat) (s : State) : Host.Outcome State Fault Refusal :=
  let s := s.noteStarving die
  let pick := ([7, 6, 5, 4, 3, 2, 1, 0]).findSome? fun lv =>
    match s.restoreAt die lv with
    | some s => some s
    | none => match s.taskAt die lv with
      | some s => some s
      | none => s.walkQueues die lv
  match s.rewriteRefused die with
  | some s => .next s
  | none => .next (pick.getD s)

/-- The level of a resident group. -/
def State.groupLevel (s : State) (x : Group) : Nat :=
  match x.launch.bind (fun l => AMap.find s.launches l) with
  | some y => s.levelOf y
  | none => 8

/-- The resident group of a level below `lv` that is asked to leave: the lowest level first, within it the most recently bound
(R304). -/
def State.victim (s : State) (d lv : Nat) : Option (GroupId × Group) :=
  (s.groups.filter fun e => e.1.die == d && e.2.st == .resident && e.2.leaving.isNone && decide (s.groupLevel e.2 < lv)).foldl (fun m e => match m with
    | none => some e
    | some x => if s.groupLevel e.2 < s.groupLevel x.2 || (s.groupLevel e.2 = s.groupLevel x.2 && x.2.bound < e.2.bound) then some e else m) none

/-- A candidate has found no slot that fits for 16,384 cycles, and no pre-emption asked for it is still to complete. -/
def State.starved (s : State) (d : Nat) (l : Nat × Launch) : Bool :=
  (l.2.since.any fun t => decide (t + 16384 ≤ s.now d)) && (s.fitLaunch d l).isNone && !((s.die d).starving.any fun e => e.1 == l.1)

/-- The management core asks one resident group of a lower level to leave for a starved candidate (R304). -/
def execStarvationPreemption (die : Nat) (s : State) : Host.Outcome State Fault Refusal :=
  match ((s.cands die).filter fun l => s.starved die l && s.mayBind l.2.region).findSome? fun l => (s.victim die (s.levelOf l.2)).map fun e => (l.1, e) with
  | none => .next s
  | some (l, g, x) => .next ((s.setDie die { s.die die with starving := (s.die die).starving ++ [(l, x.num)] }).requestPre g)

/-! ### Fault descriptors (R315) -/

/-- Parked entries of a die, the first parked first. -/
def State.parkedOn (s : State) (d : Nat) : List (CoreId × Parked) :=
  ((s.cores.filter fun e => e.1.die == d).flatMap fun e => e.2.fbuf.map fun p => (e.1, p)).mergeSort fun a b => decide (a.2.at_ ≤ b.2.at_)

def parkedKind (p : Parked) : Nat :=
  match p.owner with
  | .engine _ _ => 4 + p.kind
  | .unit _ _ => 4 + p.kind
  | _ => p.kind

/-- The 32 bytes of a descriptor. -/
def descriptor (s : State) (c : CoreId) (p : Parked) (n : Nat) : List Byte :=
  leBytes 8 p.va ++ leBytes 2 p.ctx ++ leBytes 1 (parkedKind p) ++ leBytes 1 p.level ++ leBytes 4 (s.cno c) ++ leBytes 8 (gnoOf p.group) ++
    leBytes 2 p.tag.toNat ++ leBytes 2 0 ++ leBytes 4 n

/-- The management core reports the first parked access of a span that is not outstanding; it raises the notice word of an
earlier report once that report's write has been acknowledged (R315). -/
def execFaultDescriptorWrite (die : Nat) (s : State) : Host.Outcome State Fault Refusal :=
  let d := s.die die
  match d.notices.find? fun n => (AMap.find s.accs n.1).isNone with
  | some n => .next ((s.setDie die { d with notices := d.notices.filter fun m => m != n }).partAdd die n.2 4 1)
  | none =>
    let l := s.parkedOn die
    let spans := d.spans.filter fun x => l.any fun p => p.2.ctx == x.1 && p.2.va / 65536 == x.2
    let s := s.setDie die { d with spans }
    let d := s.die die
    match l.find? fun p => !spans.contains (p.2.ctx, p.2.va / 65536) with
    | none => .next s
    | some (c, p) => match AMap.find s.ctxs p.ctx with
      | none => .next s
      | some x =>
        let n := AMap.getD d.dseq p.ctx 0
        let s := s.setDie die { d with spans := spans ++ [(p.ctx, p.va / 65536)], dseq := AMap.set d.dseq p.ctx ((n + 1) % 2 ^ 32) }
        let (s, id) := s.partWrite die (x.area + 32 * (n % x.cap)) (descriptor s c p n)
        .next (s.setDie die { s.die die with notices := (s.die die).notices ++ [(id, x.notice)] })

/-! ### Tile tasks (R238) -/

/-- Where a task goes. -/
inductive Target where
  | engine (e : EngineId) | unit (p : PartId) | dispatch
deriving DecidableEq, Repr

def targetOf (c : CoreId) (k : Task) : Target :=
  match k.target with
  | 0 => match k.fn with
    | 2 => .engine (.chain c.die (c.core / 8))
    | 3 => .engine (.psum c.die (c.core / 8))
    | 5 => .engine (.walk c.die (c.core / 8))
    | _ => .engine (.copy c.die c.core)
  | 1 => .unit ⟨c.die, c.core, k.cmd.part⟩
  | _ => .dispatch

/-- The closure-task record of a task (R165, R238). -/
def taskRecord (k : Task) : List Word :=
  let w (n : Nat) : Word := k.tup.getD n 0
  [0x01010000, BitVec.ofNat 32 (k.cmd.tag.toNat * 65536 + (if k.high then 7 else 0) * 256), w 2, w 3, w 0, w 1, 1, w 4, 0, 0, 0, 0, 0, 0, 0,
    BitVec.ofNat 32 k.cmd.region]

/-- A ready task is issued to its target, where that accepts it. -/
def State.issueTask (s : State) (c : CoreId) (k : Task) : Option State :=
  let cov (s : State) (path : Nat) : State := k.inputs.foldl (fun s i => s.cover c path i.1) s
  let cmd := { k.cmd with born := s.now c.die }
  match targetOf c k with
  | .engine e => (s.accept (.engine e 0) cmd).map fun r => cov r.1 (pathOf (.engine e 0))
  | .unit p => (s.accept (.unit p 0) cmd).map fun r => cov r.1 2
  | .dispatch =>
    let l := s.nextId
    let v := k.inputs.foldl (fun v i => View.max v (AMap.getD (s.core c).ctrViews i.1 [])) (s.view c 2)
    let ws := taskRecord k
    let x : Launch := { die := c.die, q := none, num := k.num, words := ws, region := k.cmd.region, ctx := k.cmd.ctx
                        phase := 4, count := 1, view := v, core := some c }
    let s := { s with nextId := l + 1 }.setLaunch l x
    some (if recordOk ws && s.tagOk k.cmd.region k.cmd.tag.toNat then s else s.invalidate l x)

def State.delTask (s : State) (c : CoreId) (e : Nat) : State := s.setCore c { s.core c with tasks := AMap.del (s.core c).tasks e }

/-- The first ready task whose target accepts it, high class first, then in order of registration; one its target cannot accept
holds back later tasks of its class for that target. -/
def State.firstTask (s : State) (c : CoreId) : List (Nat × Task) → List (Bool × Target) → Option State
  | [], _ => none
  | (e, k) :: l, held =>
    let key := (k.high, targetOf c k)
    if held.contains key then State.firstTask s c l held
    else match s.issueTask c k with
      | some s => some (s.delTask c e)
      | none => State.firstTask s c l (key :: held)

/-- The dependency table issues a ready task, or discards one whose group has retired or has been ended by a fault (R165, R238,
R279). -/
def execTileTaskIssue (c : CoreId) (s : State) : Host.Outcome State Fault Refusal :=
  let ready := (s.core c).tasks.filter fun e => e.2.ready
  match ready.find? fun e => !s.alive (gidOf e.2.cmd.owner) e.2.cmd.gnum || s.groups.any fun g => g.2.num == e.2.cmd.gnum && g.2.faulted with
  | some (e, k) =>
    .next ((s.delTask c e).record c.die { kind := 1, cause := 0x18, tag := k.cmd.tag.toNat, region := k.cmd.region, group := gnoOf k.cmd.gnum
                                          cno := s.cno c, trapval := e })
  | none =>
    let l := ready.mergeSort fun a b => (a.2.high && !b.2.high) || (a.2.high == b.2.high && decide (a.2.num ≤ b.2.num))
    .next ((s.firstTask c l []).getD s)

end

end Sys2Proof.Machine
end

