-- ==== Sys2Proof/Machine/Wake.lean ====
section
/-! DEFINITION. Wake: the events of a thread and of a partition's picker: results that are due, `yield` and `mwait`, the overflow
pool, and the comparison of a block pair's copies (R40, R85, R99, R103, R360-R362). -/

namespace Sys2Proof.Machine

open Sys2Proof

noncomputable section

/-! ### Results and waits -/

/-- Fixed-latency results that are due are written, in issue order (R40). -/
def execFixedLatencyWriteback (t : ThreadId) (s : State) : Host.Outcome State Fault Refusal :=
  if (AMap.find s.threads t).isNone then .next s else .next (s.setThr t ((s.thr t).flush (s.now t.die)))

/-- A yielding thread is ready again after 16 picks (R99). -/
def execYieldExpiry (t : ThreadId) (s : State) : Host.Outcome State Fault Refusal :=
  let th := s.thr t
  match th.status with
  | .yielding till => if till ≤ s.now t.die then .next (s.setThr t (th.wakeAt (s.now t.die))) else .next s
  | _ => .next s

/-- The oldest program counter of the pool has waited 64 picks: the tracked one that issued most recently makes way (R85). -/
def Part.evicted (x : Part) (now : Nat) : Option Part :=
  match x.pool with
  | [] => none
  | (pc, at_) :: rest =>
    if now < at_ + 64 ∨ x.tracked.length < 64 then none
    else
      (x.tracked.foldl (fun (m : Option (Nat × Nat)) e => match m with
        | none => some e
        | some y => if y.2 < e.2 then some e else m) none).map fun e =>
          { x with tracked := x.tracked.filter (fun y => y.1 != e.1) ++ [(pc, 0)], pool := rest ++ [(e.1, now)] }

/-- The picker makes way in a partition's tracked program counters where R85 says so; a pick does it by itself. -/
def execPoolEviction (p : PartId) (s : State) : Host.Outcome State Fault Refusal :=
  match (s.part p).evicted (s.now p.die) with
  | none => .next s
  | some x => .next (s.setPart p x)

/-! ### mwait (R103) -/

/-- The lane's `mwait` ends with a value. -/
def endMwait (th : Thread) (now : Nat) (v : Reg) : Thread :=
  match th.status with
  | .mwait m =>
    let th := (th.receive now m.dest [v]).flowTo (th.pc.toNat + m.size)
    th.wakeAt (now + 1)
  | _ => th

/-- A waiting `mwait` reads its word again, and ends where the value differs or the wait has ended; where the read parks, the
instruction is issued again when it is served, and its limit stands (R103). -/
def mwaitLook (t : ThreadId) (ended : Bool) (s : State) : State :=
  let th := s.thr t
  match th.status with
  | .mwait m =>
    let now := s.now t.die
    let fin (s' : State) : State := { s' with cur := s.cur }
    let done (s : State) (v : Reg) : State :=
      let s := s.setThr t (endMwait (s.thr t) now v)
      let u : ThreadId := { t with sh := true }
      fin (if s.myGrp.shadow = 1 then s.setThr u (endMwait (s.thr u) now v) else s)
    let lost (s : State) : State := done s.fresh.2 { v := s.fresh.1.setWidth 32, p := true }
    match State.readPiece { s with cur := t } m.va 4 0 1 with
    | .ok s bs =>
      let v : Reg := { v := BitVec.ofNat 32 (leNat (bs.map (·.1))), p := bs.any (·.2) }
      let s : State := { s with syncBuf := s.syncBuf.filter fun e => e.1 != .thread t }
      if v.p || v.v != m.last.v || ended then done s v
      else match s.xlate s.space m.va 1 with
        | .ok s fa =>
          let w := s.watchAt fa
          fin (s.setThr t { s.thr t with status := .mwait { m with last := v, fa := w.1, near := w.2, hit := false } })
        | _ => fin s
    | .lost s => lost s
    | .stop r => match r with
      | .trap s c v _ => if c = 0x0F then lost (s.limitHit v) else fin (s.takeTrap c th.pc v)
      | .consume s => fin (s.consume t 0x10)
      | .wait s _ => fin s
      | .stay s => fin (s.bothCopies fun s => s.setMe { s.me with status := .parked, mwaitBy := some m.limit, issued := some m.start })
      | _ => s
  | _ => s

/-- A write has been applied to the watched word, or pre-emption of the group is requested: the word is read again (R103). -/
def execMwaitWake (t : ThreadId) (s : State) : Host.Outcome State Fault Refusal :=
  match (s.thr t).status with
  | .mwait m =>
    let pre := (s.grp (gidOf t)).st == .preempting
    if (m.hit && m.near) || pre then .next (mwaitLook t pre s) else .next s
  | _ => .next s

/-- 65,536 cycles have passed since the first read (R103). -/
def execMwaitLimit (t : ThreadId) (s : State) : Host.Outcome State Fault Refusal :=
  match (s.thr t).status with
  | .mwait m => if m.limit ≤ s.now t.die then .next (mwaitLook t true s) else .next s
  | _ => .next s

/-! ### Block pairs (R360-R362) -/

/-- A held store leaves on the lsu path. -/
def State.sendHeld (s : State) (t : ThreadId) (h : Held) : State :=
  let c := coreOf t
  let cells : List Host.Cell := h.cells.map fun x => (x.1 - h.va + h.fa, x.2)
  let pois := h.pois.map fun a => a - h.va + h.fa
  let g := s.grp (gidOf t)
  match s.homeRoute t.die h.fa with
  | none => State.drained { s with reports := s.reports ++ [{ t, gnum := g.num, cause := 0x1A, va := BitVec.ofNat 64 h.va, tag := (s.thr t).tag, region := g.region }] } t.die h.num
  | some r =>
    let s := s.l1Store c cells pois
    let a : Acc := { owner := .thread t, core := c, path := 0, kind := .store, va := h.va, fa := h.fa, len := h.cells.length, cells, pois
                     tag := (s.thr t).tag, gnum := g.num, home := r.origin, plen := r.len, born := s.now t.die, touches := s.memCode r h.fa }
    (s.setAccs [(h.num, a)]).sendVec [h.num]

/-- A `tstat`: its register receives the unit's status when it runs, not its acceptance number. -/
def isStat (o : Owner) (c : Cmd) : Bool :=
  match o with
  | .unit _ _ => c.fn == 5
  | _ => false

/-- The held commands are accepted in order; none where one of them has no room yet. -/
def acceptAll : List (Owner × Cmd) → State → Option (State × List (List Nat × Nat))
  | [], s => some (s, [])
  | (o, c) :: l, s => match s.accept o { c with dest := if isStat o c then c.dest else [] } with
    | none => none
    | some (s, n) => match acceptAll l s with
      | none => none
      | some (s, r) => some (s, (if isStat o c then [] else c.dest, n) :: r)

/-- A copy past its commit point: nothing is held, its signature starts again, and its commands' results are in place. -/
def Thread.committed (th : Thread) (now : Nat) (rs : List (List Nat × Nat)) : Thread :=
  let th := rs.foldl (fun (th : Thread) r => th.receive now r.1 [{ v := BitVec.ofNat 32 r.2 }]) th
  { th.wakeAt now with held := [], cmds := [], sig := 0, nstores := 0, atCommit := 2 }

/-- Twin threads at their commit points are compared (R360): on agreement the primary's stores leave in program order and its
commands are issued; on disagreement both raise signature mismatch (R362). A copy stopped only by a full buffer goes on until
it has made as many stores as its twin. -/
def execSignatureCompare (t : ThreadId) (s : State) : Host.Outcome State Fault Refusal :=
  let g := s.grp (gidOf t)
  match g.twin with
  | none => .next s
  | some h =>
    let u : ThreadId := ⟨h.die, h.core, h.slot, t.t, false⟩
    let a := s.thr t
    let b := s.thr u
    if g.shadow ≠ 2 || g.isShadow || a.status != .waiting .twin || b.status != .waiting .twin then .next s
    else if a.nstores < b.nstores ∧ a.atCommit = 3 then .next (s.setThr t { a.wakeAt (s.now t.die) with atCommit := 2 })
    else if b.nstores < a.nstores ∧ b.atCommit = 3 then .next (s.setThr u { b.wakeAt (s.now u.die) with atCommit := 2 })
    else if a.sig = b.sig ∧ a.nstores = b.nstores ∧ a.held.map (·.pois) = b.held.map (·.pois) then
      match acceptAll a.cmds (a.held.foldl (fun s x => s.sendHeld t x) s) with
      | none => .next s
      | some (s, rs) =>
        let now := s.now t.die
        let ra := rs.filter fun r => r.1 != []
        let rb := ((b.cmds.map fun c => if isStat c.1 c.2 then [] else c.2.dest).zip (rs.map (·.2))).filter fun r => r.1 != []
        .next (((s.setThr t ((s.thr t).committed now ra)).setThr u ((s.thr u).committed now rb)).discard u.die b.held)
    else .next (s.mismatch t 0x13)

end

end Sys2Proof.Machine
end

