-- ==== Sys2Proof/Machine/Route.lean ====
section
/-! DEFINITION. Route: the route agent of a die: announcements, withdrawals, replicas, moves, home conflicts, and the `rop`
family (R321-R338, R345, R396). -/

namespace Sys2Proof.Machine

open Sys2Proof

noncomputable section

/-! ### Announcements as bytes (R321, R345) -/

structure Ann where
  pre : Nat
  len : Nat
  cls : Nat
  ready : Bool := false
  hold : Bool := false
  withdraw : Bool := false
  moved : Bool := false
  ver : Nat
  origin : Nat
  cost : Nat := 0
  movedFrom : Nat := 0
  path : List Nat := []
deriving DecidableEq, Repr

def zeros (n : Nat) : List Byte := List.replicate n 0
/-- Die numbers, two bytes each. -/
def dieBytes (l : List Nat) : List Byte := l.flatMap fun d => leBytes 2 d
def pad (n : Nat) (bs : List Byte) : List Byte := (bs ++ zeros n).take n

/-- The 255 payload bytes of an announcement or withdrawal: a message of type 0. -/
def annBytes (a : Ann) : List Byte :=
  pad 255 (leBytes 8 a.pre ++ leBytes 1 a.len ++ leBytes 1 a.cls ++
    leBytes 1 (a.ready.toNat + 2 * a.hold.toNat + 4 * a.withdraw.toNat + 8 * a.moved.toNat) ++ leBytes 1 a.path.length ++
    leBytes 4 a.ver ++ leBytes 2 a.origin ++ leBytes 2 a.cost ++ leBytes 2 a.movedFrom ++ leBytes 2 1 ++ pad 32 (dieBytes a.path))

/-- Little-endian field of a message. -/
def fld (bs : List Byte) (o n : Nat) : Nat := leNat ((bs.drop o).take n)
def diesAt (bs : List Byte) (o n : Nat) : List Nat := (List.range n).map fun k => fld bs (o + 2 * k) 2

/-- An announcement in the format of version 1; none in any other (R321). -/
def parseAnn (bs : List Byte) : Option Ann :=
  let f := fld bs 10 1
  let len := fld bs 8 1
  if fld bs 64 1 = 0 ∧ 1 ≤ len ∧ len ≤ 60 ∧ fld bs 9 1 ≤ 2 ∧ f < 16 ∧ 1 ≤ fld bs 11 1 ∧ fld bs 11 1 ≤ 16 ∧ fld bs 22 2 = 1 ∧ fld bs 56 8 = 0
      ∧ fld bs 0 8 % 2 ^ (64 - len) = 0 then
    some { pre := fld bs 0 8, len, cls := fld bs 9 1, ready := bit f 0, hold := bit f 1, withdraw := bit f 2, moved := bit f 3
           ver := fld bs 12 4, origin := fld bs 16 2, cost := fld bs 18 2, movedFrom := fld bs 20 2, path := diesAt bs 24 (fld bs 11 1) }
  else none

/-- A message of types 1 to 6: its type, prefix and length, version, the two fields at 16 and 18, the die numbers from 65 on,
and the path it takes. -/
def msgBytes (ty pre len cls ver a b : Nat) (list path : List Nat) : List Byte :=
  pad 255 (leBytes 8 pre ++ leBytes 1 len ++ leBytes 1 cls ++ [0] ++ leBytes 1 path.length ++ leBytes 4 ver ++ leBytes 2 a ++ leBytes 2 b ++
    zeros 4 ++ pad 32 (dieBytes path) ++ zeros 8 ++ leBytes 1 ty ++ dieBytes list)

/-! ### Links -/

/-- A port that carries control flits. -/
def Port.up (x : Port) : Bool := x.st == .active || x.st == .parked || x.st == .waking || x.st == .reconfiguring

/-- Links of a die to its neighbours: 0-3 its ports, 4 + j the die of index j. -/
def State.links (s : State) (i : Nat) : List Nat :=
  ((List.range 4).filter fun q => (s.port (4 * i + q)).up) ++ (([0, 1, 2, 3]).filter (· != i)).map (4 + ·)

/-- A message leaves die `i` on a link. -/
def State.ctlOn (s : State) (i link : Nat) (bs : List Byte) : State :=
  if link < 4 then s.toPort (4 * i + link) (s.port (4 * i + link)).peer { kind := 200, at_ := i, cells := cellsAt 0 bs }
  else { s with ctl := AMap.set s.ctl s.nextId { at_ := link - 4, link := 4 + i, bytes := bs }, nextId := s.nextId + 1 }

/-- The link of die `i` to a neighbour by its number. -/
def State.linkTo (s : State) (i n : Nat) : Option Nat :=
  match s.local? n with
  | some j => if j = i then none else some (4 + j)
  | none => (List.range 4).find? fun q => (s.port (4 * i + q)).up && (s.port (4 * i + q)).peer == n

/-- A message goes to the first die of a path. -/
def State.ctlPath (s : State) (i : Nat) (path : List Nat) (bs : List Byte) : State :=
  match path with
  | [] => s
  | n :: _ => match s.linkTo i n with
    | some l => s.ctlOn i l bs
    | none => s

/-- The next die of a path after this one. -/
def nextOn (path : List Nat) (me : Nat) : Option Nat :=
  match path with
  | [] => none
  | n :: l => if n = me then l.head? else nextOn l me

/-! ### The table (R322, R325, R332) -/

/-- A bring-up entry of this package by prefix, length and origin, not yet replaced at die `i`. -/
def State.isBringUp (s : State) (i pre len origin : Nat) : Bool :=
  (match s.local? origin with
    | some _ => bringUp origin pre == some (pre, len, 0) || bringUp origin pre == some (pre, len, 2)
    | none => false) && !(s.die i).dropped.contains (pre, len, origin)

/-- Entries of a prefix and length in a die's table. -/
def State.entriesOf (s : State) (i pre len : Nat) : List Route := (s.matching i pre).filter fun r => r.pre == pre && r.len == len

def State.entry (s : State) (i pre len origin : Nat) : Option Route := (s.entriesOf i pre len).find? fun r => r.origin == origin

/-- Entries a die's table holds (R322): 67 for each die of the package at bring-up, less those replaced. -/
def State.tableSize (s : State) (i : Nat) : Nat := 268 - (s.die i).dropped.length + (s.die i).routes.length

def State.dropEntry (s : State) (i pre len origin : Nat) : State :=
  let up := s.isBringUp i pre len origin
  let d := s.die i
  s.setDie i { d with routes := d.routes.filter (fun r => !(r.pre == pre && r.len == len && r.origin == origin))
                      dropped := if up then d.dropped ++ [(pre, len, origin)] else d.dropped }

/-- The entry takes its place, in place of one of its prefix, length and origin. -/
def State.putEntry (s : State) (i : Nat) (r : Route) : State :=
  let s := s.dropEntry i r.pre r.len r.origin
  s.setDie i { s.die i with routes := (s.die i).routes ++ [r] }

/-- Of two homes of one prefix and length, the one every die keeps (R332): higher version, then lower origin. -/
def wins (a b : Route) : Bool := decide (b.ver < a.ver) || (a.ver == b.ver && decide (a.origin < b.origin))

def winner : List Route → Option Route
  | [] => none
  | r :: l => match winner l with
    | none => some r
    | some q => if wins q r then some q else some r

/-- The states the entries of a prefix and length take at die `me` (R325, R331, R332). A home withdrawn by a move, whose new home's
announcement has not come, keeps the replicas installed. -/
def settled (me : Nat) (l : List Route) : List Route :=
  let homes := l.filter fun r => r.cls != 1 && !r.gone
  let w := winner homes
  let stays := w.isSome || l.any fun r => r.cls != 1 && r.gone && r.origin != me
  let queue := w.any fun r => r.cls == 2
  l.map fun r =>
    if r.cls = 1 then { r with st := if stays && !queue then .installed else .orphan }
    else if r.gone then { r with st := .suppressed }
    else { r with st := if w.any (fun q => q.origin == r.origin) then .installed else .suppressed }

/-- An entry as it is announced to neighbours. -/
def Route.ann (r : Route) (me : Nat) (withdraw : Bool) : Ann :=
  { pre := r.pre, len := r.len, cls := r.cls, ready := r.ready, hold := r.hold, withdraw, moved := r.movedFrom.isSome, ver := r.ver
    origin := r.origin, cost := r.cost, movedFrom := r.movedFrom.getD 0, path := if r.origin = me then [me] else r.path ++ [me] }

/-- A die sends an entry, or its withdrawal, to every neighbour; not where the path would exceed 16 dies (R323). -/
def State.passOn (s : State) (i : Nat) (r : Route) (withdraw : Bool) : State :=
  let a := r.ann (s.dieNo i) withdraw
  if 16 < a.path.length then s else (s.links i).foldl (fun s l => s.ctlOn i l (annBytes a)) s

/-- A home leaves: its forward list goes with it (R326). -/
def State.dropList (s : State) (i pre len : Nat) : State := s.setDie i { s.die i with fwd := AMap.del (s.die i).fwd (pre, len) }

/-- An answer to a thread's route function. -/
def State.ropDone (s : State) (i : Nat) (o : RouteOp) (status : Nat) : State :=
  let s := s.setDie i { s.die i with rops := (s.die i).rops.filter fun x => x != o }
  match o.t with
  | some t => s.answer t o.gnum true (.ok [{ v := BitVec.ofNat 32 status }])
  | none => s

/-- A withdrawal by the die of the entry's origin starts (R330): its holder serves loads until it completes. -/
def State.startWdr (s : State) (i : Nat) (r : Route) (o : RouteOp) : State :=
  let s := s.setDie i { s.die i with rops := (s.die i).rops ++ [{ o with fn := 1, pre := r.pre, len := r.len, ver := r.ver, acks := [], born := s.now i, old := some r }] }
  s.passOn i r true

/-- The die's own home has lost to another (R332): an event, and its withdrawal from routing; it stays suppressed here, serving
nothing more, so that writes which still reach it are answered "moved". -/
def State.loseHome (s : State) (i : Nat) (r : Route) : State :=
  let s := match r.region with
    | some g => s.record i { kind := 1, cause := 0x1B, region := g }
    | none => s.setDie i { s.die i with events := (3, r.pre) :: (s.die i).events }
  ((s.putEntry i { r with gone := true }).dropList i r.pre r.len).startWdr i r { t := none, d := 0, fn := 1, pre := r.pre, len := r.len, ver := r.ver, acks := [], born := s.now i, phase := 0 }

/-- The entries of a prefix and length take their states. What becomes installed is passed on; an own home that becomes
suppressed, other than by a move from it, is lost; an own replica without orphan-hold that becomes an orphan is discarded,
and its announcement, if it waits, completes (R325, R335). -/
def State.settleAt (s : State) (i pre len : Nat) : State :=
  let me := s.dieNo i
  let old := s.entriesOf i pre len
  let new := settled me old
  let w := winner (old.filter fun r => r.cls != 1 && !r.gone)
  (old.zip new).foldl (fun s p =>
    let o := p.1
    let r := p.2
    if o.st = r.st then s
    else
      let s := if r.st = .orphan ∧ r.origin = me ∧ !r.hold then s.dropEntry i pre len me else s.putEntry i r
      if r.st = .installed then s.passOn i r false
      else if r.st = .suppressed ∧ r.origin = me ∧ !r.gone ∧ !(w.any fun q => q.movedFrom == some me) then s.loseHome i r
      else if r.st = .orphan ∧ r.origin = me then
        match (s.die i).rops.find? fun x => x.fn == 0 && x.pre == pre && x.len == len with
        | some x => s.ropDone i x (if r.hold then 1 else 3)
        | none => s
      else s) s

/-- The home puts a replica on its forward list and acknowledges it along the reverse path (R326). -/
def State.list (s : State) (i : Nat) (a : Ann) : State :=
  let d := s.die i
  let l := AMap.getD d.fwd (a.pre, a.len) []
  let s := if l.contains a.origin then s else s.setDie i { d with fwd := AMap.set d.fwd (a.pre, a.len) (l ++ [a.origin]) }
  let path := a.path.reverse
  s.ctlPath i path (msgBytes 2 a.pre a.len 0 a.ver (s.dieNo i) a.origin [] path)

/-- Step 5 of R331 at the former home: the parked writes go to the new home in parked order, then the marker, then its own
withdrawal, with moved set. -/
def State.handOver (s : State) (i : Nat) (m : Move) (a : Ann) : State :=
  let me := s.dieNo i
  let path := a.path.reverse
  let s := m.parked.foldl (fun s p => s.send { p with at_ := i, dst := a.origin, fwd := true, plen := m.len, parkedBy := some me, hop := 0, retry := false }) s
  let s := s.ctlPath i path (msgBytes 5 m.pre m.len 0 0 me 0 [] path)
  let s := s.setDie i { s.die i with moves := (s.die i).moves.map fun x => if x = m then { x with parked := [], ended := true } else x }
  match s.entry i m.pre m.len me with
  | none => s
  | some r =>
    let s := (s.putEntry i { r with gone := true }).dropList i m.pre m.len
    s.startWdr i { r with movedFrom := some me } { t := none, d := 0, fn := 1, pre := m.pre, len := m.len, ver := r.ver, acks := [], born := s.now i, phase := 0, movedTo := some a.origin }

/-- An entry finds the table full (R322): it is neither stored nor passed on, and the firmware hears of it. -/
def State.tableFull (s : State) (i pre : Nat) : State := s.setDie i { s.die i with events := (2, pre) :: (s.die i).events }

/-- A dropped announcement is counted at the port it came by (R321). -/
def State.dropAnn (s : State) (i link : Nat) : State :=
  if link < 4 then s.setPort (4 * i + link) { s.port (4 * i + link) with dropAnn := ((s.port (4 * i + link)).dropAnn + 1) % 2 ^ 32 } else s

def State.delCtl (s : State) (n : Nat) : State := { s with ctl := AMap.del s.ctl n }

/-- Cost of the link an announcement came by (R323). -/
def linkCost (m : Ctl345) : Nat := if m.relay then 8 else if m.link < 4 then 4 else 1

/-- An entry is replaced by an announcement of cost `c` that came on a link (R323 step 3). -/
def replaces (a : Ann) (c link : Nat) (r : Route) : Bool :=
  decide (r.ver < a.ver) || (a.ver == r.ver && (decide (c < r.cost) || (c == r.cost && decide (link < r.next)) || link == r.next))

/-- A route announcement at a die (R323). -/
def execAnnouncement (n : Nat) (s : State) : Host.Outcome State Fault Refusal :=
  match AMap.find s.ctl n with
  | none => .next s
  | some m =>
    let i := m.at_
    let me := s.dieNo i
    if fld m.bytes 64 1 ≠ 0 then .next s
    else match parseAnn m.bytes with
      | none => .next ((s.delCtl n).dropAnn i m.link)
      | some a =>
        if a.withdraw then .next s
        else
          let s := s.delCtl n
          let c := a.cost + linkCost m
          let old := s.entry i a.pre a.len a.origin
          if a.path.contains me ∨ 0xFFFF < c then .next s
          else if old.any fun r => !replaces a c m.link r then .next s
          else if old.isNone ∧ 16384 ≤ s.tableSize i then .next (s.tableFull i a.pre)
          else
            let r : Route := { pre := a.pre, len := a.len, cls := a.cls, ready := a.ready, hold := a.hold, ver := a.ver, origin := a.origin, cost := c
                               next := m.link, path := a.path, st := .orphan, backing := 0, region := none, movedFrom := if a.moved then some a.movedFrom else none }
            let changed := old.all fun o => o != { r with st := o.st }
            let s := s.putEntry i r
            -- a withdrawal of the entry from now on is a new one
            let d := s.die i
            let s := if old.isNone then s.setDie i { d with wdrSeen := d.wdrSeen.filter fun k => !(k.1 == a.pre && k.2.1 == a.len && k.2.2.1 == a.origin) } else s
            -- the former home of a move, withdrawn already, has only waited for this
            let s := match (if a.moved then s.entry i a.pre a.len a.movedFrom else none) with
              | some h => if h.gone then s.dropEntry i a.pre a.len a.movedFrom else s
              | none => s
            let s := if changed then s.settleAt i a.pre a.len else s.putEntry i { r with st := (old.map (·.st)).getD .orphan }
            let s := match s.entry i a.pre a.len a.origin with
              | some q => if changed ∧ q.st = .suppressed then s.passOn i q false else if q.st = .installed ∧ q.cls = 1 ∧ (s.entry i a.pre a.len me).any (fun h => h.cls == 0 && h.st == .installed) then s.list i a else s
              | none => s
            match (if a.moved ∧ a.movedFrom = me then (s.die i).moves.find? fun x => x.old && !x.ended && x.pre == a.pre && x.len == a.len else none) with
            | some x => .next (s.handOver i x a)
            | none => .next s

/-- A withdrawal at a die (R323, R396): the entry it names is removed and it is passed on; one that names nothing brings the
die's own installed entry back on the link it came by. The first receipt is acknowledged to the origin. -/
def execWithdrawal (n : Nat) (s : State) : Host.Outcome State Fault Refusal :=
  match AMap.find s.ctl n with
  | none => .next s
  | some m =>
    let i := m.at_
    let me := s.dieNo i
    match parseAnn m.bytes with
    | none => .next s
    | some a =>
      if !a.withdraw then .next s
      else
        let s := s.delCtl n
        if a.path.contains me ∨ a.origin = me then .next s
        else
          let key := (a.pre, a.len, a.origin, a.ver)
          let path := a.path.reverse
          let ack (s : State) : State :=
            if (s.die i).wdrSeen.contains key || !s.inStand a.origin then s
            else (s.setDie i { s.die i with wdrSeen := (s.die i).wdrSeen ++ [key] }).ctlPath i path (msgBytes 1 a.pre a.len a.cls a.ver a.origin me [] path)
          match s.entry i a.pre a.len a.origin with
          | none => .next (ack s)
          | some r =>
            if r.next ≠ m.link then .next (ack (if r.st = .installed then s.ctlOn i m.link (annBytes (r.ann me false)) else s))
            else
              let waits := a.moved && !(s.entriesOf i a.pre a.len).any fun q => q.cls == 0 && q.movedFrom == some a.movedFrom && q.origin != a.origin
              let s := if waits then s.putEntry i { r with gone := true } else s.dropEntry i a.pre a.len a.origin
              let s := s.settleAt i a.pre a.len
              let s := s.passOn i { r with path := a.path, movedFrom := if a.moved then some a.movedFrom else none } true
              let s := if r.cls = 1 then (match AMap.find (s.die i).fwd (a.pre, a.len) with
                | some l => s.setDie i { s.die i with fwd := AMap.set (s.die i).fwd (a.pre, a.len) (l.filter (· != a.origin)) }
                | none => s) else s
              let s := match (s.die i).rops.find? fun o => o.fn == 2 && o.pre == a.pre && o.len == a.len && o.phase == 1 with
                | some o => s.setDie i { s.die i with rops := (s.die i).rops.map fun x => if x = o then { x with phase := 2, born := s.now i } else x }
                | none => s
              .next (ack s)

/-- A withdrawal has completed (R330, R336, R337): status 0 with every acknowledgement, 8 by the limit. Where a move's former
home and its new home are both of this package, the `promo` completes with it. -/
def State.wdrDone (s : State) (i : Nat) (o : RouteOp) (status : Nat) : State :=
  let s := s.ropDone i o status
  let s := match o.movedTo with
    | none => s
    | some _ => s.dropEntry i o.pre o.len (s.dieNo i)
  let s := if o.old.any (·.cls == 1) ∧ !(s.entry i o.pre o.len (s.dieNo i)).any (·.cls == 1) then
    s.setDie i { s.die i with replicas := AMap.del (s.die i).replicas (o.pre, o.len) } else s
  match o.movedTo.bind s.local? with
  | none => s
  | some j => match (s.die j).rops.find? fun x => x.fn == 2 && x.pre == o.pre && x.len == o.len with
    | some x => s.ropDone j x status
    | none => s

/-- The dies of the stand other than one. -/
def State.others (s : State) (me : Nat) : List Nat := (s.flash.pkgs.flatMap fun p => [4 * p, 4 * p + 1, 4 * p + 2, 4 * p + 3]).filter (· != me)

/-- A message of a type that follows a path: forwarded by each die but the last, where `k` takes it (R345). -/
def State.onPath (s : State) (n ty : Nat) (k : State → Ctl345 → State) : State :=
  match AMap.find s.ctl n with
  | none => s
  | some m =>
    if fld m.bytes 64 1 ≠ ty then s
    else
      let path := diesAt m.bytes 24 (fld m.bytes 11 1)
      match nextOn path (s.dieNo m.at_) with
      | some d => match s.linkTo m.at_ d with
        | some l => (s.delCtl n).ctlOn m.at_ l m.bytes
        | none => s.delCtl n
      | none => k (s.delCtl n) m

/-- The withdrawing origin counts an acknowledging die (R323, R330). -/
def execWithdrawalAcknowledgement (n : Nat) (s : State) : Host.Outcome State Fault Refusal :=
  .next (s.onPath n 1 fun s m =>
    let i := m.at_
    let b := m.bytes
    match (s.die i).rops.find? fun o => o.fn == 1 && o.pre == fld b 0 8 && o.len == fld b 8 1 && o.ver == fld b 12 4 with
    | none => s
    | some o =>
      let o' := { o with acks := if o.acks.contains (fld b 18 2) then o.acks else o.acks ++ [fld b 18 2] }
      let s := s.setDie i { s.die i with rops := (s.die i).rops.map fun x => if x = o then o' else x }
      if (s.others (s.dieNo i)).all fun d => o'.acks.contains d then s.wdrDone i o' 0 else s)

/-- A withdrawal completes 4,194,304 cycles after it was sent (R330). -/
def execWithdrawalLimit (die : Nat) (s : State) : Host.Outcome State Fault Refusal :=
  match (s.die die).rops.find? fun o => o.fn == 1 && decide (o.born + 4194304 ≤ s.now die) with
  | none => .next s
  | some o => .next (s.wdrDone die o 8)

/-- The home's acknowledgement reaches the replica's die: its `ann` completes (R326, R335). -/
def execReplicaListingAcknowledgement (n : Nat) (s : State) : Host.Outcome State Fault Refusal :=
  .next (s.onPath n 2 fun s m =>
    let b := m.bytes
    match (s.die m.at_).rops.find? fun o => o.fn == 0 && o.pre == fld b 0 8 && o.len == fld b 8 1 && o.ver == fld b 12 4 with
    | none => s
    | some o => s.ropDone m.at_ o 0)

/-- An unacknowledged replica is withdrawn (R335). -/
def execReplicaAckTimeout (die : Nat) (s : State) : Host.Outcome State Fault Refusal :=
  match (s.die die).rops.find? fun o => o.fn == 0 && decide (o.born + 4194304 ≤ s.now die) with
  | none => .next s
  | some o =>
    let s := match s.entry die o.pre o.len (s.dieNo die) with
      | some r => ((s.dropEntry die o.pre o.len (s.dieNo die)).settleAt die o.pre o.len).startWdr die r { o with t := none }
      | none => s
    .next (s.ropDone die o 9)

/-- R331 steps 1 to 3 at the home: it parks what arrives, and sends its final marker with the forward list. -/
def execPromoteRequest (n : Nat) (s : State) : Host.Outcome State Fault Refusal :=
  .next (s.onPath n 3 fun s m =>
    let i := m.at_
    let me := s.dieNo i
    let b := m.bytes
    let pre := fld b 0 8
    let len := fld b 8 1
    match s.entry i pre len me with
    | none => s
    | some h =>
      if h.cls ≠ 0 ∨ h.st ≠ .installed ∨ h.ver ≠ fld b 12 4 then s
      else
        let r := fld b 16 2
        let list := AMap.getD (s.die i).fwd (pre, len) []
        let mv : Move := { pre, len, peer := r, ver := h.ver, parked := [], list, ended := false, old := true }
        let s := s.setDie i { s.die i with moves := (s.die i).moves ++ [mv] }
        list.foldl (fun s x => match s.entry i pre len x with
          | none => s
          | some e =>
            let path := e.path.reverse
            let s := s.ctlPath i path (msgBytes 4 pre len 0 h.ver me list.length (list.take 95) path)
            (List.range ((list.length - 1) / 95)).foldl (fun s k =>
              let more := (list.drop (95 * (k + 1))).take 95
              s.ctlPath i path (msgBytes 6 pre len 0 0 me more.length more path)) s) s)

/-- Forward-stream writes of a prefix that reached a die before a message. -/
def State.streamBefore (s : State) (n i pre len : Nat) : Bool :=
  s.net.any fun e => decide (e.1 < n) && e.2.fwd && s.local? e.2.dst == some i && prefixOf len e.2.fa == pre

/-- The final marker (R331 steps 3 and 4): the promoting replica announces itself home of the next version, moved from the former
one; another replica now takes the new home's stream. -/
def execMoveFinal (n : Nat) (s : State) : Host.Outcome State Fault Refusal :=
  match AMap.find s.ctl n with
  | none => .next s
  | some m0 =>
    if s.streamBefore n m0.at_ (fld m0.bytes 0 8) (fld m0.bytes 8 1) then .next s
    else .next (s.onPath n 4 fun s m =>
      let i := m.at_
      let me := s.dieNo i
      let b := m.bytes
      let pre := fld b 0 8
      let len := fld b 8 1
      let h := fld b 16 2
      let list := (diesAt b 65 (Nat.min 95 (fld b 18 2))).filter (· != me)
      let d := s.die i
      match s.entry i pre len me, d.rops.find? fun o => o.fn == 2 && o.pre == pre && o.len == len && o.phase == 0 with
      | some r, some o =>
        let mv : Move := { pre, len, peer := h, ver := fld b 12 4 + 1, parked := [], list, ended := false, old := false }
        let s := s.setDie i { d with moves := d.moves ++ [mv], fwd := AMap.set d.fwd (pre, len) list, replicas := AMap.del d.replicas (pre, len)
                                     rops := d.rops.map fun x => if x = o then { x with phase := 1 } else x }
        let s := (s.putEntry i { r with cls := 0, ready := false, ver := fld b 12 4 + 1, st := .orphan, movedFrom := some h }).settleAt i pre len
        match s.entry i pre len me, (s.die i).rops.find? fun o => o.fn == 2 && o.pre == pre && o.len == len && o.phase == 1 with
        | some r, some o => if r.st = .installed then s else s.ropDone i o 2
        | _, _ => s
      | some r, none =>
        if r.cls ≠ 1 then s
        else
          let x := AMap.getD d.replicas (pre, len) {}
          let s := s.setDie i { d with replicas := AMap.set d.replicas (pre, len) { x with src := none, waiting := [] } }
          x.waiting.foldl (fun s p => s.send p) s
      | _, _ => s)

/-- More die numbers of the forward list (R345). -/
def execForwardListContinuation (n : Nat) (s : State) : Host.Outcome State Fault Refusal :=
  .next (s.onPath n 6 fun s m =>
    let b := m.bytes
    let pre := fld b 0 8
    let len := fld b 8 1
    let more := (diesAt b 65 (Nat.min 95 (fld b 18 2))).filter (· != s.dieNo m.at_)
    let d := s.die m.at_
    if d.moves.any fun x => !x.old && x.pre == pre && x.len == len then
      s.setDie m.at_ { d with fwd := AMap.set d.fwd (pre, len) (AMap.getD d.fwd (pre, len) [] ++ more) }
    else s)

/-- The parked-end marker: the new home applies what it has held (R331 step 6). -/
def execMoveParkedEnd (n : Nat) (s : State) : Host.Outcome State Fault Refusal :=
  match AMap.find s.ctl n with
  | none => .next s
  | some m0 =>
    if s.streamBefore n m0.at_ (fld m0.bytes 0 8) (fld m0.bytes 8 1) then .next s
    else .next (s.onPath n 5 fun s m =>
      let d := s.die m.at_
      let b := m.bytes
      s.setDie m.at_ { d with moves := d.moves.map fun x => if !x.old && x.pre == fld b 0 8 && x.len == fld b 8 1 then { x with ended := true } else x })

/-- A promote request times out (R331). Where the former home is of another package, this die is not told when its withdrawal
has completed, or how: the `promo` then completes by the limit, with 0 or 8 by a free value (log entry 29). -/
def execPromoTimeout (die : Nat) (s : State) : Host.Outcome State Fault Refusal :=
  match (s.die die).rops.find? fun o => o.fn == 2 && decide (o.born + 4194304 ≤ s.now die) && (o.phase == 0 || o.phase == 2) with
  | none => .next s
  | some o =>
    if o.phase = 0 then .next (s.ropDone die o 7)
    else
      let (v, s) := s.fresh
      .next (s.ropDone die o (if v.getLsbD 0 then 8 else 0))

/-! ### The rop family (R333-R338) -/

/-- The route functions give their status at once, to the thread and to its copies. -/
def answerNow (s : State) (rs : List Reg) (k : State → List Reg → Res) : Res :=
  k (s.answer s.cur s.myGrp.num true (.ok rs)) rs

/-- What a route function asked for is out; the lane waits (R333). -/
def State.ropWait (s : State) (d fn pre len ver : Nat) : State × RouteOp :=
  let o : RouteOp := { t := some s.cur, d, fn, pre, len, ver, acks := [], born := s.now s.cur.die, phase := 0, gnum := s.myGrp.num }
  (s.setDie s.cur.die { s.die s.cur.die with rops := (s.die s.cur.die).rops ++ [o] }, o)

/-- The announcement tuple's limits (R333). -/
def tupleOk (pre w2 : Nat) : Bool :=
  let len := bits w2 0 8
  decide (1 ≤ len) && decide (len ≤ 60) && decide (bits w2 8 8 < 3) && bits w2 18 14 == 0 && pre % 2 ^ (64 - len) == 0

/-- A route function: its tuple is read and checked, then `act` asks the route agent for prefix, the tuple's word 2 and the
version. -/
def rop (i : Instr) (s : State) (d a : Nat) (extra : State → List Reg) (act : State → Nat → Nat → Nat → List Reg → Res) : Host.Outcome State Fault Refusal :=
  run i s fun s =>
    let rs := (List.range 4).map fun k => s.readF (a + k)
    let xs := extra s
    let w (k : Nat) : Nat := (rs.getD k {}).v.toNat
    let pre := w 0 + 2 ^ 32 * w 1
    if rs.any (·.p) || xs.any (·.p) then .consume s
    else if !tupleOk pre (w 2) then trapFree s 0x02
    else answered s (fun s rs => .next (s.give 0 d rs)) fun s => act (s.log [15, pre, w 2, w 3]) pre (w 2) (w 3) xs

def statusReg (n : Nat) : List Reg := [{ v := BitVec.ofNat 32 n }]

/-- `ann` (R335). -/
def execAnn (ct : Ctl) (d a b : BitVec 7) (s : State) : Host.Outcome State Fault Refusal :=
  rop (.ann ct d a b) s d.toNat a.toNat (fun s => if b.toNat < 120 then [s.readF b.toNat, s.readF (b.toNat + 1)] else []) fun s pre w2 ver xs =>
    let i := s.cur.die
    let me := s.dieNo i
    let len := bits w2 0 8
    let cls := bits w2 8 8
    let size := 2 ^ (64 - len)
    let back := if xs = [] then pre else (xs.getD 0 {}).v.toNat + 2 ^ 32 * (xs.getD 1 {}).v.toNat
    let fits := (back % size == 0) && back / 2 ^ 48 == me && ((back % 2 ^ 48 + size ≤ 0x1800000000) ||
      (decide (0xF00000000000 ≤ back % 2 ^ 48) && decide (back % 2 ^ 48 + size ≤ 0xF00000000000 + 2 ^ 28)))
    let fin (s : State) (n : Nat) : Res := answerNow s (statusReg n) fun s rs => .next (s.give 0 d.toNat rs)
    let own := (s.entry i pre len me).filter fun r => !r.gone
    let here := s.entriesOf i pre len
    if cls = 2 ∨ !fits then fin s 5
    else if own.any fun r => decide (ver < r.ver) then fin s 6
    else if cls = 1 ∧ ((here.any fun r => r.cls == 2 && r.st == .installed) || own.any fun r => r.cls == 0) then fin s 5
    else if cls = 1 ∧ !(here.any fun r => r.cls == 0 && r.st == .installed) ∧ !bit w2 17 then fin s 3
    else if (s.entry i pre len me).isNone ∧ 16384 ≤ s.tableSize i then fin s 4
    else if own.any fun r => r.ver == ver && r.cls == cls then fin s 0
    else
      let r : Route := { pre, len, cls, ready := bit w2 16, hold := bit w2 17, ver, origin := me, cost := 0, next := 8, path := [], st := .orphan
                         backing := back, region := some s.myGrp.region, movedFrom := none }
      let rep : Replica := if own.any (·.cls == 1) then AMap.getD (s.die i).replicas (pre, len) {} else {}
      let rep : Replica := { rep with marks := if bit w2 16 then [] else rep.marks }
      let s := if cls = 1 then s.setDie i { s.die i with replicas := AMap.set (s.die i).replicas (pre, len) rep } else s
      let s := (s.putEntry i r).settleAt i pre len
      match (s.entry i pre len me).map (fun (r : Route) => r.st) with
      | some .installed => if cls = 0 then fin s 0 else .wait (s.ropWait d.toNat 0 pre len ver).1 .dev
      | some .orphan => fin s 1
      | _ => fin s 2

/-- `wdr` (R336). -/
def execWdr (ct : Ctl) (d a : BitVec 7) (s : State) : Host.Outcome State Fault Refusal :=
  rop (.wdr ct d a) s d.toNat a.toNat (fun _ => []) fun s pre w2 ver _ =>
    let i := s.cur.die
    let me := s.dieNo i
    let len := bits w2 0 8
    match (s.entry i pre len me).filter fun r => !r.gone with
    | none => answerNow s (statusReg 5) fun s rs => .next (s.give 0 d.toNat rs)
    | some r =>
      if r.cls ≠ bits w2 8 8 ∨ r.ver ≠ ver then answerNow s (statusReg 5) fun s rs => .next (s.give 0 d.toNat rs)
      else
        let s := ((s.dropEntry i pre len me).dropList i pre len).settleAt i pre len
        .wait (s.startWdr i r { t := some s.cur, d := d.toNat, fn := 1, pre, len, ver, acks := [], born := 0, phase := 0, gnum := s.myGrp.num }) .dev

/-- `promo` (R331, R337). -/
def execPromo (ct : Ctl) (d a : BitVec 7) (s : State) : Host.Outcome State Fault Refusal :=
  rop (.promo ct d a) s d.toNat a.toNat (fun _ => []) fun s pre w2 ver _ =>
    let i := s.cur.die
    let me := s.dieNo i
    let len := bits w2 0 8
    let own := (s.entry i pre len me).any fun r => r.cls == 1 && r.ready && r.st == .installed
    match (s.entriesOf i pre len).find? fun r => r.cls == 0 && r.st == .installed with
    | none => answerNow s (statusReg 5) fun s rs => .next (s.give 0 d.toNat rs)
    | some h =>
      if !own ∨ h.ver ≠ ver then answerNow s (statusReg 5) fun s rs => .next (s.give 0 d.toNat rs)
      else
        let path := h.path.reverse
        .wait ((s.ropWait d.toNat 2 pre len ver).1.ctlPath i path (msgBytes 3 pre len 0 ver me 0 [] path)) .dev

/-- The four words of `rqry` (R338). -/
def State.rqryWords (s : State) (i fa : Nat) : List Reg :=
  let l := s.loadRoute i fa
  let h := s.homeRoute i fa
  let f {α : Type} (o : Option α) (g : α → Nat) : Nat := match o with | some x => g x | none => 0
  let orphan := (s.matching i fa).any fun r => r.st == .orphan && decide (f l (·.len) ≤ r.len)
  let w (n : Nat) : Reg := { v := BitVec.ofNat 32 n }
  [w (f l (·.origin) * 65536 + f l (·.cls) * 256 + f l (·.len)), w (f l (·.cost) * 65536 + f h (·.origin)), w (f h (·.ver)),
   w (orphan.toNat * 1024 + h.isSome.toNat * 512 + l.isSome.toNat * 256 + f h (·.len))]

/-- `rqry` (R338). -/
def execRqry (ct : Ctl) (d a : BitVec 7) (s : State) : Host.Outcome State Fault Refusal :=
  run (.rqry ct d a) s fun s =>
    let x := s.readD a.toNat
    if x.2 then .consume s else .next (s.give 0 d.toNat (s.rqryWords s.cur.die x.1.toNat))

end

end Sys2Proof.Machine
end

