-- ==== Sys2Proof/Machine/Port.lean ====
section
/-! DEFINITION. Port: the Galzan ports of a die: frames, flits and packets out and in, allowances, training, parking, waking,
loss of lock and reconfiguration, and the link functions of `dev` (R339-R355, R394, R397-R400). -/

namespace Sys2Proof.Machine

open Sys2Proof

noncomputable section

/-! ### Wavelengths and the semaphore (R339, R382) -/

def lanesIn (x : Port) (f : LState) : List Nat := (List.range 8).filter fun k => x.lanes.getD k .dark == f
def setLanes (l : List LState) (ks : List Nat) (f : LState) : List LState := l.zipIdx.map fun e => if ks.contains e.2 then f else e.1
def maskLanes (m : Nat) : List Nat := bitsSet 8 m

/-- Root regions whose context is live (R382). -/
def State.rootsLive (s : State) : List Nat :=
  (s.regions.filter fun e => e.2.parent == 0 && e.2.st == 0 && (match AMap.find s.ctxs e.2.ctx with
    | some c => c.live
    | none => false)).map (·.1)

/-- The semaphore is freed where a party held it, with an event in every root region (R382). -/
def State.freeSem (s : State) (code : Nat) : State :=
  if s.sem ≠ code then s
  else
    let s := { s with sem := 0 }
    s.rootsLive.foldl (fun s r => s.recordIn 0 r { kind := 1, cause := 0x1D, cno := s.cno ⟨0, 0⟩, trapval := code }) s

/-- A link function completes: its status goes to its thread (R355). -/
def State.linkDone (s : State) (q status : Nat) : State :=
  let x := s.port q
  match x.op with
  | none => s
  | some o => (s.setPort q { x with op := none }).answer o.t o.gnum true (.ok (statusReg status))

/-- Every entry whose next hop is a port is withdrawn at its die (R323, R339, R354). -/
def State.dropHop (s : State) (q : Nat) : State :=
  let i := q / 4
  ((s.die i).routes.filter fun r => r.next == q % 4).foldl (fun s r =>
    let s := s.dropEntry i r.pre r.len r.origin
    let s := if r.st = .installed then s.passOn i r true else s
    s.settleAt i r.pre r.len) s

/-- A port enters failed (R339). -/
def State.failPort (s : State) (q : Nat) : State :=
  let x := s.port q
  let ls := setLanes (setLanes x.lanes (lanesIn x .carrying) .failed) (lanesIn x .waking) .failed
  let s := s.putPort q { x with st := .failed, lanes := ls, carry := [], width := 0, newCarry := none, marked := none, frame := [], named := [], parking := [] }
  let s := s.dropHop q
  let s := s.setDie (q / 4) { s.die (q / 4) with events := (4, q) :: (s.die (q / 4)).events }
  let s := if q = s.flash.master0 then s.freeSem 1 else if q = s.flash.master1 then s.freeSem 2 else s
  match x.op with
  | none => s
  | some o => s.linkDone q (if x.st = .training ∨ o.fn = 4 then 7 else 6)

/-- Outside waking and reconfiguration a port with carrying wavelengths is parked where a parked one remains (R339, R399). -/
def Port.settle (x : Port) : Port :=
  if x.st = .active ∨ x.st = .parked then { x with st := if lanesIn x .parked = [] then .active else .parked } else x

/-! ### Training (R351) -/

/-- A meeting marker's payload (R342, R381): versions, the four allowances, and the stand number. -/
def State.meeting (s : State) (x : Port) : List Byte :=
  let peers := Nat.max 1 (((x.sched.filter (· != 0xFFFF)).foldl (fun (l : List Nat) a => if l.contains a then l else l ++ [a]) []).length)
  pad 256 ([3] ++ leBytes 2 1 ++ leBytes 1 1 ++ leBytes 2 (2048 / peers) ++ leBytes 2 (2048 / peers) ++ leBytes 2 (7680 / peers) ++
    leBytes 2 (2048 / peers) ++ leBytes 2 s.flash.stand)

/-- A marker or control flit is queued, ahead of everything or behind it. -/
def State.queueFlit (s : State) (q : Nat) (ahead : Bool) (bs : List Byte) : State :=
  let x := s.port q
  let p : Pkt := { kind := 201, at_ := q / 4, cells := cellsAt 0 bs, via := x.peer }
  s.setPort q { x with txq := if ahead then p :: x.txq else x.txq ++ [p] }

/-- Training starts from named wavelengths under a schedule. -/
def State.startTrain (s : State) (q : Nat) (sched : List Nat) (slot : Nat) (names : List Nat) (op : Option LinkOp) : State :=
  let x := s.port q
  let x : Port := { x with st := .training, lanes := setLanes (setLanes x.lanes [0, 1, 2, 3, 4, 5, 6, 7] .dark) names .waking, named := names, since := s.now (q / 4) }
  let peer := if sched = [] then x.peer else sched.getD slot 0xFFFF
  let x : Port := { x with sched, slot, peer, op, greeted := [peer], met := [], someFailed := false, newSched := none }
  let x : Port := { x with carry := [], width := 0, newCarry := none, marked := none, frame := [], group := 0, parking := [] }
  let x : Port := { x with drainSent := false, drainGot := false, finalSent := false, finalGot := false, newMark := none, seqIn := [], halves := [] }
  let x : Port := { x with allow := if sched = [] then x.allow else x.allow.filter fun e => sched.contains e.1.1 }
  (s.putPort q x).queueFlit q true (s.meeting x)

/-- The bring-up entries of this package in a die's table, as routes to announce (R317). -/
def State.bringUpTable (s : State) (i : Nat) : List Route :=
  ([0, 1, 2, 3] : List Nat).flatMap fun j =>
    let n := s.dieNo j
    ([dramBase n, dramBase n + 2 ^ 36, callAddr n] ++ (List.range 64).map fun v => vaultBase n v).flatMap fun fa => s.bringUpRoute i j fa

/-- A die sends its table to a new neighbour (R351); orphans are not passed on (R325). -/
def State.sendTable (s : State) (q : Nat) : State :=
  let i := q / 4
  ((s.bringUpTable i ++ (s.die i).routes).filter fun r => r.st != .orphan && !r.gone).foldl (fun s r =>
    let a := r.ann (s.dieNo i) false
    if 16 < a.path.length then s else s.ctlOn i (q % 4) (annBytes a)) s

/-- Training ends where every named wavelength has locked and a version is agreed. -/
def State.trained (s : State) (q : Nat) : State :=
  let x := s.port q
  if x.st = .training ∧ x.named = [] ∧ x.met ≠ [] then
    let up := lanesIn x .waking
    let x : Port := { x with st := .active, lanes := setLanes x.lanes up .carrying, carry := up, width := up.length, group := 0, ver := 1, relocks := (x.relocks + 1) % 2 ^ 32 }
    ((s.putPort q x).linkDone q 0).sendTable q
  else s

/-- The last woken wavelength has locked or failed (R353, R399): the wider width is decided. -/
def State.wakeEnd (s : State) (q : Nat) : State :=
  let x := s.port q
  if x.st = .waking ∧ x.named = [] then
    let up := lanesIn x .waking
    let base := x.newCarry.getD (x.marked.getD x.carry)
    let x : Port := { x with st := .active, newCarry := if up = [] then x.newCarry else some ((List.range 8).filter fun k => base.contains k || up.contains k) }
    let s := s.putPort q x.settle
    if up = [] then s.linkDone q 6 else s
  else s

/-- A wavelength locks (R353). -/
def execWavelengthLock (port lane : Nat) (s : State) : Host.Outcome State Fault Refusal :=
  let x := s.port port
  if !(x.named.contains lane) then .next s
  else
    let x : Port := { x with named := x.named.filter (· != lane) }
    let x : Port := if x.st = .training then { x with carry := (List.range 8).filter fun k => k == lane || x.carry.contains k } else x
    .next (((s.putPort port x).trained port).wakeEnd port)

/-- No lock within 300,000 cycles (R339). -/
def execTrainingTimeout (port : Nat) (s : State) : Host.Outcome State Fault Refusal :=
  let x := s.port port
  if x.st = .training ∧ x.since + 300000 ≤ s.now (port / 4) then .next (s.failPort port) else .next s

/-- A woken wavelength not locked within 60,000 cycles fails (R353). -/
def execWakeLockTimeout (port : Nat) (s : State) : Host.Outcome State Fault Refusal :=
  let x := s.port port
  if x.st = .waking ∧ x.named ≠ [] ∧ x.since + 60000 ≤ s.now (port / 4) then
    .next ((s.putPort port { x with lanes := setLanes x.lanes x.named .failed, named := [], someFailed := true }).wakeEnd port)
  else .next s

/-- A carrying wavelength loses lock and is failed at once; the narrower width applies as R399 states (R339). -/
def execLossOfLock (port lane : Nat) (s : State) : Host.Outcome State Fault Refusal :=
  let x := s.port port
  if x.lanes.getD lane .dark ≠ .carrying then .next s
  else
    let x : Port := { x with lanes := setLanes x.lanes [lane] .failed, parking := x.parking.filter (· != lane) }
    let x : Port := { x with newCarry := some ((x.newCarry.getD (x.marked.getD x.carry)).filter (· != lane)) }
    let s := s.putPort port x
    if lanesIn x .carrying = [] then .next (s.failPort port) else .next s

/-! ### Sending (R341, R342, R347, R349, R400) -/

def Port.permits (x : Port) (peer cls : Nat) : Bool :=
  let a := x.allowOf peer cls
  decide ((a.s + 65536 - a.k) % 65536 < a.a)

/-- A flit takes the next position of the frame in progress: its header carries a return count in rotating order, and the width mark
where it stands last. -/
def State.emit (s : State) (q : Nat) (h : FlitHead) (payload : List Byte) : State :=
  let x := s.port q
  let seq := AMap.getD x.seqOut (x.peer, h.cls) 0
  let numbered := h.kind != 1
  let mark := x.frame.length == 3 && x.newCarry.isSome && x.marked.isNone
  let h : FlitHead := { h with retCls := x.retClass, ret := (x.allowOf x.peer x.retClass).freed, seq := if numbered then seq else 0
                               change := if mark then x.newCarry.map List.length else none }
  let x : Port := { x with frame := x.frame ++ [h.bytes ++ pad 256 payload], retClass := (x.retClass + 1) % 4, sinceRefresh := x.sinceRefresh + 1 }
  let x : Port := if numbered then { x with seqOut := AMap.set x.seqOut (x.peer, h.cls) ((seq + 1) % 256) } else x
  let x : Port := if mark then { x with marked := x.newCarry, newCarry := none } else x
  s.setPort q x

def Port.refreshDue (x : Port) : Bool := decide (255 ≤ x.sinceRefresh)

/-- A rotor's port starts no frame later than two frame times before the next expected marker (R349). -/
def State.guarded (s : State) (q : Nat) : Bool :=
  let x := s.port q
  decide (1 < x.sched.length) && decide (0 < x.slotLen) && x.frame == [] &&
    decide ((x.lastMarker + x.slotLen) * (100 * x.carry.length) < s.now (q / 4) * (100 * x.carry.length) + 2 * 12288)

/-- The port may fill the frame in progress. -/
def State.sending (s : State) (q : Nat) : Bool :=
  let x := s.port q
  decide (0 < x.carry.length) && decide (x.frame.length < 4) && !s.guarded q

/-- The class in which a queued item goes to the matched peer: its own; relay where it is queued for another destination of the stand
(R349). -/
def State.sendClass (s : State) (x : Port) (p : Pkt) : Option Nat :=
  if p.kind = 201 then some 3
  else if 1 < x.sched.length ∧ p.via ≠ x.peer then (if p.kind ≠ 200 ∧ s.inStand p.dst ∧ x.peer ≠ 0xFFFF then some 2 else none)
  else some (if p.kind = 200 then 3 else kindClass p.kind)

/-- The first queued item that may be sent, and its place and class. -/
def State.nextItem (s : State) (x : Port) : Option (Pkt × Nat × Nat) :=
  let ok (relay : Bool) (e : Pkt × Nat) : Option (Pkt × Nat × Nat) :=
    match s.sendClass x e.1 with
    | none => none
    | some c =>
      let reqs := c == 0 || c == 2
      if (c == 2) == relay && (e.1.kind == 201 || x.permits x.peer c) && (x.st != .training || e.1.kind == 201) && !(reqs && x.drainSent)
          && !(x.prog.any fun f => f.1 == (x.peer, c) && f.2 != []) then some (e.1, e.2, c) else none
  match x.txq.zipIdx.findSome? (ok false) with
  | some r => some r
  | none => x.txq.zipIdx.findSome? (ok true)

/-- A flit of a packet goes out and takes an allowance of its class; it leaves the depth as its transmission begins (R347, R398). -/
def State.sendFlit (s : State) (q cls : Nat) (f : Flit) : State :=
  let s := s.emit q { cls, kind := 0, first := f.first, last := f.last, poisoned := f.poisoned } f.bytes
  let x := s.port q
  let a := x.allowOf x.peer cls
  (s.setPort q { x with allow := AMap.set x.allow (x.peer, cls) { a with s := (a.s + 1) % 65536 } }).depthChanged q

/-- A drain or final marker has gone (R354). -/
def Port.markSent (x : Port) (code : Nat) : Port :=
  if code = 1 then { x with drainSent := true } else if code = 2 then { x with finalSent := true } else x

/-- What the port sends next: the flits of a packet in transmission, then the oldest item it may send. -/
def State.transmit (s : State) (q : Nat) : State :=
  let x := s.port q
  match x.prog.find? fun e => e.2 != [] && e.1.1 == x.peer && x.permits x.peer e.1.2 with
  | some (c, f :: fs) => (s.setPort q { x with prog := AMap.set x.prog c fs }).sendFlit q c.2 f
  | _ => match s.nextItem x with
    | none => s
    | some (p, k, c) =>
      let rest := x.txq.take k ++ x.txq.drop (k + 1)
      if p.kind = 201 then
        let bs := p.cells.map (·.2)
        let x := x.markSent (bs.getD 0 0).toNat
        ((s.setPort q { x with txq := rest }).emit q { cls := 3, kind := 3 } bs).depthChanged q
      else
        let p : Pkt := { p with relayed := p.relayed || c == 2 }
        let bs := s.flitPayloads p
        let fl : List Flit := bs.zipIdx.map fun b => { cls := c, kind := 0, first := b.2 == 0, last := b.2 + 1 == bs.length, poisoned := false, seq := 0, bytes := b.1 }
        match fl with
        | [] => s.setPort q { x with txq := rest }
        | f :: fs => (s.setPort q { x with txq := rest, prog := AMap.set x.prog (x.peer, c) fs }).sendFlit q c f

/-- Step 3 of R354: with the peer's drain marker received and the responses owed sent, the final marker follows. -/
def State.tryFinal (s : State) (q : Nat) : State :=
  let x := s.port q
  let i := q / 4
  if x.st = .reconfiguring ∧ x.drainSent ∧ x.drainGot ∧ !x.finalSent ∧ !(x.txq.any fun p => p.kind == 201) ∧ x.prog.all (fun e => e.2 == [])
      ∧ !(x.txq.any fun p => kindClass p.kind == 1) ∧ !(s.requests.any fun p => p.port == some (q % 4) && p.at_ == i)
      ∧ !(s.net.any fun e => kindClass e.2.kind == 1 && x.owed.contains (e.2.dst, e.2.acc)) then
    s.queueFlit q false (pad 256 [2])
  else s

/-- The port goes dark, its allowances held; a schedule waits for its epoch (R354 steps 4 and 5). -/
def State.goDark (s : State) (q : Nat) : State :=
  let x := s.port q
  let x' : Port := { x with st := .dark, lanes := setLanes x.lanes [0, 1, 2, 3, 4, 5, 6, 7] .dark, carry := [], width := 0, newCarry := none, marked := none, named := [] }
  let x' : Port := { x' with frame := [], prog := [], txq := [], halves := [], parking := [], owed := [] }
  let s := (s.putPort q x').depthChanged q
  match x.op with
  | none => s
  | some o =>
    if o.fn = 3 then s.linkDone q 0
    else if x.lastMarker = 0 then s.startTrain q o.slots 0 [0, 1, 2, 3, 4, 5, 6, 7] (some o)
    else match x.newMark with
      | some (e, k) => (s.startTrain q o.slots k [0, 1, 2, 3, 4, 5, 6, 7] (some o)).putPort q { (s.startTrain q o.slots k [0, 1, 2, 3, 4, 5, 6, 7] (some o)).port q with epoch := e }
      | none => s.putPort q { s.port q with newSched := some o.slots }

/-- Both final markers have crossed (R354 step 4). -/
def State.tryDark (s : State) (q : Nat) : State :=
  let x := s.port q
  if x.st = .reconfiguring ∧ x.finalSent ∧ x.finalGot then s.goDark q else s

/-- A refresh flit, with the return counts of all four classes. -/
def State.refresh (s : State) (q : Nat) : State :=
  let x := s.port q
  let s := s.emit q { cls := 3, kind := 2 } (([0, 1, 2, 3] : List Nat).flatMap fun c => leBytes 2 (x.allowOf x.peer c).freed)
  s.setPort q { s.port q with sinceRefresh := 0 }

/-- A port sends a queued packet, a flit at a time, in its slot while its allowance permits (R347, R349); a refresh that is due goes
first (R400). -/
def execPacketTransmit (port : Nat) (s : State) : Host.Outcome State Fault Refusal :=
  let s := s.tryFinal port
  let x := s.port port
  if !s.sending port ∨ x.refreshDue ∧ x.st ≠ .training then .next s else .next ((s.transmit port).tryDark port)

/-- A refresh flit that is due takes the next position (R342, R400). -/
def execRefreshDue (port : Nat) (s : State) : Host.Outcome State Fault Refusal :=
  if !s.sending port ∨ !(s.port port).refreshDue then .next s else .next (s.refresh port)

/-- The functions that end when a width comes into force (R355, R399). -/
def State.inForce (s : State) (q : Nat) : State :=
  let x := s.port q
  match x.op with
  | some o => if o.fn = 0 ∧ x.parking = [] then s.linkDone q 0
      else if o.fn = 1 ∧ x.st ≠ .waking ∧ x.st ≠ .training ∧ lanesIn x .waking = [] then s.linkDone q (if x.someFailed then 6 else 0) else s
  | none => s

/-- The marked width applies from the new frame on, with the group count at 0 (R341). -/
def State.applyWidth (s : State) (q : Nat) : State :=
  let x := s.port q
  match x.marked with
  | none => s
  | some c =>
    let parked := x.parking.filter fun k => !c.contains k
    let woken := (lanesIn x .waking).filter c.contains
    let x : Port := { x with carry := c, width := c.length, group := 0, marked := none, parking := x.parking.filter c.contains }
    let x : Port := { x with lanes := setLanes (setLanes x.lanes parked .parked) woken .carrying }
    (s.putPort q x.settle).inForce q

/-- A position with no flit ready takes an idle flit, or the refresh that is due (R400). -/
def State.emitIdle (s : State) (q : Nat) : State :=
  let x := s.port q
  if x.refreshDue ∧ x.st ≠ .training then s.refresh q else s.emit q idleHead []

/-- The frame clock: empty positions take idle flits, the frame goes out striped over the carrying wavelengths, and a marked width
change applies (R340, R341, R400). -/
def execFrameBoundary (port : Nat) (s : State) : Host.Outcome State Fault Refusal :=
  if (s.port port).carry = [] ∨ s.guarded port then .next s
  else
    let s := (List.range (4 - (s.port port).frame.length)).foldl (fun s _ => s.emitIdle port) s
    let x := s.port port
    let s := s.setPort port { x with frame := [], out := stripe x.carry x.group (frameBytes x.frame), group := (x.group + 288) % x.carry.length }
    .next (((s.applyWidth port).tryFinal port).tryDark port)

/-! ### Receiving (R346, R347) -/

/-- A returned count is accepted, or ignored and counted (R347). -/
def Port.returned (x : Port) (cls v : Nat) : Port :=
  let a := x.allowOf x.peer cls
  if (v + 65536 - a.k) % 65536 ≤ (a.s + 65536 - a.k) % 65536 then { x with allow := AMap.set x.allow (x.peer, cls) { a with k := v % 65536 } }
  else { x with ignored := (x.ignored + 1) % 2 ^ 32 }

def Port.drop (x : Port) : Port := { x with dropped := (x.dropped + 1) % 2 ^ 32 }

/-- A response from outside is made whole with what its request left here. -/
def Rider.whole (r : Rider) (p : Pkt) : Pkt :=
  let b := p.cells.map (·.2)
  let n := if r.comb then 1 else r.lanes.length
  let at_ := 4 * r.trail.length
  let mask := leNat ((b.drop (at_ + 8 * n)).take 4)
  let lost (o k : Nat) : Bool := p.pois.any fun a => decide (o ≤ a) && decide (a < o + k)
  let vals := (List.range n).map fun k => (leNat ((b.drop (at_ + 8 * k)).take 8), bit mask k || lost (at_ + 8 * k) 8 || lost (at_ + 8 * n) 4)
  let p : Pkt := { p with trail := r.trail, back := r.back, push := r.push, aop := r.aop, lanes := r.lanes, comb := r.comb }
  match p.kind with
  | 3 => if r.want = [] then p else { p with cells := p.cells.filter fun c => r.want.contains c.1 }
  | 5 => { p with cells := [], pois := [], val := ((vals.headD (0, false)).1), poisoned := vals.any (·.2)
                  lanes := if r.comb then r.lanes else (r.lanes.zip vals).map fun e => { e.1 with v := e.2.1, bad := e.2.2 } }
  | _ => p

/-- A code for why a request was refused, which the packet does not carry (R344): full at a queue, protection elsewhere. -/
def refusedCode (p : Pkt) : Pkt := if p.kind = 8 then { p with val2 := if p.push then 0 else 0x0D } else p

/-- A packet that has come in by a port goes on its way at its die, from the port's relay point (R193, R344). -/
def State.arrive (s : State) (q cls : Nat) (p : Pkt) : State :=
  let x := s.port q
  let p : Pkt := { p with port := some (q % 4), via := x.peer, relay := cls == 2, sw := 1 + q % 4, came := s.now (q / 4), inp := 0 }
  if kindClass p.kind = 1 ∧ cls ≠ 2 then
    match AMap.find s.riders (p.dst, p.acc) with
    | some r => { s with riders := AMap.del s.riders (p.dst, p.acc) }.send (refusedCode (r.whole p))
    | none => s.send (refusedCode p)
  else
    let p : Pkt := if isRequest p then { p with back := [.port (q % 4) x.peer], nth := s.nextId } else p
    let p : Pkt := if p.kind = 0 then { p with push := match (s.local? p.dst).bind fun j => s.queueAt j p.fa with
      | some _ => true
      | none => false } else p
    let p : Pkt := if p.fwd ∧ (s.die (q / 4)).moves.any (fun m => !m.old && !m.ended && prefixOf m.len p.fa == m.pre && m.peer != p.src) then
        { p with parkedBy := ((s.die (q / 4)).moves.find? fun m => !m.old && !m.ended && prefixOf m.len p.fa == m.pre).map (·.peer) } else p
    let p : Pkt := if p.fwd ∧ p.kind ≠ 15 then { p with plen := match (s.matching (q / 4) p.fa).find? fun r => r.cls == 1 && r.origin == p.dst with
      | some r => r.len
      | none => 0 } else p
    let s := if isRequest p && cls ≠ 2 then s.setPort q { s.port q with owed := (s.port q).owed ++ [(p.src, p.acc)] } else s
    s.send p

/-- The relay area of a packet that goes no further is freed (R347). -/
def Port.unrelay (x : Port) (cls n : Nat) : Port := if cls = 2 then x.free 2 n else x

/-- The flits of a whole packet (R343, R344, R346). -/
def State.packetIn (s : State) (q cls : Nat) (fs : List Flit) : State :=
  let freed := s.setPort q ((s.port q).unrelay cls fs.length)
  match s.parsePacket (q / 4) (fs.map fun f => (f.bytes, f.poisoned)) with
  | .lost => freed.putPort q (freed.port q).drop
  | .bad p =>
    if isRequest p then freed.send { reply p (q / 4) 9 with dst := p.src, src := p.dst }
    else if kindClass p.kind = 1 then freed.arrive q 1 { p with kind := 9 }
    else freed.putPort q (freed.port q).drop
  | .ok p => s.arrive q cls p

/-- The peer a flit comes from: that of the slot whose marker has come, be it yet to be acted on. -/
def Port.from_ (x : Port) : Nat :=
  match x.rxq.reverse.find? fun f => f.kind == 3 && (f.bytes.getD 0 0).toNat == 4 with
  | some f => if x.sched = [] then x.peer else x.sched.getD (fld f.bytes 1 1) 0xFFFF
  | none => x.peer

/-- The peer of a fixed port becomes known: what was kept of it stands under its number. -/
def Port.learn (x : Port) (n : Nat) : Port :=
  let k (p : Nat) : Nat := if p = 0xFFFF then n else p
  let keyed {α : Type} (m : AMap (Nat × Nat) α) : AMap (Nat × Nat) α := m.map fun e => ((k e.1.1, e.1.2), e.2)
  { x with peer := n, allow := keyed x.allow, seqOut := keyed x.seqOut, seqIn := keyed x.seqIn, prog := keyed x.prog, halves := keyed x.halves
           greeted := x.greeted.map k, met := x.met.map k, peerStand := x.peerStand.map fun e => (k e.1, e.2) }

/-- A peer of a listed package whose marker carries another stand number lies outside the stand: the firmware hears of it (R381). -/
def State.standCheck (s : State) (q : Nat) : State :=
  let x := s.port q
  let d := s.die (q / 4)
  if s.flash.pkgs.contains (x.peer / 4) ∧ x.peer ≠ 0xFFFF ∧ (AMap.find x.peerStand x.peer).any (· != s.flash.stand) then
    s.setDie (q / 4) { d with events := (5, q) :: d.events } else s

/-- A flit with an intact header, from the port's present peer (R342, R345, R346). -/
def State.flitAt (s : State) (q : Nat) (h : FlitHead) (bs : List Byte) (bad : Bool) : State :=
  let x := (s.port q).returned h.retCls h.ret
  if h.kind = 1 then s.putPort q x
  else
    let key := (x.peer, h.cls)
    let gap := match AMap.find x.seqIn key with
      | some e => e != h.seq
      | none => false
    let lost := if gap then (AMap.getD x.halves key []).length else 0
    let x : Port := { x.unrelay h.cls lost with seqIn := AMap.set x.seqIn key ((h.seq + 1) % 256), halves := if gap then AMap.del x.halves key else x.halves }
    let f : Flit := { cls := h.cls, kind := h.kind, first := h.first, last := h.last, poisoned := h.poisoned || bad, seq := h.seq, bytes := bs }
    if h.kind ≠ 0 then s.putPort q (if f.poisoned then x.drop else { x with rxq := x.rxq ++ [f] })
    else if h.cls = 3 then
      let x := x.free 3 1
      let ty := (bs.getD 64 0).toNat
      if f.poisoned ∨ 7 ≤ ty then s.putPort q { x with dropAnn := (x.dropAnn + 1) % 2 ^ 32 }
      else
        let last := fld bs (24 + 2 * (fld bs 11 1 - 1)) 2
        let new := ty == 0 && x.peer == 0xFFFF && x.sched == []
        let x : Port := if new then x.learn last else x
        let m : Ctl345 := { at_ := q / 4, link := q % 4, bytes := bs.take 255, relay := ty == 0 && x.peer != last }
        let s := s.putPort q x
        let s := if new then s.standCheck q else s
        { s with ctl := AMap.set s.ctl s.nextId m, nextId := s.nextId + 1 }
    else
      let x := if h.cls = 2 then x else x.free h.cls 1
      let old := AMap.getD x.halves key []
      let x := if h.first then x.unrelay h.cls old.length else x
      let part := if h.first then [] else old
      if !h.first ∧ part = [] then s.putPort q (x.unrelay h.cls 1).drop
      else
        let fs := part ++ [f]
        if h.last then (s.putPort q { x with halves := AMap.del x.halves key }).packetIn q h.cls fs
        else s.putPort q { x with halves := AMap.set x.halves key fs }

/-- A flit with an intact header. -/
def State.flitIn (s : State) (q : Nat) (h : FlitHead) (bs : List Byte) (bad : Bool) : State :=
  let x := s.port q
  if x.from_ = x.peer then s.flitAt q h bs bad
  else
    let s := (s.setPort q { x with peer := x.from_ }).flitAt q h bs bad
    s.setPort q { s.port q with peer := x.peer }

/-- A frame of 1,152 bytes is decoded, corrected, poisoned or dropped (R340, R346). -/
def execFrameReceived (port : Nat) (bytes : List (BitVec 8)) (s : State) : Host.Outcome State Fault Refusal :=
  if bytes.length ≠ 1152 ∨ (s.port port).st = .dark ∧ (s.port port).newSched.isNone then .next s
  else
    let raw := (List.range 4).map fun c => codeword bytes c
    let dec := raw.map rsDecode
    let bad := dec.any (·.isNone)
    let ws := (raw.zip dec).map fun e => match e.2 with
      | some r => r.1
      | none => e.1
    let fixed := (dec.filter fun d => match d with
      | some r => r.2 != 0
      | none => false).length
    let f := weave (ws.getD 0 []) (ws.getD 1 []) (ws.getD 2 []) (ws.getD 3 [])
    let x := s.port port
    let s := s.putPort port { x with corrected := (x.corrected + fixed) % 2 ^ 64, poisonedFrames := (x.poisonedFrames + bad.toNat) % 2 ^ 32 }
    .next (([0, 1, 2, 3] : List Nat).foldl (fun s k =>
      let fl := (f.drop (272 * k)).take 272
      match parseHead fl with
      | none => s.putPort port (s.port port).drop
      | some h => s.flitIn port h (fl.drop 16) bad) s)

/-- The oldest refresh or marker flit received, of a kind and code. -/
def Port.head (x : Port) (kind code : Nat) : Option (Flit × Port) :=
  match x.rxq with
  | f :: l => if f.kind = kind ∧ (kind = 2 ∨ (f.bytes.getD 0 0).toNat = code) then some (f, { x with rxq := l }) else none
  | [] => none

/-- A refresh flit delivers all four return counts (R342, R347). -/
def execRefreshFlit (port : Nat) (s : State) : Host.Outcome State Fault Refusal :=
  match (s.port port).head 2 0 with
  | none => .next s
  | some (f, x) => .next (s.putPort port (([0, 1, 2, 3] : List Nat).foldl (fun x c => x.returned c (fld f.bytes (2 * c) 2)) x))

/-- A meeting marker: versions, allowances and the stand number (R342, R351, R381). -/
def execMeetingMarker (port : Nat) (s : State) : Host.Outcome State Fault Refusal :=
  match (s.port port).head 3 3 with
  | none => .next s
  | some (f, x) =>
    let allow := ([0, 1, 2, 3] : List Nat).foldl (fun (m : AMap (Nat × Nat) Allow) c =>
      AMap.set m (x.peer, c) { AMap.getD m (x.peer, c) {} with a := Nat.min 32768 (fld f.bytes (4 + 2 * c) 2) }) x.allow
    let new := !x.met.contains x.peer
    let s := s.putPort port { x with allow, peerStand := AMap.set x.peerStand x.peer (fld f.bytes 12 2), met := if new then x.met ++ [x.peer] else x.met }
    let s := s.standCheck port
    if x.st = .training then .next (if fld f.bytes 1 2 = 0 ∨ fld f.bytes 3 1 = 0 then s.failPort port else s.trained port)
    else .next (if new then s.sendTable port else s)

/-- A slot marker begins a slot (R349), of the schedule in force whatever its epoch (R394), or starts the training that a
reconfiguration waits for (R354 step 5). -/
def execSlotMarker (port : Nat) (s : State) : Host.Outcome State Fault Refusal :=
  match (s.port port).head 3 4 with
  | none => .next s
  | some (f, x) =>
    let k := fld f.bytes 1 1
    let e := fld f.bytes 2 2
    let now := s.now (port / 4)
    let x : Port := { x with lastMarker := now, slotLen := if x.lastMarker = 0 then 0 else now - x.lastMarker }
    let waits := x.op.any fun o => o.fn == 4
    if waits ∧ e ≠ x.oldEpoch ∧ (x.st = .reconfiguring ∨ x.newSched.isSome) then
      match x.newSched with
      | some l =>
        let s := (s.putPort port x).startTrain port l k [0, 1, 2, 3, 4, 5, 6, 7] x.op
        .next (s.putPort port { s.port port with epoch := e })
      | none => .next (s.putPort port { x with newMark := some (e, k) })
    else if x.st = .reconfiguring ∨ x.newSched.isSome then .next (s.putPort port x)
    else
      let peer := if x.sched = [] then x.peer else x.sched.getD k 0xFFFF
      let x : Port := { x with slot := k, epoch := e, peer, sinceRefresh := if 1 < x.sched.length then 256 else x.sinceRefresh }
      if peer ≠ 0xFFFF ∧ !x.greeted.contains peer ∧ 1 < x.sched.length then
        .next ((s.putPort port { x with greeted := x.greeted ++ [peer] }).queueFlit port true (s.meeting x))
      else .next (s.putPort port x)

/-- The peer's drain marker (R354 step 3). -/
def execDrainMarker (port : Nat) (s : State) : Host.Outcome State Fault Refusal :=
  match (s.port port).head 3 1 with
  | none => .next s
  | some (_, x) => .next ((s.putPort port { x with drainGot := true }).tryFinal port)

/-- The peer's final marker: with both crossed the port goes dark (R354 step 4). -/
def execFinalMarker (port : Nat) (s : State) : Host.Outcome State Fault Refusal :=
  match (s.port port).head 3 2 with
  | none => .next s
  | some (_, x) => .next ((s.putPort port { x with finalGot := true }).tryDark port)

/-- A reconfiguring port goes dark after 1,048,576 cycles (R354 step 4). -/
def execDarkTimeout (port : Nat) (s : State) : Host.Outcome State Fault Refusal :=
  let x := s.port port
  if x.st = .reconfiguring ∧ x.since + 1048576 ≤ s.now (port / 4) then .next (s.goDark port) else .next s

/-- The depth word and flag are rewritten at the end of the interval, where the depth differs from the value last written (R397). -/
def execDepthRewrite (port : Nat) (s : State) : Host.Outcome State Fault Refusal :=
  let x := s.port port
  match x.lastRewrite with
  | none => .next s
  | some t => if t + 64 ≤ s.now (port / 4) ∧ s.depthOf x ≠ x.depthWord then .next (s.rewriteDepth port) else .next s

/-- An earlier packet waits in the same queue of a relay point, of one final destination and class (R350). -/
def State.relayBefore (s : State) (n : Nat) (p : Pkt) : Bool :=
  s.net.any fun e => decide (e.1 < n) && e.2.relay && e.2.at_ == p.at_ && e.2.port == p.port && e.2.dst == p.dst && kindClass e.2.kind == kindClass p.kind

/-- A relayed packet leaves the relay area: to its own die, or on by the die's table as a packet of its class; without a route it is
discarded (R350). One at its 17th hop is answered with a redirect (R329). -/
def execRelayPacket (n : Nat) (s : State) : Host.Outcome State Fault Refusal :=
  match AMap.find s.net n with
  | none => .next s
  | some p =>
    if !p.relay || s.relayBefore n p then .next s
    else
      let i := p.at_
      let q := 4 * i + p.port.getD 0
      let s := s.setPort q ((s.port q).free 2 (s.flitsOf p))
      let p : Pkt := { p with relay := false }
      if s.purged i p then .next (s.dropPurged n i p)
      else if s.local? p.dst = some i ∨ kindClass p.kind = 1 ∧ (AMap.find s.riders (p.dst, p.acc)).isSome then
        .next ((s.delPkt n).arrive q (kindClass p.kind) p)
      else if isRequest p ∧ 16 ≤ p.hop then .next (s.redirectFrom n i p true)
      else .next ((s.setPkt n p).hopTo n p p.dst)

/-! ### The link functions (R355, R399) -/

/-- Reconfiguration starts: steps 1 and 2 of R354. -/
def State.reconfigure (s : State) (q : Nat) (o : LinkOp) : State :=
  let x := s.port q
  let s := s.putPort q { x with st := .reconfiguring, since := s.now (q / 4), op := some o, oldEpoch := x.epoch, newMark := none, drainSent := false, finalSent := false, finalGot := false }
  ((s.dropHop q).queueFlit q false (pad 256 [1])).depthChanged q

/-- What acceptance of a link function comes to: a status at once, or its beginning (R355, R399). -/
def State.acceptLink (s : State) (i : Nat) (o : LinkOp) : State :=
  let q := o.port
  let x := s.port q
  let fin (s : State) (n : Nat) : State := s.answer o.t o.gnum true (.ok (statusReg n))
  let names := maskLanes o.mask
  let busy := x.op.isSome || x.newCarry.isSome || x.marked.isSome
  let up := lanesIn x .carrying
  if q / 4 ≠ i then fin s 1
  else match o.fn with
    | 0 =>
      let go := names.filter up.contains
      if (x.st ≠ .active ∧ x.st ≠ .parked) ∨ busy then fin s 2
      else if go ≠ [] ∧ up.all go.contains then fin s 3
      else
        let s := s.putPort q { x with thresh := o.thresh }
        if go = [] then fin s 0
        else s.putPort q { s.port q with parking := go, newCarry := some (up.filter fun k => !go.contains k), op := some o }
    | 1 =>
      if x.st = .dark ∨ x.st = .failed then
        if x.newSched.isSome then fin s 2 else s.startTrain q x.sched x.slot names (some o)
      else if (x.st ≠ .active ∧ x.st ≠ .parked) ∨ busy then fin s 2
      else if names.all up.contains then fin s 0
      else
        let wk := names.filter (lanesIn x .parked).contains
        if wk = [] then fin s 2
        else s.putPort q { x with st := .waking, lanes := setLanes x.lanes wk .waking, named := wk, since := s.now i, op := some o
                                  someFailed := names.any (lanesIn x .failed).contains }
    | _ =>
      if (x.st ≠ .active ∧ x.st ≠ .parked) ∨ busy then fin s 2
      else if s.sem ≠ 0x10 + i then fin s 4
      else if o.badTable then fin s 5
      else s.reconfigure q o

/-- The port complex accepts the oldest link function of a die (R399). -/
def execLinkFunctionAccept (die : Nat) (s : State) : Host.Outcome State Fault Refusal :=
  match (s.die die).linkq with
  | [] => .next s
  | o :: l => .next ((s.setDie die { s.die die with linkq := l }).acceptLink die o)

/-- A link function is on its way to the port complex; its lane waits for the status. -/
def State.askLink (s : State) (o : LinkOp) : Res :=
  let d := s.die s.cur.die
  .wait (s.setDie s.cur.die { d with linkq := d.linkq ++ [o] }) .dev

/-- A link function: its operands are checked in the order of R355. `ok` is the limit on its second word. -/
def linkFn (i : Instr) (s : State) (d a l : Nat) (ok : Nat → Bool) (act : State → LinkOp → List Reg → Res) (fn : Nat) : Host.Outcome State Fault Refusal :=
  run i s fun s =>
    let rs := (List.range l).map fun k => s.readF (a + k)
    let w (k : Nat) : Nat := (rs.getD k {}).v.toNat
    if rs.any (·.p) then .consume s
    else if 15 < w 0 ∨ !ok (w 1) then trapFree s 0x02
    else
      let o : LinkOp := { t := s.cur, d, fn, port := w 0, mask := w 1 % 256, thresh := bits (w 1) 16 16, slots := [], badTable := false, born := s.now s.cur.die, gnum := s.myGrp.num }
      act s o rs

/-- `lnkpark` (R355, R399). -/
def execLnkpark (ct : Ctl) (d a : BitVec 7) (s : State) : Host.Outcome State Fault Refusal :=
  linkFn (.lnkpark ct d a) s d.toNat a.toNat 2 (fun v => bits v 8 8 == 0 && v % 256 != 0) (fun s o _ =>
    answered s (fun s rs => .next (s.give 0 d.toNat rs)) fun s => (s.log [16, o.port, o.mask, o.thresh]).askLink o) 0

/-- `lnkwake` (R355, R399). -/
def execLnkwake (ct : Ctl) (d a : BitVec 7) (s : State) : Host.Outcome State Fault Refusal :=
  linkFn (.lnkwake ct d a) s d.toNat a.toNat 2 (fun v => v / 256 == 0 && v % 256 != 0) (fun s o _ =>
    answered s (fun s rs => .next (s.give 0 d.toNat rs)) fun s => (s.log [17, o.port, o.mask]).askLink o) 1

/-- `lnkstat` (R355): status bytes 0-15 at once. -/
def execLnkstat (ct : Ctl) (d a : BitVec 7) (s : State) : Host.Outcome State Fault Refusal :=
  run (.lnkstat ct d a) s fun s =>
    let x := s.readF a.toNat
    let q := x.v.toNat
    if x.p then .consume s
    else if 15 < q then trapFree s 0x02
    else if q / 4 ≠ s.cur.die then trapAt s 0x02 q
    else answered s (fun s rs => .next (s.give 0 d.toNat rs)) fun s =>
      let b := (s.port q).status
      answerNow s ((List.range 4).map fun k => { v := BitVec.ofNat 32 (fld b (4 * k) 4) }) fun s rs => .next (s.give 0 d.toNat rs)

/-- `lnkdrain` (R354, R355). -/
def execLnkdrain (ct : Ctl) (d a : BitVec 7) (s : State) : Host.Outcome State Fault Refusal :=
  linkFn (.lnkdrain ct d a) s d.toNat a.toNat 1 (fun _ => true) (fun s o _ =>
    answered s (fun s rs => .next (s.give 0 d.toNat rs)) fun s => (s.log [18, o.port]).askLink o) 3

/-- `lnksched` (R354, R355): its table is read at issue on the lsu path. A read that expires or meets its fourth redirect leaves
everything as it is, the destination included. -/
def execLnksched (ct : Ctl) (d a : BitVec 7) (s : State) : Host.Outcome State Fault Refusal :=
  linkFn (.lnksched ct d a) s d.toNat a.toNat 4 (fun v => v / 64 == 0) (fun s o rs =>
    let n := (rs.getD 1 {}).v.toNat % 64 + 1
    let va := (rs.getD 2 {}).v.toNat + 2 ^ 32 * (rs.getD 3 {}).v.toNat
    if va % 4 ≠ 0 then trapFree s 0x02
    else answered s (fun s rs => .next (s.give 0 d.toNat rs)) fun s =>
      match State.readWords n s va with
      | .stop r => match r with
        | .trap s c va after => if c = 0x0F then .next (s.limitHit va) else .trap s c va after
        | r => r
      | .lost s => .next s
      | .ok s bs =>
        if bs.any (·.2) then .consume s
        else
          let ws := (List.range n).map fun k => leNat (((bs.drop (4 * k)).take 4).map (·.1))
          (s.log (19 :: o.port :: ws)).askLink { o with slots := ws.map (· % 65536), badTable := ws.any fun w => decide (65536 ≤ w) }) 4

end

end Sys2Proof.Machine
end

