-- ==== Sys2Proof/Machine/Purge.lean ====
section
/-! DEFINITION. Purge: purges of a request tag, the `purge` function, and the package semaphore's functions (R199, R208, R363-R365,
R382, R383). -/

namespace Sys2Proof.Machine

open Sys2Proof

noncomputable section

/-! ### What a die does on receipt of a purge (R364 phase 1) -/

/-- A group bears a tag: its launch record carries it, or a live thread holds it (R356). -/
def State.bears (s : State) (g : GroupId) (x : Group) (tag : BitVec 16) : Bool :=
  x.tag == tag || s.threads.any fun e => decide (gidOf e.1 = g) && liveThr e.2 && e.2.tag == tag
def OutGroup.bears (o : OutGroup) (tag : BitVec 16) : Bool := o.g.tag == tag || o.thr.any fun e => liveThr e.2 && e.2.tag == tag

/-- Held records of the die's queues that have not begun dispatch are removed, and launches of the tag that have begun it create no
further group; one that is complete stays so (R287, R292). -/
def State.purgeRecords (s : State) (i : Nat) (tag : BitVec 16) : State :=
  let s := s.removeRecords fun y e => y.die == i && BitVec.ofNat 16 (bits ((s.heldWords y e).getD 1 {}).v.toNat 16 16) == tag
  State.clamp { s with launches := s.launches.map fun e => if e.2.die = i ∧ launchTag e.2 = tag ∧ e.2.phase < 5 then (e.1, { e.2 with dead := true }) else e }

/-- The launch of a killed group creates no further group (R292); a bind pending for it is withdrawn. -/
def State.killLaunch (s : State) (l : Option Nat) : State :=
  match l with
  | none => s
  | some l => match AMap.find s.launches l with
    | none => s
    | some x => (s.setLaunch l { x with dead := true }).clamp

def State.withdrawBinds (s : State) (i : Nat) : State :=
  let dead (b : Bind) : Bool := b.valid && !b.restore && ((AMap.find s.launches b.launch).map (·.dead)).getD false
  let d := s.die i
  s.setDie i { d with slots := d.slots.map fun e => if dead e.2 then (e.1, { e.2 with valid := false }) else e }

/-- Resident groups end as by a group fault without an entry; a group that is out retires without restore, and its unit is free once
that has no command left (R221). -/
def State.purgeGroups (s : State) (i : Nat) (tag : BitVec 16) : State :=
  let hit := s.groups.filter fun e => e.1.die == i && s.bears e.1 e.2 tag
  let s := hit.foldl (fun s e => (s.endGroup e.1).killLaunch e.2.launch) s
  let gone := s.outs.filter fun o => o.was.die == i && o.bears tag
  let nums := gone.map fun o => o.g.num
  let s := { s with outs := s.outs.filter fun o => !(o.was.die == i && o.bears tag) }
  let d := s.die i
  let s := s.setDie i { d with slots := d.slots.map fun e => if e.2.restore ∧ nums.contains e.2.num then (e.1, { e.2 with valid := false }) else e }
  let s : State := { s with parts := s.parts.map fun e => if (e.2.unit.bound.any fun n => nums.contains n) ∧ e.2.unit.q = [] then
      (e.1, { e.2 with unit := e.2.unit.release [] 0 }) else e }
  (gone.foldl (fun s o => ((s.discard i (o.thr.flatMap fun e => e.2.held)).killLaunch o.g.launch).settleGroup i o.g o.g.cycles) s).withdrawBinds i

/-- A purge stops a command in flight: it waits for nothing, and its completion follows. -/
def Cmd.purged (f : Cmd → Bool) (c : Cmd) : Cmd := if f c then { c with done := true, stopped := true, outs := [] } else c

/-- Commands are dropped where queued and stopped where in flight (R208); each counts as complete (R218). -/
def cleanEngine (f : Cmd → Bool) (x : Engine) : Engine :=
  { x with q := x.q.filter (fun c => !f c), fly := x.fly.map (Cmd.purged f) }
def State.purgeCommands (s : State) (i : Nat) (tag : BitVec 16) : State :=
  let f (c : Cmd) : Bool := c.tag == tag && c.core.die == i
  let unit (u : MUnit) : MUnit := { u with q := (u.q.filter fun c => !(f c && !c.started)).map (Cmd.purged f) }
  let gone (x : Engine) : List Nat := (x.q.filter f).flatMap fun c => if c.fn = 1 then [c.num, c.num + 1] else [c.num]
  let nums := s.copies.flatMap (fun e => gone e.2) ++ (s.clusters.flatMap fun e => gone e.2.chain ++ gone e.2.psum ++ gone e.2.walk) ++
    s.parts.flatMap fun e => (e.2.unit.q.filter fun c => f c && !c.started).map (·.num)
  let s := nums.foldl (fun s n => s.drained i n) s
  let s : State := { s with copies := s.copies.map fun e => (e.1, cleanEngine f e.2) }
  let s : State := { s with clusters := s.clusters.map fun e => (e.1, { e.2 with chain := cleanEngine f e.2.chain, psum := cleanEngine f e.2.psum, walk := cleanEngine f e.2.walk }) }
  { s with parts := s.parts.map fun e => (e.1, { e.2 with unit := unit e.2.unit }) }

/-- Tile tasks and fault-buffer entries of the tag leave the die's cores (R238). -/
def State.purgeCores (s : State) (i : Nat) (tag : BitVec 16) : State :=
  { s with cores := s.cores.map fun e => if e.1.die = i then
      (e.1, { e.2 with tasks := e.2.tasks.filter fun k => k.2.cmd.tag != tag, fbuf := e.2.fbuf.filter fun p => p.tag != tag }) else e }

/-- Commit buffers of threads of the tag are emptied (R360). -/
def State.purgeHeld (s : State) (i : Nat) (tag : BitVec 16) : State :=
  let gone := (s.threads.filter fun e => e.1.die == i && e.2.tag == tag).flatMap fun e => e.2.held.map (·.num)
  let s : State := { s with threads := s.threads.map fun e => if e.1.die = i ∧ e.2.tag = tag then (e.1, { e.2 with held := [], cmds := [] }) else e }
  gone.foldl (fun s n => s.drained i n) s

/-- Accesses of the tag that the die has made are over (R218). What one of a thread that lives on would have brought is lost
(DESIGN CHOICE, log entry 38). -/
def State.purgeAccs (s : State) (i : Nat) (tag : BitVec 16) : State :=
  (s.accs.filter fun e => e.2.tag == tag && e.2.core.die == i && (match e.2.owner with
    | .part => false
    | .firmware _ => false
    | _ => true)).foldl (fun s e => match e.2.owner with
    | .thread t => match e.2.kind with
      | .push => let r := freshPoison 1 (s.overAcc e.1 e.2); r.1.answer t e.2.gnum true (.ok r.2)
      | .qlen => let r := freshPoison 1 (s.overAcc e.1 e.2); r.1.answer t e.2.gnum true (.ok r.2)
      | _ => s.loseAcc e.1 e.2 0x11
    | .launch l => if e.2.kind = .atomic then State.overAcc { s with launches := AMap.del s.launches l } e.1 e.2 else s.overAcc e.1 e.2
    | _ => s.overAcc e.1 e.2) s

/-- Hold-buffer entries leave; held writes are skipped (R243). -/
def State.purgeHolds (s : State) (i : Nat) (tag : BitVec 16) : State :=
  let d := s.die i
  let mine (p : Pkt) : Bool := p.tag == tag && !p.mixed
  let s := s.setDie i { d with holdW := d.holdW.filter (fun p => !mine p), holdL := d.holdL.filter fun p => !mine p }
  (d.holdW.filter mine).foldl (fun s p => s.skipTurns i p) s

/-- Combine wait-buffer entries (R199). -/
def State.purgePairs (s : State) (i : Nat) (tag : BitVec 16) : State :=
  let d := s.die i
  let f (e : Nat × Pair) : Option (Nat × Pair) :=
    let x : Pair := { e.2 with killE := e.2.killE || (e.2.early.tag == tag && !e.2.early.mixed), killL := e.2.killL || (e.2.late.tag == tag && !e.2.late.mixed) }
    if x.killE && x.killL then none else some (e.1, x)
  s.setDie i { d with pairs := d.pairs.filterMap f }

/-- A request that no switch of a die has paired (R199). -/
def Pkt.unpaired (p : Pkt) (die : Nat) : Bool := (p.trail.getLast?).all fun e => e.1 != die

/-- Requests queued at the die's switches and ports and packets of its relay area are dropped. -/
def State.purgeNet (s : State) (i : Nat) (tag : BitVec 16) : State :=
  let mine (p : Pkt) : Bool := p.tag == tag && !p.mixed && isRequest p && p.unpaired (s.dieNo i)
  let hit := s.net.filter fun e => e.2.at_ == i && (mine e.2 || (e.2.relay && e.2.tag == tag && !e.2.mixed))
  let s := hit.foldl (fun s e => s.dropPurged e.1 i e.2) s
  (([0, 1, 2, 3] : List Nat).map (4 * i + ·)).foldl (fun s q =>
    let gone := (s.port q).txq.filter mine
    if gone = [] then s
    else (gone.foldl (fun s p => s.skipTurns i p) (s.setPort q { s.port q with txq := (s.port q).txq.filter fun p => !mine p })).depthChanged q) s

/-- Every action of phase 1 at a die. -/
def State.purgeDie (s : State) (i : Nat) (tag : BitVec 16) : State :=
  let s := (s.purgeRecords i tag).purgeGroups i tag
  let s := (s.purgeCommands i tag).purgeCores i tag
  let s := (s.purgeHeld i tag).purgeHolds i tag
  ((s.purgePairs i tag).purgeNet i tag).purgeAccs i tag

/-! ### The two phases (R364, R365) -/

/-- A purge packet of a phase at its die, or one hop on its way to it. -/
def State.purgePkt (s : State) (n phase : Nat) (k : State → Nat → Pkt → State) : State :=
  match AMap.find s.net n with
  | none => s
  | some p =>
    if p.kind ≠ 13 ∨ p.val2 ≠ phase then s
    else if s.local? p.dst ≠ some p.at_ then s.hopTo n p p.dst
    else k (s.delPkt n) p.at_ p

/-- Phase 1 at a die: the tag is set in its filter, which holds 16; the die's actions; its acknowledgement. -/
def execPurgeStart (n : Nat) (s : State) : Host.Outcome State Fault Refusal :=
  .next (s.purgePkt n 0 fun s i p =>
    let d := s.die i
    let c := AMap.getD d.filter p.tag.toNat 0
    if c = 0 ∧ 16 ≤ d.filter.length then s.setDie i { d with purgeWait := d.purgeWait ++ [p] }
    else
      let s := s.setDie i { d with filter := AMap.set d.filter p.tag.toNat (c + 1) }
      (s.purgeDie i p.tag).send { kind := 13, at_ := i, dst := p.origin, src := s.dieNo i, tag := p.tag, origin := p.origin, val := p.tag.toNat, val2 := 1 })

/-- The starting die counts an acknowledging die; with every die's, it broadcasts release (R364 phase 2). -/
def execPurgeAcknowledgement (n : Nat) (s : State) : Host.Outcome State Fault Refusal :=
  .next (s.purgePkt n 1 fun s i p =>
    let d := s.die i
    match d.purges.find? fun x => x.tag == p.tag && !x.released && !x.acks.contains p.src with
    | none => s
    | some x =>
      let me := s.dieNo i
      let all := me :: s.others me
      let y : PurgeOp := { x with acks := x.acks ++ [p.src] }
      let y : PurgeOp := { y with released := all.all fun k => y.acks.contains k }
      let s := s.setDie i { d with purges := d.purges.map fun z => if z = x then y else z }
      if y.released then
        all.foldl (fun s k => s.send { kind := 13, at_ := i, dst := k, src := me, tag := p.tag, origin := me, val := p.tag.toNat, val2 := 2 }) s
      else s)

/-- A purge is complete at its starting die: its entry in the fault record, and 0 to the thread of a `purge` (R363-R365). -/
def State.purgeDone (s : State) (i : Nat) (x : PurgeOp) : State :=
  let s := s.record i { kind := 3, cause := x.cause, tag := x.tag.toNat, region := x.region }
  match x.t with
  | some (t, g) => s.answer t (BitVec.ofNat 64 g) true (.ok [{}])
  | none => s

/-- A release at a die: the filter's entry for the tag counts down, and is cleared by as many releases as starts (R365). -/
def execPurgeRelease (n : Nat) (s : State) : Host.Outcome State Fault Refusal :=
  .next (s.purgePkt n 2 fun s i p =>
    let d := s.die i
    let c := AMap.getD d.filter p.tag.toNat 0
    if 1 < c then s.setDie i { d with filter := AMap.set d.filter p.tag.toNat (c - 1) }
    else
      let fin := d.purges.filter fun x => x.tag == p.tag && x.released
      let d := { d with filter := AMap.del d.filter p.tag.toNat, purges := d.purges.filter fun x => !(x.tag == p.tag && x.released) }
      let s := match d.purgeWait with
        | [] => s.setDie i d
        | w :: l => (s.setDie i { d with purgeWait := l }).send w
      fin.foldl (fun s x => s.purgeDone i x) s)

/-! ### `purge`, `semacq`, `semrel` (R363, R383) -/

/-- `purge` (R363). -/
def execPurge (ct : Ctl) (d a : BitVec 7) (s : State) : Host.Outcome State Fault Refusal :=
  run (.purge ct d a) s fun s =>
    let x := s.readF a.toNat
    let v := x.v.toNat
    let r := s.effTag treeDepth s.myGrp.region
    if x.p then .consume s
    else if 65536 ≤ v then trapFree s 0x02
    else if v < r.1 ∨ r.2 < v then trapAt s 0x02 v
    else answered s (fun s rs => .next (s.give 0 d.toNat rs)) fun s =>
      .wait ((s.log [20, v]).startPurge s.cur.die (BitVec.ofNat 16 v) 0 s.myGrp.region (some (s.cur, s.myGrp.num.toNat))) .dev

/-- The holder code of a die, and the word of a refusal (R382, R383). -/
def dieCode (i : Nat) : Nat := 0x10 + i
def refusal (holder : Nat) : Nat := holder * 256 + 2

/-- What a request for the semaphore with a holder code does and returns (R382, R383). -/
def State.semAcquire (s : State) (code : Nat) : State × Nat :=
  if s.sem = 0 then ({ s with sem := code }, 0) else if s.sem = code then (s, 1) else (s, refusal s.sem)
def State.semRelease (s : State) (code : Nat) : State × Nat :=
  if s.sem = code then ({ s with sem := 0 }, 0) else (s, refusal s.sem)

/-- `semacq` (R383). -/
def execSemacq (ct : Ctl) (d : BitVec 7) (s : State) : Host.Outcome State Fault Refusal :=
  run (.semacq ct d) s fun s =>
    answered s (fun s rs => .next (s.give 0 d.toNat rs)) fun s =>
      let r := (s.log [21]).semAcquire (dieCode s.cur.die)
      answerNow r.1 (statusReg r.2) fun s rs => .next (s.give 0 d.toNat rs)

/-- `semrel` (R383). -/
def execSemrel (ct : Ctl) (d : BitVec 7) (s : State) : Host.Outcome State Fault Refusal :=
  run (.semrel ct d) s fun s =>
    answered s (fun s rs => .next (s.give 0 d.toNat rs)) fun s =>
      let r := (s.log [22]).semRelease (dieCode s.cur.die)
      answerNow r.1 (statusReg r.2) fun s rs => .next (s.give 0 d.toNat rs)

end

end Sys2Proof.Machine
end

