-- ==== Sys2Proof/Machine/Firmware.lean ====
section
/-! DEFINITION. Firmware: the calls that the management firmware serves, reset and freeze, power, and the test port
(R376-R391, R299-R307, R313-R316). -/

namespace Sys2Proof.Machine

open Sys2Proof

noncomputable section

/-! ### Calls (R377, R378) -/

/-- A field of a call record, little-endian. -/
def Entry.fld (e : Entry) (o n : Nat) : Nat := leNat (((e.words.flatMap fun w => leBytes 4 w.v.toNat).drop o).take n)

/-- The step that serves a call: functions 1 to 19 by their operations. A function that is none of them is served with the version
query, and ends with status 1. -/
def Entry.step (e : Entry) : Nat :=
  let op := e.fld 16 1
  match e.fld 1 1 with
  | 1 => if op = 1 then 2 else if op = 2 then 3 else 1
  | 2 => if op = 1 then 5 else if op = 2 then 6 else 4
  | 3 => if op = 1 then 8 else 7
  | 4 => 9
  | 5 => 10
  | 6 => 11
  | 7 => if bit op 1 then 13 else 12
  | 8 => if op = 1 then 15 else 14
  | 9 => if op = 1 then 17 else 16
  | 10 => 18
  | 11 => 19
  | 12 => 20
  | 14 => if e.fld 2 2 = 1 then 23 else 22
  | 15 => 24
  | 16 => 25
  | 17 => 26
  | 18 => 27
  | 19 => 28
  | _ => 21

/-- Functions that need the semaphore (R378). -/
def needsSem (fn : Nat) : Bool := fn == 12 || fn == 16 || fn == 17 || fn == 18 || fn == 19

/-- The holder code of a caller, where it may call (R376, R377): a master, or a die of the package for a region with system
privilege. -/
def State.callerCode (s : State) (e : Entry) : Option Nat :=
  let c := e.fld 4 2
  if c = 0xFFF0 then some 1 else if c = 0xFFF1 then some 2
  else match s.local? c with
    | some j => if s.effSys treeDepth (e.fld 6 2) then some (dieCode j) else none
    | none => none

/-- The argument bytes a function names (R379): offsets and lengths. -/
def argBytes (k : Nat) : List (Nat × Nat) :=
  match k with
  | 1 => [(16, 4), (24, 18), (48, 8)]
  | 2 => [(16, 1), (18, 2)]
  | 3 => [(16, 1), (18, 2)]
  | 4 => [(16, 1), (24, 8)]
  | 5 => [(16, 1), (18, 2), (24, 8)]
  | 6 => [(16, 1), (18, 2)]
  | 7 => [(16, 1), (24, 8)]
  | 8 => [(16, 1), (24, 8)]
  | 9 => [(16, 1), (18, 2), (24, 16)]
  | 10 => [(18, 2), (24, 16)]
  | 11 => [(18, 2)]
  | 12 => [(16, 1), (18, 2), (24, 8)]
  | 13 => [(16, 1), (18, 2), (24, 8)]
  | 14 => [(16, 1)]
  | 15 => [(16, 1)]
  | 16 => [(16, 1)]
  | 17 => [(16, 1)]
  | 18 => [(16, 2), (18, 2)]
  | 19 => [(24, 4)]
  | 20 => [(18, 2)]
  | 21 => [(24, 8)]
  | 22 => [(16, 48)]
  | 24 => [(16, 2)]
  | 25 => [(24, 12)]
  | 28 => [(24, 8)]
  | _ => []

def Entry.argsClean (e : Entry) (k : Nat) : Bool :=
  (List.range 48).all fun j => (argBytes k).any (fun r => decide (r.1 ≤ 16 + j) && decide (16 + j < r.1 + r.2)) || e.fld (16 + j) 1 == 0

/-- What a call comes to. -/
inductive FwRes where
  /-- Status, result, and the outputs to be written before the completion word. -/
  | done (s : State) (status result : Nat) (outs : List (Nat × List Byte))
  /-- A read it needs is under way. -/
  | wait (s : State)
  /-- The package freezes or resets: no completion word. -/
  | gone (s : State)

def fwOk (s : State) (result : Nat := 0) : FwRes := .done s 0 result []
def fwBad (s : State) : FwRes := .done s 1 0 []

/-- The oldest call of a die. -/
def State.callHead (s : State) (d : Nat) : Option (Queue × Entry) :=
  match s.queue? (callKey d) with
  | none => none
  | some y => y.entries.head?.map fun e => (y, e)

/-- A call ends: its entry leaves the queue and its completion word is written (R377). -/
def State.endCall (s : State) (d : Nat) (f : FwEnd) : State :=
  let s := s.setDie d { s.die d with fw := none }
  let s := match s.queue? (callKey d) with
    | some y => s.setQueue (callKey d) { y with entries := y.entries.drop 1 }
    | none => s
  (s.partWrite d f.addr (leBytes 4 f.status ++ leBytes 4 f.result)).1

/-- The outputs of a call leave; the completion word follows once they are acknowledged. -/
def State.finishCall (s : State) (d addr status result : Nat) (outs : List (Nat × List Byte)) : State :=
  if outs = [] then s.endCall d { ids := [], addr, status, result }
  else
    let r := outs.foldl (fun (r : State × List Nat) o => let x := r.1.partWrite d o.1 o.2; (x.1, r.2 ++ [x.2])) (s, [])
    r.1.setDie d { r.1.die d with fw := some { ids := r.2, addr, status, result } }

/-- The management firmware serves the oldest call of a die, where the call is of this step (R377-R379): its version, its caller, the
semaphore and its arguments are checked in that order (log entry 32). -/
def serve (d k : Nat) (s : State) (body : State → Entry → FwRes) : Host.Outcome State Fault Refusal :=
  match s.callHead d with
  | none => .next s
  | some (_, e) =>
    if e.step ≠ k then .next s
    else match (s.die d).fw with
      | some f => if f.ids.any fun n => (AMap.find s.accs n).isSome then .next s else .next (s.endCall d f)
      | none =>
        let addr := e.fld 8 8
        let fin (s : State) (n : Nat) : Host.Outcome State Fault Refusal := .next (s.finishCall d addr n 0 [])
        if e.fld 0 1 ≠ 1 then fin s 4
        else match s.callerCode e with
          | none => fin s 3
          | some c =>
            if needsSem (e.fld 1 1) ∧ s.sem ≠ c then fin s 2
            else if addr % 8 ≠ 0 ∨ (e.fld 2 2 ≠ 0 ∧ k ≠ 23) ∨ !e.argsClean k then fin s 1
            else match body s e with
              | .done s st r outs => .next (s.finishCall d addr st r outs)
              | .wait s => .next s
              | .gone s => .next s

/-- Bytes that the firmware reads by fabric address, in pieces of at most 16. -/
inductive FRes where
  | ok (s : State) (bs : List Byte)
  | wait (s : State)
  | bad (s : State)

def State.fwPieces (d : Nat) : Nat → State → Nat → Nat → FRes
  | 0, s, _, _ => .ok s []
  | k + 1, s, fa, n =>
    match s.homeRoute d fa with
    | none => .bad s
    | some r => match s.syncRead { owner := .firmware d, core := agent d, ctx := 0, sys := true, path := 0 } r fa (Nat.min 16 n) with
      | .fault _ => .bad s
      | .wait s => .wait s
      | .ok s bs => if bs.any (·.2) then .bad s
        else if n ≤ 16 then .ok s (bs.map (·.1))
        else match State.fwPieces d k s (fa + 16) (n - 16) with
          | .ok s cs => .ok s (bs.map (·.1) ++ cs)
          | r => r

/-- A whole read, after which what it brought is forgotten. -/
def State.fwRead (s : State) (d fa n : Nat) (k : State → List Byte → FwRes) : FwRes :=
  match State.fwPieces d (n / 16 + 1) s fa n with
  | .ok s bs => k { s with syncBuf := s.syncBuf.filter fun e => e.1 != .firmware d } bs
  | .wait s => .wait s
  | .bad s => fwBad { s with syncBuf := s.syncBuf.filter (fun e => e.1 != .firmware d), syncFail := s.syncFail.filter fun e => e.1 != .firmware d }

/-! ### Contexts (R299, R308, R313) -/

def isPow2 (n : Nat) : Bool := (List.range 13).any fun k => n == 2 ^ k

/-- Function 1, create. -/
def execFwCreateContext (die : Nat) (s : State) : Host.Outcome State Fault Refusal :=
  serve die 1 s fun s e =>
    let n := e.fld 18 2
    let cap := e.fld 40 2
    if e.fld 16 1 ≠ 0 ∨ e.fld 17 1 ≠ 1 ∨ n = 0 ∨ (AMap.find s.ctxs n).isSome ∨ e.fld 24 8 % 65536 ≠ 0 ∨ !isPow2 cap ∨ cap < 16 ∨ 4096 < cap then fwBad s
    else
      let s : State := { s with ctxs := AMap.set s.ctxs n { root := e.fld 24 8, area := e.fld 32 8, cap, notice := e.fld 48 8, live := false } }
      fwOk { s with dies := s.dies.map fun x => (x.1, { x.2 with dseq := AMap.del x.2.dseq n }) }

/-- Function 1, make live. -/
def execFwMakeContextLive (die : Nat) (s : State) : Host.Outcome State Fault Refusal :=
  serve die 2 s fun s e =>
    match AMap.find s.ctxs (e.fld 18 2) with
    | none => fwBad s
    | some c => if c.live then fwBad s else fwOk { s with ctxs := AMap.set s.ctxs (e.fld 18 2) { c with live := true } }

/-- Every TLB of the package drops its entries of a context that meet a range, and walks in progress start again (R313). -/
def State.dropTlbs (s : State) (ctx : Nat) (hit : TlbE → Bool) : State :=
  let f (l : List TlbE) : List TlbE := l.filter fun t => !(t.ctx == ctx && hit t)
  let s : State := { s with cores := s.cores.map fun e => (e.1, { e.2 with tlb := f e.2.tlb }) }
  let s : State := { s with clusters := s.clusters.map fun e => (e.1, { e.2 with tlb := f e.2.tlb }) }
  (s.accs.filter fun a => a.2.kind == AccKind.sync).foldl (fun s a => (s.overAcc a.1 a.2).resume a.2.owner) { s with syncBuf := [] }

/-- Function 1, retire: a context that a region still names is not retired. -/
def execFwRetireContext (die : Nat) (s : State) : Host.Outcome State Fault Refusal :=
  serve die 3 s fun s e =>
    let n := e.fld 18 2
    match AMap.find s.ctxs n with
    | none => fwBad s
    | some c => if !c.live || s.regions.any (fun r => r.2.ctx == n) then fwBad s
      else fwOk ({ s with ctxs := AMap.del s.ctxs n }.dropTlbs n fun _ => true)

/-- Function 4 (R313). -/
def execFwInvalidateTranslations (die : Nat) (s : State) : Host.Outcome State Fault Refusal :=
  serve die 9 s fun s e =>
    let n := e.fld 18 2
    let a := e.fld 24 8
    let len := e.fld 32 8
    if 1 < e.fld 16 1 ∨ (AMap.find s.ctxs n).isNone then fwBad s
    else fwOk (s.dropTlbs n fun t => e.fld 16 1 == 1 || (decide (t.va < a + len) && decide (a < t.va + 2 ^ t.size)))

/-! ### Replay (R316) -/

/-- Whether a walk from a die finds a translation; none where a table lies outside this package. -/
def State.peek (s : State) (d va : Nat) : Nat → Nat → Option Bool
  | 0, _ => some false
  | k + 1, base =>
    let a := base + 8 * vaIndex va (2 - k)
    match s.homeRoute d a with
    | none => some false
    | some r => (s.placeOf r a).bind fun p =>
      let e := leNat ((s.bytesAt p 8).map (·.1))
      if !bit e 0 then some false else if bit e 1 then some (!malformed e (2 - k)) else if malformed e (2 - k) then some false
      else s.peek d va k (bits e 16 48 * 2 ^ 16)

/-- The parked entries of a core that `hit` names walk again, in parking order (R316): commands go on, and the threads' lanes issue at once
one after another. -/
def State.replayCore (s : State) (c : CoreId) (hit : Parked → Bool) : State :=
  let k := s.core c
  let l := k.fbuf.filter hit
  let s := s.setCore c { k with fbuf := k.fbuf.filter fun p => !hit p }
  l.foldl (fun s p => match p.owner with
    | .thread t => match s.slotOf (gidOf t) p.group with
      | some g =>
        let u : ThreadId := { t with die := g.die, core := g.core, slot := g.slot }
        let up (s : State) (u : ThreadId) : State :=
          if (s.thr u).status = .parked then s.setThr u ((s.thr u).wakeAt (s.now g.die)) else s
        let s' := up (up s u) { u with sh := true }
        if (s.thr u).status = .parked then { s' with glean := s'.glean ++ [{ u with sh := false }] } else s'
      | none => s
    | o => s.resume o) s

/-- Function 5: every die of the package walks the parked entries again. The result counts those of this die that now translate or meet a
fault of their own; it is a free value where a table that decides it lies outside the package (DESIGN CHOICE, log entry 79). -/
def execFwReplayParkedRange (die : Nat) (s : State) : Host.Outcome State Fault Refusal :=
  serve die 10 s fun s e =>
    let n := e.fld 18 2
    let a := e.fld 24 8
    let len := e.fld 32 8
    match AMap.find s.ctxs n with
    | none => fwBad s
    | some c =>
      let hit (p : Parked) : Bool := p.ctx == n && decide (a ≤ p.va) && decide (p.va < a + len)
      let seen := ((s.parkedOn die).filter fun p => hit p.2).map fun p => s.peek die p.2.va 3 c.root
      let (v, s) := if seen.contains none then s.fresh else (BitVec.ofNat 64 (seen.filter (· == some true)).length, s)
      let s := ([0, 1, 2, 3] : List Nat).foldl (fun s i =>
        let d := s.die i
        s.setDie i { d with spans := d.spans.filter fun x => !(x.1 == n && decide (a < 65536 * (x.2 + 1)) && decide (65536 * x.2 < a + len)) }) s
      fwOk ((s.cores.map (·.1)).foldl (fun s c => s.replayCore c hit) { s with gleanNo := s.gleanNo + 1 }) (v.toNat % 2 ^ 32)

/-! ### Regions (R300-R307, R361) -/

/-- A region read from the image of its control block; none where a limit is broken (R300, R301). -/
def State.regionOf (s : State) (b : List Byte) : Option (Nat × Region) :=
  let f (o n : Nat) : Nat := fld b o n
  let n := f 0 4
  let parent := f 4 4
  let flags := f 12 4
  let x : Region := { parent, ctx := f 8 4, sys := bit flags 0, boundary := bit flags 1, fail := bit flags 2, shadow := bits flags 3 2, prio := bits flags 5 3
                      ovr := BitVec.ofNat 6 (bits flags 8 6), budget := f 16 8, consumed := f 24 8, tagLo := f 32 2, tagHi := f 34 2, st := 0, frec := f 40 8 }
  let up := s.effTag treeDepth parent
  let fits := parent == 0 || !bit flags 10 || (decide (up.1 ≤ x.tagLo) && decide (x.tagHi ≤ up.2))
  let live : Bool := match AMap.find s.ctxs x.ctx with
    | some c => c.live
    | none => false
  if 1 ≤ n ∧ n ≤ 65535 ∧ (parent = 0 ∨ (s.region parent).isSome) ∧ live ∧ x.shadow ≠ 3 ∧ flags / 2 ^ 14 = 0 ∧ x.tagLo ≤ x.tagHi ∧ x.frec % 64 = 0 ∧ (b.drop 48).all (· == 0) ∧ fits then
    some (n, x)
  else none

/-- Function 2, create. -/
def execFwCreateRegion (die : Nat) (s : State) : Host.Outcome State Fault Refusal :=
  serve die 4 s fun s e =>
    if e.fld 16 1 ≠ 0 ∨ e.fld 24 8 % 128 ≠ 0 then fwBad s
    else s.fwRead die (e.fld 24 8) 128 fun s b =>
      match s.regionOf b with
      | none => fwBad s
      | some (n, x) => if (s.region n).isSome then fwBad s else fwOk { s with regions := AMap.set s.regions n { x with block := e.fld 24 8 } } n

/-- Every region's own tag range lies in its parent's effective one (R301). -/
def State.tagsNest (s : State) : Bool :=
  s.regions.all fun r => r.2.parent == 0 || !r.2.ovr.getLsbD 2 || (let up := s.effTag treeDepth r.2.parent; decide (up.1 ≤ r.2.tagLo) && decide (r.2.tagHi ≤ up.2))

/-- Work of a region goes on in the context that its block now names (R299, R301): groups, launches, commands and tile tasks. What was
parked in another context walks again. -/
def State.recontext (s : State) (n ctx : Nat) : State :=
  let cmd (c : Cmd) : Cmd := if c.region = n then { c with ctx } else c
  let eng (x : Engine) : Engine := { x with q := x.q.map cmd, fly := x.fly.map cmd }
  let grp (x : Group) : Group := if x.region = n then { x with ctx } else x
  let thr (th : Thread) : Thread := { th with cmds := th.cmds.map fun c => (c.1, cmd c.2) }
  let s : State := { s with
    groups := s.groups.map (fun e => (e.1, grp e.2))
    outs := s.outs.map (fun o => { o with g := grp o.g, thr := o.thr.map fun e => (e.1, thr e.2) })
    threads := s.threads.map (fun e => (e.1, thr e.2))
    launches := s.launches.map (fun e => if e.2.region = n then (e.1, { e.2 with ctx }) else e)
    copies := s.copies.map (fun e => (e.1, eng e.2))
    clusters := s.clusters.map (fun e => (e.1, { e.2 with chain := eng e.2.chain, psum := eng e.2.psum, walk := eng e.2.walk }))
    parts := s.parts.map (fun e => (e.1, { e.2 with unit := { e.2.unit with q := e.2.unit.q.map cmd } }))
    cores := s.cores.map fun e => (e.1, { e.2 with tasks := e.2.tasks.map fun k => (k.1, { k.2 with cmd := cmd k.2.cmd }) }) }
  let of (p : Parked) : Option Nat := match p.owner with
    | .launch l => (AMap.find s.launches l).map (·.region)
    | .thread t => (s.slotOf (gidOf t) p.group).map fun g => (s.grp g).region
    | .block g => some (s.grp g).region
    | o => (s.cmdOf o).map (·.region)
  (s.cores.map (·.1)).foldl (fun s c => s.replayCore c fun p => p.ctx != ctx && of p == some n) s

/-- Function 2, change: what the part maintains stays, the state of a retiring region too. A change that would leave a region's own tags
outside its parent's is refused (R301). -/
def execFwChangeRegion (die : Nat) (s : State) : Host.Outcome State Fault Refusal :=
  serve die 5 s fun s e =>
    if e.fld 24 8 % 128 ≠ 0 then fwBad s
    else s.fwRead die (e.fld 24 8) 128 fun s b =>
      match s.regionOf b, s.region (e.fld 18 2) with
      | some (n, x), some old =>
        let s' : State := { s with regions := AMap.set s.regions n { x with st := old.st, consumed := old.consumed, retryOn := old.retryOn, retryOver := old.retryOver
                                                                            written := old.written, lost := old.lost, stopped := old.stopped, block := e.fld 24 8 } }
        if n ≠ e.fld 18 2 ∨ (x.parent ≠ 0 ∧ s.below treeDepth n x.parent) ∨ !s'.tagsNest then fwBad s
        else fwOk (if x.ctx = old.ctx then s' else s'.recontext n x.ctx) n
      | _, _ => fwBad s

/-- A retiring region that holds no record, has no group and no child becomes retired: its environment slots are released and its
number is free (R160, R307). -/
def State.retireRegion (s : State) (r : Nat) : State :=
  match s.region r with
  | none => s
  | some x =>
    let held := (s.queues.any fun q => !q.2.call && q.2.entries.any fun e => ((s.heldWords q.2 e).getD 15 {}).v.toNat == r) || s.launches.any fun l => l.2.region == r
    let groups := (s.groups.any fun g => g.2.region == r) || s.outs.any fun o => o.g.region == r
    let asked := s.cores.any fun c => c.2.envq.any fun o => match o with
      | .instr _ _ q _ => q.region == r
      | .release _ _ _ => false
    if x.st ≠ 1 ∨ held ∨ groups ∨ asked ∨ s.regions.any (fun y => y.2.parent == r) then s
    else
      let slot (e : EnvSlot) : EnvSlot := if e.st ≠ .free ∧ e.region = r then e.freed else e
      let op (o : EnvOp) : EnvOp := match o with
        | .release t g l => .release t g (l.filter fun a => (s.anchorAt a).region != r)
        | .instr _ _ _ _ => o
      let s := if x.block = 0 then s else (s.partWrite 0 (x.block + 36) (leBytes 4 2)).1
      { s with regions := AMap.del s.regions r, cores := s.cores.map fun c => (c.1, { c.2 with env := c.2.env.map (fun k => (k.1, slot k.2)), envq := c.2.envq.map op }) }

def State.retireRegions (s : State) : State := ((s.regions.filter fun r => r.2.st == 1).map (·.1)).foldl (fun s r => s.retireRegion r) s

/-- Function 2, retire. -/
def execFwRetireRegion (die : Nat) (s : State) : Host.Outcome State Fault Refusal :=
  serve die 6 s fun s e =>
    let n := e.fld 18 2
    match s.region n with
    | none => fwBad s
    | some x => if x.st ≠ 0 ∨ s.regions.any (fun y => y.2.parent == n && y.2.st == 0) then fwBad s
      else
        let s := if x.block = 0 then s else (s.partWrite die (x.block + 36) (leBytes 4 1)).1
        fwOk ({ s with regions := AMap.set s.regions n { x with st := 1 } }.retireRegion n) n

/-- Function 6: the fault record of a domain is emptied (R305). -/
def execFwEmptyFaultRecord (die : Nat) (s : State) : Host.Outcome State Fault Refusal :=
  serve die 11 s fun s e =>
    let n := e.fld 18 2
    match s.region n with
    | none => fwBad s
    | some x => if s.domainTop treeDepth n ≠ n then fwBad s
      else .done { s with regions := AMap.set s.regions n { x with written := 0, lost := 0 } } 0 x.written [(x.frec, zeros 16)]

/-- Function 7, reset consumed (R303). -/
def execFwResetConsumed (die : Nat) (s : State) : Host.Outcome State Fault Refusal :=
  serve die 12 s fun s e =>
    match s.region (e.fld 18 2) with
    | none => fwBad s
    | some x => if 1 < e.fld 16 1 then fwBad s
      else if e.fld 16 1 = 1 then
        .done { s with regions := AMap.set s.regions (e.fld 18 2) { x with consumed := 0 } } 0 0 (if x.block = 0 then [] else [(x.block + 24, zeros 8)])
      else fwOk s

/-- Function 7, set budget, with or without a reset of consumed (R303). -/
def execFwSetBudget (die : Nat) (s : State) : Host.Outcome State Fault Refusal :=
  serve die 13 s fun s e =>
    match s.region (e.fld 18 2) with
    | none => fwBad s
    | some x => if 3 < e.fld 16 1 then fwBad s
      else
        let outs := if x.block = 0 then [] else (x.block + 16, leBytes 8 (e.fld 24 8)) :: if bit (e.fld 16 1) 0 then [(x.block + 24, zeros 8)] else []
        .done { s with regions := AMap.set s.regions (e.fld 18 2) { x with budget := e.fld 24 8, consumed := if bit (e.fld 16 1) 0 then 0 else x.consumed } } 0 0 outs

/-- Function 10: the retry setting of a region (R361). -/
def execFwSetRetry (die : Nat) (s : State) : Host.Outcome State Fault Refusal :=
  serve die 18 s fun s e =>
    match s.region (e.fld 18 2) with
    | none => fwBad s
    | some x => if 1 < e.fld 16 1 ∨ 1 < e.fld 17 1 then fwBad s
      else fwOk { s with regions := AMap.set s.regions (e.fld 18 2) { x with retryOn := e.fld 16 1 == 1, retryOver := e.fld 17 1 == 1 } }

/-- Function 11: the limit of R278, for the package's dies. -/
def execFwSetPreemptionLimit (die : Nat) (s : State) : Host.Outcome State Fault Refusal :=
  serve die 19 s fun s e =>
    let n := e.fld 24 4
    if n < 4096 ∨ 2 ^ 24 < n then fwBad s
    else fwOk (([0, 1, 2, 3] : List Nat).foldl (fun s i => s.setDie i { s.die i with preLimit := n }) s)

/-! ### Queues and the status block (R289, R352) -/

/-- A queue read from the image of its control block (R289). -/
def State.queueOf (s : State) (d : Nat) (b : List Byte) : Option Queue :=
  let f (o n : Nat) : Nat := fld b o n
  let storage := f 24 8
  let size := 64 * f 8 4
  if f 0 8 % 64 = 0 ∧ 16 ≤ f 8 4 ∧ f 8 4 ≤ 65536 ∧ (s.region (f 12 4)).isSome ∧ 1 ≤ f 16 4 ∧ f 16 4 < 2 ^ 31 ∧ f 20 4 = 0 ∧ storage % 64 = 0
      ∧ storage / 2 ^ 48 = s.dieNo d ∧ ownMem storage ∧ ownMem (storage + size - 1) ∧ (b.drop 32).all (· == 0) then
    some { die := d, push := f 0 8, cap := f 8 4, region := f 12 4, quantum := f 16 4, storage }
  else none

/-- The entry of the table by which a die's firmware announces a prefix. -/
def fwRoute (s : State) (d pre len cls : Nat) : Route :=
  { pre, len, cls, ready := false, hold := false, ver := 1, origin := s.dieNo d, cost := 0, next := 8, path := [s.dieNo d], st := .orphan, backing := pre
    region := none, movedFrom := none }

def State.fwAnnounce (s : State) (d pre len cls : Nat) : State :=
  if (s.entry d pre len (s.dieNo d)).isNone ∧ 16384 ≤ s.tableSize d then s.tableFull d pre
  else (s.putEntry d (fwRoute s d pre len cls)).settleAt d pre len

/-- Its withdrawal (R323, R330). -/
def State.fwWithdraw (s : State) (d pre len : Nat) : State :=
  match s.entry d pre len (s.dieNo d) with
  | none => s
  | some r => (((s.dropEntry d pre len (s.dieNo d)).dropList d pre len).settleAt d pre len).startWdr d r { t := none, d := 0, fn := 1, pre, len, ver := r.ver, acks := [], born := s.now d, phase := 0 }

/-- The number of a queue, above those of the call queues. -/
def queueKey (n : Nat) : Nat := 1048580 + n

/-- Function 3, create. -/
def execFwCreateQueue (die : Nat) (s : State) : Host.Outcome State Fault Refusal :=
  serve die 7 s fun s e =>
    if e.fld 16 1 ≠ 0 then fwBad s
    else s.fwRead die (e.fld 24 8) 64 fun s b =>
      match s.queueOf die b with
      | none => fwBad s
      | some y => if s.queues.any fun q => q.2.push == y.push then fwBad s
        else fwOk (({ s with queues := AMap.set s.queues (queueKey s.nextId) { y with block := e.fld 24 8 }, nextId := s.nextId + 1 }).fwAnnounce die y.push 58 2)

/-- Function 3, destroy. -/
def execFwDestroyQueue (die : Nat) (s : State) : Host.Outcome State Fault Refusal :=
  serve die 8 s fun s e =>
    match s.queues.find? fun q => q.2.die == die && q.2.push == e.fld 24 8 && !q.2.call with
    | none => fwBad s
    | some q =>
      let s := s.removeRecords fun y _ => y.push == q.2.push && y.die == die
      fwOk ({ s with queues := AMap.del s.queues q.1 }.fwWithdraw die q.2.push 58)

/-- The prefix of the status blocks of a die (R352). -/
def statusBase (n : Nat) : Nat := dramBase n + 0xFE0000000000

/-- Function 8, announce. -/
def execFwAnnouncePortStatus (die : Nat) (s : State) : Host.Outcome State Fault Refusal :=
  serve die 14 s fun s e => if e.fld 16 1 ≠ 0 then fwBad s else fwOk (s.fwAnnounce die (statusBase (s.dieNo die)) 56 0)

/-- Function 8, withdraw. -/
def execFwWithdrawPortStatus (die : Nat) (s : State) : Host.Outcome State Fault Refusal :=
  serve die 15 s fun s _ => fwOk (s.fwWithdraw die (statusBase (s.dieNo die)) 56)

/-! ### The semaphore, the sequencer, versions (R380, R382, R383, R386) -/

/-- Function 9, acquire. -/
def execFwAcquireSemaphore (die : Nat) (s : State) : Host.Outcome State Fault Refusal :=
  serve die 16 s fun s e =>
    if e.fld 16 1 ≠ 0 then fwBad s
    else let r := s.semAcquire ((s.callerCode e).getD 0); fwOk r.1 r.2

/-- Function 9, release. -/
def execFwReleaseSemaphore (die : Nat) (s : State) : Host.Outcome State Fault Refusal :=
  serve die 17 s fun s e => let r := s.semRelease ((s.callerCode e).getD 0); fwOk r.1 r.2

/-- Function 12 (R380). -/
def execFwDesignateSequencer (die : Nat) (s : State) : Host.Outcome State Fault Refusal :=
  serve die 20 s fun s e => fwOk { s with sysSeq := some (e.fld 18 2) }

/-- Function 13 (R386). -/
def execFwVersionQuery (die : Nat) (s : State) : Host.Outcome State Fault Refusal :=
  serve die 21 s fun s e =>
    if e.fld 1 1 ≠ 13 then fwBad s
    else .done s 0 0 [(e.fld 24 8, leBytes 2 1 ++ leBytes 2 1 ++ leBytes 2 1 ++ leBytes 2 1 ++ leBytes 2 1 ++ leBytes 2 1)]

/-! ### Trust (R387-R390) -/

/-- The bytes of the image in the active slot, with its header; none for the manufacturer's. -/
def Flash.image (f : Flash) : List Byte := if f.active = 0 then f.slot0 else f.slot1

/-- The SHA-384 of an image's signed bytes: header bytes 0-159 and what follows the header. -/
def imageDigest (b : List Byte) : Nat := if b = [] then Config.factoryDigest else sha384 (b.take 160 ++ b.drop 256)
def imageVersion (b : List Byte) : Nat := if b = [] then Config.factoryVersion else fld b 8 8

/-- The report of R390 for a nonce. -/
def State.report (s : State) (nonce : List Byte) : List Byte :=
  let b := s.flash.image
  let body := nonce ++ leBytes 2 s.pkg ++ leBytes 2 1 ++ leBytes 4 0 ++ beBytes 48 Config.bootRomDigest ++ beBytes 48 (imageDigest b) ++ leBytes 8 (imageVersion b)
  let sg := Config.deviceSign (sha384 body)
  body ++ beBytes 48 sg.1 ++ beBytes 48 sg.2

/-- Function 14 with modifier 0. -/
def execFwAttestationReport (die : Nat) (s : State) : Host.Outcome State Fault Refusal :=
  serve die 22 s fun s e =>
    let nonce := (List.range 48).map fun k => BitVec.ofNat 8 (e.fld (16 + k) 1)
    .done s 0 0 [(e.fld 8 8 + 8, s.report nonce)]

/-- Function 14 with modifier 1. -/
def execFwDeviceCertificate (die : Nat) (s : State) : Host.Outcome State Fault Refusal :=
  serve die 23 s fun s e => .done s 0 0 [(e.fld 8 8 + 8, pad 256 Config.certificate)]

/-- An image is refused if its header is not that of R389, its signature fails, or its security version is below the minimum. -/
def Flash.imageOk (f : Flash) (b : List Byte) : Bool :=
  fld b 0 4 == 0x594BF001 && fld b 4 4 == 1 && fld b 16 8 % 4 == 0 && b.length == 256 + fld b 16 8 && ((b.drop 24).take 136).all (· == 0) &&
    decide (f.minVer ≤ fld b 8 8) && ecdsaOk Config.umaholtKey (imageDigest b) (beNat ((b.drop 160).take 48)) (beNat ((b.drop 208).take 48))

/-- Function 16: the image goes into the slot not in use and is made active for the next reset (R387). -/
def execFwFirmwareUpdate (die : Nat) (s : State) : Host.Outcome State Fault Refusal :=
  serve die 25 s fun s e =>
    s.fwRead die (e.fld 24 8) (e.fld 32 4) fun s b =>
      let f := s.flash
      let f : Flash := if f.active = 0 then { f with slot1 := b } else { f with slot0 := b }
      if f.imageOk b then fwOk { s with flash := { f with nextActive := 1 - f.active } } else fwBad { s with flash := f }

/-- Function 19: the stand table in the configuration flash, for the next reset (R381). -/
def execFwWriteStandTable (die : Nat) (s : State) : Host.Outcome State Fault Refusal :=
  serve die 28 s fun s e =>
    s.fwRead die (e.fld 24 8) 36 fun s b =>
      let n := fld b 2 1
      let l := diesAt b 4 n
      if 1 ≤ n ∧ n ≤ 16 ∧ fld b 3 1 = 0 ∧ (l.zip (l.drop 1)).all (fun p => decide (p.1 < p.2)) ∧ l.contains s.pkg then
        fwOk { s with flash := { s.flash with newStand := some (fld b 0 2, l) } }
      else fwBad s

/-! ### Power (R15, R391) -/

/-- Every carrying port is parked to width 1. -/
def State.narrow (s : State) (q : Nat) : State :=
  let x := s.port q
  let up := lanesIn x .carrying
  if (x.st = .active ∨ x.st = .parked) ∧ 1 < up.length then s.putPort q { x with parking := up.drop 1, newCarry := some (up.take 1) } else s

/-- Function 15. -/
def execFwPowerState (die : Nat) (s : State) : Host.Outcome State Fault Refusal :=
  serve die 24 s fun s e =>
    let st := e.fld 16 1
    let fr := e.fld 17 1
    if 2 < st ∨ (st = 1 ∧ (fr < 1 ∨ 16 < fr)) ∨ (st ≠ 1 ∧ fr ≠ 0) then fwBad s
    else
      let s : State := { s with power := st, fraction := if st = 1 then fr else 16 }
      fwOk (if st = 2 then (List.range 16).foldl (fun s q => s.narrow q) s else s)

/-- A stack's power passes its limit, or no longer does: its management core gates issue in the pickers (R15). -/
def execPowerLimit (die : Nat) (gate : Bool) (s : State) : Host.Outcome State Fault Refusal :=
  .next (s.setDie die { s.die die with gated := gate })

/-! ### Freeze and reset (R384, R385) -/

/-- Every clock of the package stops. -/
def State.freeze (s : State) : State := { s with frozen := true }

/-- The package resets: what the flash holds takes effect, and the rest is as after reset. The inputs still to come, and the count
of free values drawn, go on. -/
def State.restart (s : State) : State :=
  let f := s.flash
  let f : Flash := match f.newStand with
    | some n => { f with stand := n.1, pkgs := n.2, newStand := none }
    | none => f
  { State.reset with pkg := s.pkg, flash := { f with active := f.nextActive }, choices := s.choices, freeCtr := s.freeCtr, tap := s.tap }

/-- Bring-up starts the training of the ports (R385 step 5); with bring-up complete the fused minimum rises to the running image's
security version (R387). -/
def State.bringUpPorts (s : State) : State :=
  if !s.boot then s
  else
    let s : State := { s with boot := false, flash := { s.flash with minVer := Nat.max s.flash.minVer (imageVersion s.flash.image) } }
    (List.range 16).foldl (fun s q => s.startTrain q [] 0 [0, 1, 2, 3, 4, 5, 6, 7] none) s

/-- Function 17. -/
def execFwFreeze (die : Nat) (s : State) : Host.Outcome State Fault Refusal := serve die 26 s fun s _ => .gone s.freeze

/-- Function 18. -/
def execFwPackageReset (die : Nat) (s : State) : Host.Outcome State Fault Refusal := serve die 27 s fun s _ => .gone s.restart

/-- The freeze pin (R384). -/
def execFreezePin (s : State) : Host.Outcome State Fault Refusal := .next s.freeze

/-- The reset pin (R385). -/
def execResetPin (s : State) : Host.Outcome State Fault Refusal := .next s.restart

/-! ### The test port (R384) -/

/-- BYPASS: the bypass bit stands between TDI and TDO. -/
def execBypass (tdi : Bool) (s : State) : Host.Outcome State Fault Refusal :=
  .next { s with tap := { s.tap with ir := 0, driven := none, out := if s.tap.bypass then 1 else 0, bypass := tdi } }

/-- IDCODE. -/
def execIdcode (s : State) : Host.Outcome State Fault Refusal := .next { s with tap := { s.tap with ir := 1, driven := none, out := 0x14B4A56B } }

/-- SAMPLE/PRELOAD: the pins are captured and the boundary register loaded. -/
def execSamplePreload (pins preload : List Bool) (s : State) : Host.Outcome State Fault Refusal :=
  .next { s with tap := { s.tap with ir := 2, driven := none, boundary := pins, preload } }

/-- EXTEST: the pins are driven from the boundary register. -/
def execExtest (s : State) : Host.Outcome State Fault Refusal := .next { s with tap := { s.tap with ir := 3, driven := some s.tap.preload } }

/-- SELDIE selects a die. -/
def execSeldie (die : Nat) (s : State) : Host.Outcome State Fault Refusal := .next { s with tap := { s.tap with ir := 4, driven := none, die } }

/-- The byte a die's own table leads to, where this package holds it. -/
def State.tapByte (s : State) (i fa : Nat) : Byte :=
  match s.homeRoute i fa with
  | none => 0
  | some r => match (s.local? r.origin).bind fun j => s.ownRoute j fa r.len with
    | some q => (s.byteAt (Route.physical q fa)).1
    | none => 0

/-- MEMRD reads 64 bits by fabric address while the package is frozen, and 0 otherwise. -/
def execMemrd (fa : Nat) (s : State) : Host.Outcome State Fault Refusal :=
  let v := if s.frozen then leNat ((List.range 8).map fun k => s.tapByte s.tap.die (fa + k)) else 0
  .next { s with tap := { s.tap with ir := 5, driven := none, out := BitVec.ofNat 64 v } }

end

end Sys2Proof.Machine
end

