-- ==== Sys2Proof/Machine/Loop.lean ====
section
/-! DEFINITION. Loop: declaring a loop and acting on its frames (R143-R154). -/

namespace Sys2Proof.Machine

open Sys2Proof

/-- What a loop declares. -/
structure LoopDecl where
  kind : Nat
  len : Nat
  stages : Nat
  rot : Nat
  pidx : Nat
deriving DecidableEq, Repr

/-- The frame pushed for `n` iterations (R146). A while loop has no n, so C has no value; it is set to 0 (DESIGN CHOICE, log entry 70). -/
def newFrame (th : Thread) (d : LoopDecl) (n : Word) : Frame :=
  { start := th.pc.toNat + 4, len := d.len, kind := d.kind, stages := d.stages, rot := d.rot, rrb := 0
    cnt := if d.kind = 2 then 0 else n - 1, epi := d.stages - 1, stop := false, pidx := d.pidx, level := th.level }

/-- A pipelined loop starts with sp0 set and sp1 to sp7 clear (R146); a result still pending from an earlier instruction does not
overwrite them (R40). -/
def startStages (d : LoopDecl) (now : Nat) (th : Thread) : Thread :=
  if d.kind = 1 then th.result now 1 { preds := (List.range 8).map fun k => (8 + k, k == 0) } else th

/-- `loop` (R146): `x` is the count, `go` whether any pass runs. A poisoned count is consumed where it is read (R145). -/
def declare (s : State) (d : LoopDecl) (x : Reg) (go : Bool) : Res :=
  let th := s.me
  let st := th.pc.toNat + 4
  let en := st + 4 * d.len
  let nested := match owned th with
    | f :: _ => decide (f.start ≤ st) && decide (en ≤ f.start + 4 * f.len)
    | [] => true
  if 8 ≤ ldepth th || !nested then trapFree s 0x05
  else match s.readPiece (en - 4) 4 3 4 with
    | .stop r => r
    | .lost s => .wait s .sync
    | .ok s bs =>
      if bits (leNat (bs.map (·.1))) 25 7 = 0x7F then trapFree s 0x05
      else if 0 < d.rot ∧ s.myGrp.count < th.wb + 64 + d.rot then trapFree s 0x02
      else if x.p then .consume s
      else if !go then .arrive s en
      else
        let th := startStages d (s.now s.cur.die) s.me
        .enter (s.setMe { th with loops := newFrame th d x.v :: th.loops }) st

/-- A counted or pipelined loop reads its count once (R146). -/
def countLoop (i : Instr) (d : LoopDecl) (a : BitVec 7) (s : State) : Host.Outcome State Fault Refusal :=
  run i s fun s => declare s d (s.readF a.toNat) ((s.readF a.toNat).v != 0)

/-- `loop.cnt` (R145, R146). -/
def execLoopCnt (a : BitVec 7) (l : BitVec 8) (r : BitVec 3) (s : State) : Host.Outcome State Fault Refusal :=
  countLoop (.loopCnt a l r) { kind := 0, len := l.toNat + 1, stages := 1, rot := 8 * r.toNat, pidx := 0 } a s

/-- `loop.pipe` (R145, R146). -/
def execLoopPipe (a : BitVec 7) (l : BitVec 8) (g r : BitVec 3) (s : State) : Host.Outcome State Fault Refusal :=
  countLoop (.loopPipe a l g r) { kind := 1, len := l.toNat + 1, stages := g.toNat + 1, rot := 8 * r.toNat, pidx := 0 } a s

/-- `loop.while` (R145, R146). -/
def execLoopWhile (p : BitVec 4) (l : BitVec 8) (r : BitVec 3) (s : State) : Host.Outcome State Fault Refusal :=
  run (.loopWhile p l r) s fun s =>
    declare s { kind := 2, len := l.toNat + 1, stages := 1, rot := 8 * r.toNat, pidx := p.toNat } {} (s.me.pred p.toNat)

/-- `lexit` (R151). -/
def execLexit (ct : Ctl) (s : State) : Host.Outcome State Fault Refusal :=
  run (.lexit ct) s fun s =>
    match owned s.me with
    | f :: _ => .next (s.setMe { s.me with loops := { f with stop := true } :: s.me.loops.drop 1 })
    | [] => trapFree s 0x05

/-- `lbrk` (R151). -/
def execLbrk (ct : Ctl) (s : State) : Host.Outcome State Fault Refusal :=
  run (.lbrk ct) s fun s =>
    match owned s.me with
    | f :: _ => .arrive (s.setMe { s.me with loops := s.me.loops.drop 1 }) (Frame.stopAt f)
    | [] => trapFree s 0x05

/-- The descriptor word of R152. -/
def describe (f : Frame) (lv : Word) : Word :=
  BitVec.ofNat 32 (f.stop.toNat * 2 ^ 28 + f.kind * 2 ^ 26 + (f.level == lv).toNat * 2 ^ 25 + (f.stages - 1) * 2 ^ 22 +
    f.rrb * 2 ^ 16 + f.rot / 8 * 2 ^ 13 + f.pidx * 2 ^ 9 + (f.len - 1))

/-- `lrd` (R152). -/
def execLrd (ct : Ctl) (d : BitVec 7) (p : BitVec 3) (i : BitVec 2) (s : State) : Host.Outcome State Fault Refusal :=
  run (.lrd ct d p i) s fun s =>
    match s.me.loops[p.toNat]? with
    | none => trapFree s 0x02
    | some f => match i.toNat with
      | 0 => .next (s.give 1 d.toNat [{ v := f.cnt }])
      | 1 => .next (s.give 1 d.toNat [{ v := BitVec.ofNat 32 f.epi }])
      | 2 => .next (s.give 1 d.toNat [{ v := describe f s.me.level }])
      | _ => .next (s.give 1 d.toNat (pairOf (BitVec.ofNat 64 f.start) false))

/-- The frame after `lwr`: none where the value breaks a limit (R153). -/
def rewrite (f : Frame) (i : Nat) (v : Word) : Option Frame :=
  match i with
  | 0 => some { f with cnt := v }
  | 1 => if f.stages - 1 < v.toNat then none else some { f with epi := v.toNat }
  | _ =>
    let r := bits v.toNat 16 6
    if (f.rot = 0 ∧ r ≠ 0) ∨ (f.rot ≠ 0 ∧ f.rot ≤ r) then none else some { f with stop := bit v.toNat 28, rrb := r }

/-- `lwr` (R153). -/
def execLwr (ct : Ctl) (p : BitVec 3) (i : BitVec 2) (a : BitVec 7) (s : State) : Host.Outcome State Fault Refusal :=
  run (.lwr ct p i a) s fun s =>
    match s.me.loops[p.toNat]? with
    | none => trapFree s 0x02
    | some f => match rewrite f i.toNat (s.readF a.toNat).v with
      | none => trapFree s 0x02
      | some f' => .next (s.setMe { s.me with loops := s.me.loops.set p.toNat f' })

end Sys2Proof.Machine
end

