-- ==== Sys2Proof/Machine/Qop.lean ====
section
/-! DEFINITION. Qop: the queue instructions in the issuing lane (R290-R295). -/

namespace Sys2Proof.Machine

open Sys2Proof

noncomputable section

/-- A home of another package that is no queue, as its announcement says (R294, R322). -/
def State.noQueue (s : State) (r : Route) : Bool := (s.local? r.origin).isNone && r.cls != 2

/-- A push of a record (R290, R293, R294): a release at system scope, then the request; the thread waits for its answer. `once`: a
refusal is an answer (`qtry`). -/
def push (s : State) (d p : Nat) (words : List Word) (once : Bool) : Res :=
  if p % 64 ≠ 0 then trapAt s 0x0B p
  else if 2 ^ 55 ≤ p then trapAt s 0x0D p
  else
    let tag := s.me.tag
    let words := if s.myGrp.sys then words else words.set 1 ((words.getD 1 0 &&& 0xFFFF) ||| (tag.setWidth 32 <<< 16))
    let s := s.log (13 :: p :: words.map (·.toNat))
    commit s (p, words.flatMap fun w => leBytes 4 w.toNat) fun s =>
      answered s (fun s rs => .next (s.give 1 d rs)) fun s =>
        let t := s.cur
        if s.heldBack then .wait s .acquire
        else if 0 < s.outLoads t || s.unacked t [0] then .wait s .order
        else match s.xlate s.space p 2 with
          | .ok s fa => match s.homeRoute t.die fa with
            | none => trapAt s 0x1A p
            | some r =>
              if s.noQueue r then trapAt s 0x1C p else
              let x := s.sendAcc { owner := .thread t, core := coreOf t, path := 0, kind := .push, va := p, fa, len := 64
                                   cells := cellsAt fa (words.flatMap fun w => leBytes 4 w.toNat), tag
                                   hint := once.toNat, glean := 0, gnum := s.myGrp.num } r
              .wait x.1 (.push x.2)
          | r => r.toRes s p 1

/-- `qpush` and `qtry` (R294). -/
def pushWords (i : Instr) (d a b : BitVec 7) (once : Bool) (s : State) : Host.Outcome State Fault Refusal :=
  run i s fun s =>
    let x := s.readD a.toNat
    let rs := (List.range 16).map fun k => s.readF (b.toNat + k)
    if x.2 || rs.any (·.p) then .consume s else push s d.toNat x.1.toNat (rs.map (·.v)) once

/-- `qpush` (R294). -/
def execQpush (ct : Ctl) (d a b : BitVec 7) (s : State) : Host.Outcome State Fault Refusal := pushWords (.qpush ct d a b) d a b false s

/-- `qtry` (R291, R294). -/
def execQtry (ct : Ctl) (d a b : BitVec 7) (s : State) : Host.Outcome State Fault Refusal := pushWords (.qtry ct d a b) d a b true s

/-- The closure-task record of `qspawn` (R295). -/
def spawnRecord (x : List Word) (h : DWord) (region : Nat) : List Word :=
  let w (k : Nat) : Word := x.getD k 0
  [0x01010000, BitVec.ofNat 32 (bits (w 3).toNat 8 3 * 256), w 0, w 1, h.setWidth 32, (h >>> 32).setWidth 32, 1, w 2, 0, 0, w 4, w 5, 0, 0, 0,
    BitVec.ofNat 32 region]

/-- `qspawn` (R294, R295). -/
def execQspawn (ct : Ctl) (d a b : BitVec 7) (s : State) : Host.Outcome State Fault Refusal :=
  run (.qspawn ct d a b) s fun s =>
    let x := s.readD a.toNat
    let rs := (List.range 6).map fun k => s.readF (b.toNat + k)
    let w3 := (rs.getD 3 {}).v.toNat
    let c := s.me.closReg (bits w3 0 4)
    if x.2 || rs.any (·.p) then .consume s
    else if x.1.toNat % 64 ≠ 0 then trapAt s 0x0B x.1.toNat
    else if bits w3 11 21 ≠ 0 ∨ bits w3 4 4 ≠ 0 then .trap s 0x01 (BitVec.ofNat 64 s.ir.word) false
    else if c.p then .consume s
    else push s d.toNat x.1.toNat (spawnRecord (rs.map (·.v)) c.v s.myGrp.region) false

/-- `qlen` (R294): a read at the home, relaxed. Its address is routed as a store's is, so that a missing route is store unrouted
(DEDUCED, log entry 78); R310 gives it the permission of a read. -/
def execQlen (ct : Ctl) (d a : BitVec 7) (s : State) : Host.Outcome State Fault Refusal :=
  run (.qlen ct d a) s fun s =>
    let x := s.readD a.toNat
    let p := x.1.toNat
    if x.2 then .consume s
    else if p % 64 ≠ 0 then trapAt s 0x0B p
    else if 2 ^ 55 ≤ p then trapAt s 0x0D p
    else
      let s := s.log [14, p]
      commit s (opBytes (wordsOfD p)) fun s =>
        answered s (fun s rs => .next (s.give 1 d.toNat rs)) fun s =>
          if s.heldBack then .wait s .acquire
          else match s.xlate s.space p 1 with
          | .ok s fa => match s.homeRoute s.cur.die fa with
            | none => trapAt s 0x1A p
            | some r =>
              if s.noQueue r then trapAt s 0x1C p else
              let x := s.sendAcc { owner := .thread s.cur, core := coreOf s.cur, path := 0, kind := .qlen, va := p, fa, len := 64
                                   tag := s.me.tag, gnum := s.myGrp.num } r
              .wait x.1 (.push x.2)
          | r => r.toRes s p 0

end

end Sys2Proof.Machine
end

