-- ==== Sys2Proof/Machine/Dispatch.lean ====
section
/-! DEFINITION. Dispatch: one arm per constructor of Instr, each a direct call of its meaning. -/

namespace Sys2Proof.Machine noncomputable section

def exec (i : Instr) (s : State) : Host.Outcome State Fault Refusal :=
  match i with
  | .add ct d a b => Sys2Proof.Machine.execAdd ct d a b s
  | .sub ct d a b => Sys2Proof.Machine.execSub ct d a b s
  | .mul ct d a b => Sys2Proof.Machine.execMul ct d a b s
  | .mulh ct d a b => Sys2Proof.Machine.execMulh ct d a b s
  | .mulhu ct d a b => Sys2Proof.Machine.execMulhu ct d a b s
  | .div ct d a b => Sys2Proof.Machine.execDiv ct d a b s
  | .divu ct d a b => Sys2Proof.Machine.execDivu ct d a b s
  | .rem ct d a b => Sys2Proof.Machine.execRem ct d a b s
  | .remu ct d a b => Sys2Proof.Machine.execRemu ct d a b s
  | .and ct d a b => Sys2Proof.Machine.execAnd ct d a b s
  | .or ct d a b => Sys2Proof.Machine.execOr ct d a b s
  | .xor ct d a b => Sys2Proof.Machine.execXor ct d a b s
  | .andn ct d a b => Sys2Proof.Machine.execAndn ct d a b s
  | .shl ct d a b => Sys2Proof.Machine.execShl ct d a b s
  | .shr ct d a b => Sys2Proof.Machine.execShr ct d a b s
  | .sra ct d a b => Sys2Proof.Machine.execSra ct d a b s
  | .rol ct d a b => Sys2Proof.Machine.execRol ct d a b s
  | .min ct d a b => Sys2Proof.Machine.execMin ct d a b s
  | .max ct d a b => Sys2Proof.Machine.execMax ct d a b s
  | .minu ct d a b => Sys2Proof.Machine.execMinu ct d a b s
  | .maxu ct d a b => Sys2Proof.Machine.execMaxu ct d a b s
  | .mad ct d a b => Sys2Proof.Machine.execMad ct d a b s
  | .bfx ct d a b => Sys2Proof.Machine.execBfx ct d a b s
  | .bfi ct d a b => Sys2Proof.Machine.execBfi ct d a b s
  | .sel ct d a b => Sys2Proof.Machine.execSel ct d a b s
  | .add64 ct d a b => Sys2Proof.Machine.execAdd64 ct d a b s
  | .sub64 ct d a b => Sys2Proof.Machine.execSub64 ct d a b s
  | .slt ct d a b => Sys2Proof.Machine.execSlt ct d a b s
  | .sltu ct d a b => Sys2Proof.Machine.execSltu ct d a b s
  | .seq ct d a b => Sys2Proof.Machine.execSeq ct d a b s
  | .mov ct d a => Sys2Proof.Machine.execMov ct d a s
  | .not ct d a => Sys2Proof.Machine.execNot ct d a s
  | .neg ct d a => Sys2Proof.Machine.execNeg ct d a s
  | .abs ct d a => Sys2Proof.Machine.execAbs ct d a s
  | .clz ct d a => Sys2Proof.Machine.execClz ct d a s
  | .ctz ct d a => Sys2Proof.Machine.execCtz ct d a s
  | .popc ct d a => Sys2Proof.Machine.execPopc ct d a s
  | .brev ct d a => Sys2Proof.Machine.execBrev ct d a s
  | .sext8 ct d a => Sys2Proof.Machine.execSext8 ct d a s
  | .sext16 ct d a => Sys2Proof.Machine.execSext16 ct d a s
  | .zext8 ct d a => Sys2Proof.Machine.execZext8 ct d a s
  | .zext16 ct d a => Sys2Proof.Machine.execZext16 ct d a s
  | .bswap ct d a => Sys2Proof.Machine.execBswap ct d a s
  | .mov64 ct d a => Sys2Proof.Machine.execMov64 ct d a s
  | .addi ct d a i0 => Sys2Proof.Machine.execAddi ct d a i0 s
  | .andi ct d a i0 => Sys2Proof.Machine.execAndi ct d a i0 s
  | .ori ct d a i0 => Sys2Proof.Machine.execOri ct d a i0 s
  | .xori ct d a i0 => Sys2Proof.Machine.execXori ct d a i0 s
  | .shli ct d a i0 => Sys2Proof.Machine.execShli ct d a i0 s
  | .shri ct d a i0 => Sys2Proof.Machine.execShri ct d a i0 s
  | .srai ct d a i0 => Sys2Proof.Machine.execSrai ct d a i0 s
  | .muli ct d a i0 => Sys2Proof.Machine.execMuli ct d a i0 s
  | .slti ct d a i0 => Sys2Proof.Machine.execSlti ct d a i0 s
  | .sltui ct d a i0 => Sys2Proof.Machine.execSltui ct d a i0 s
  | .seqi ct d a i0 => Sys2Proof.Machine.execSeqi ct d a i0 s
  | .mini ct d a i0 => Sys2Proof.Machine.execMini ct d a i0 s
  | .maxi ct d a i0 => Sys2Proof.Machine.execMaxi ct d a i0 s
  | .li ct d i0 => Sys2Proof.Machine.execLi ct d i0 s
  | .lih ct d i0 => Sys2Proof.Machine.execLih ct d i0 s
  | .cmp ct p c a b => Sys2Proof.Machine.execCmp ct p c a b s
  | .cmpi ct p c a i0 => Sys2Proof.Machine.execCmpi ct p c a i0 s
  | .pand ct d p q => Sys2Proof.Machine.execPand ct d p q s
  | .por ct d p q => Sys2Proof.Machine.execPor ct d p q s
  | .pxor ct d p q => Sys2Proof.Machine.execPxor ct d p q s
  | .pandn ct d p q => Sys2Proof.Machine.execPandn ct d p q s
  | .porn ct d p q => Sys2Proof.Machine.execPorn ct d p q s
  | .pmv ct d p => Sys2Proof.Machine.execPmv ct d p s
  | .pnot ct d p => Sys2Proof.Machine.execPnot ct d p s
  | .pset ct d => Sys2Proof.Machine.execPset ct d s
  | .pclr ct d => Sys2Proof.Machine.execPclr ct d s
  | .pmovToRegister ct d => Sys2Proof.Machine.execPmovToRegister ct d s
  | .pmovFromRegister ct a => Sys2Proof.Machine.execPmovFromRegister ct a s
  | .br p v o => Sys2Proof.Machine.execBr p v o s
  | .jmp o => Sys2Proof.Machine.execJmp o s
  | .call o => Sys2Proof.Machine.execCall o s
  | .callr ct a => Sys2Proof.Machine.execCallr ct a s
  | .jr ct a => Sys2Proof.Machine.execJr ct a s
  | .nop ct => Sys2Proof.Machine.execNop ct s
  | .ret ct => Sys2Proof.Machine.execRet ct s
  | .exit ct => Sys2Proof.Machine.execExit ct s
  | .yield ct => Sys2Proof.Machine.execYield ct s
  | .trap ct n => Sys2Proof.Machine.execTrap ct n s
  | .brk ct => Sys2Proof.Machine.execBrk ct s
  | .eret ct => Sys2Proof.Machine.execEret ct s
  | .safept ct h n => Sys2Proof.Machine.execSafept ct h n s
  | .win ct k => Sys2Proof.Machine.execWin ct k s
  | .mwait ct d a => Sys2Proof.Machine.execMwait ct d a s
  | .cyc ct d => Sys2Proof.Machine.execCyc ct d s
  | .cych ct d => Sys2Proof.Machine.execCych ct d s
  | .getsr ct d a => Sys2Proof.Machine.execGetsr ct d a s
  | .setsr ct d a => Sys2Proof.Machine.execSetsr ct d a s
  | .loopCnt a l r => Sys2Proof.Machine.execLoopCnt a l r s
  | .loopPipe a l s0 r => Sys2Proof.Machine.execLoopPipe a l s0 r s
  | .loopWhile p l r => Sys2Proof.Machine.execLoopWhile p l r s
  | .lexit ct => Sys2Proof.Machine.execLexit ct s
  | .lbrk ct => Sys2Proof.Machine.execLbrk ct s
  | .lrd ct d p i0 => Sys2Proof.Machine.execLrd ct d p i0 s
  | .lwr ct p i0 a => Sys2Proof.Machine.execLwr ct p i0 a s
  | .cap c r n a e => Sys2Proof.Machine.execCap c r n a e s
  | .apply ct k => Sys2Proof.Machine.execApply ct k s
  | .cpin ct k => Sys2Proof.Machine.execCpin ct k s
  | .cdrop ct k => Sys2Proof.Machine.execCdrop ct k s
  | .cmov ct d a => Sys2Proof.Machine.execCmov ct d a s
  | .cst ct d k => Sys2Proof.Machine.execCst ct d k s
  | .cld ct k a => Sys2Proof.Machine.execCld ct k a s
  | .cenv ct d k => Sys2Proof.Machine.execCenv ct d k s
  | .clive ct p k => Sys2Proof.Machine.execClive ct p k s
  | .fref ct d a => Sys2Proof.Machine.execFref ct d a s
  | .xget ct d k o => Sys2Proof.Machine.execXget ct d k o s
  | .xput ct d k o => Sys2Proof.Machine.execXput ct d k o s
  | .fadd ct d a b => Sys2Proof.Machine.execFadd ct d a b s
  | .fsub ct d a b => Sys2Proof.Machine.execFsub ct d a b s
  | .fmul ct d a b => Sys2Proof.Machine.execFmul ct d a b s
  | .fma ct d a b => Sys2Proof.Machine.execFma ct d a b s
  | .fnma ct d a b => Sys2Proof.Machine.execFnma ct d a b s
  | .fmin ct d a b => Sys2Proof.Machine.execFmin ct d a b s
  | .fmax ct d a b => Sys2Proof.Machine.execFmax ct d a b s
  | .fdiv ct d a b => Sys2Proof.Machine.execFdiv ct d a b s
  | .fsqrt ct d a => Sys2Proof.Machine.execFsqrt ct d a s
  | .fabs ct d a => Sys2Proof.Machine.execFabs ct d a s
  | .fneg ct d a => Sys2Proof.Machine.execFneg ct d a s
  | .frcp ct d a => Sys2Proof.Machine.execFrcp ct d a s
  | .frsq ct d a => Sys2Proof.Machine.execFrsq ct d a s
  | .fexp2 ct d a => Sys2Proof.Machine.execFexp2 ct d a s
  | .flog2 ct d a => Sys2Proof.Machine.execFlog2 ct d a s
  | .fsinpi ct d a => Sys2Proof.Machine.execFsinpi ct d a s
  | .fcospi ct d a => Sys2Proof.Machine.execFcospi ct d a s
  | .ftanh ct d a => Sys2Proof.Machine.execFtanh ct d a s
  | .ffloor ct d a => Sys2Proof.Machine.execFfloor ct d a s
  | .fceil ct d a => Sys2Proof.Machine.execFceil ct d a s
  | .ftrunc ct d a => Sys2Proof.Machine.execFtrunc ct d a s
  | .frint ct d a => Sys2Proof.Machine.execFrint ct d a s
  | .fclass ct d a => Sys2Proof.Machine.execFclass ct d a s
  | .fcvtF32I32 ct d a => Sys2Proof.Machine.execFcvtF32I32 ct d a s
  | .fcvtF32Ui32 ct d a => Sys2Proof.Machine.execFcvtF32Ui32 ct d a s
  | .fcvtI32F32 ct d a => Sys2Proof.Machine.execFcvtI32F32 ct d a s
  | .fcvtI32rF32 ct d a => Sys2Proof.Machine.execFcvtI32rF32 ct d a s
  | .fcvtUi32F32 ct d a => Sys2Proof.Machine.execFcvtUi32F32 ct d a s
  | .fcvtF16F32 ct d a => Sys2Proof.Machine.execFcvtF16F32 ct d a s
  | .fcvtF32F16 ct d a => Sys2Proof.Machine.execFcvtF32F16 ct d a s
  | .fcvtBf16F32 ct d a => Sys2Proof.Machine.execFcvtBf16F32 ct d a s
  | .fcvtF32Bf16 ct d a => Sys2Proof.Machine.execFcvtF32Bf16 ct d a s
  | .fcvtE4m3F32 ct d a => Sys2Proof.Machine.execFcvtE4m3F32 ct d a s
  | .fcvtE4m3nF32 ct d a => Sys2Proof.Machine.execFcvtE4m3nF32 ct d a s
  | .fcvtE5m2F32 ct d a => Sys2Proof.Machine.execFcvtE5m2F32 ct d a s
  | .fcvtF32E4m3 ct d a n => Sys2Proof.Machine.execFcvtF32E4m3 ct d a n s
  | .fcvtF32E5m2 ct d a n => Sys2Proof.Machine.execFcvtF32E5m2 ct d a n s
  | .fcvtF32F64 ct d a => Sys2Proof.Machine.execFcvtF32F64 ct d a s
  | .fcvtF64F32 ct d a => Sys2Proof.Machine.execFcvtF64F32 ct d a s
  | .fcvtF64I32 ct d a => Sys2Proof.Machine.execFcvtF64I32 ct d a s
  | .fcvtI32F64 ct d a => Sys2Proof.Machine.execFcvtI32F64 ct d a s
  | .fcmp ct p c a b => Sys2Proof.Machine.execFcmp ct p c a b s
  | .hfma2 ct d a b => Sys2Proof.Machine.execHfma2 ct d a b s
  | .hadd2 ct d a b => Sys2Proof.Machine.execHadd2 ct d a b s
  | .hmul2 ct d a b => Sys2Proof.Machine.execHmul2 ct d a b s
  | .bfma2 ct d a b => Sys2Proof.Machine.execBfma2 ct d a b s
  | .dadd ct d a b => Sys2Proof.Machine.execDadd ct d a b s
  | .dmul ct d a b => Sys2Proof.Machine.execDmul ct d a b s
  | .dfma ct d a b => Sys2Proof.Machine.execDfma ct d a b s
  | .dsub ct d a => Sys2Proof.Machine.execDsub ct d a s
  | .dmin ct d a => Sys2Proof.Machine.execDmin ct d a s
  | .dmax ct d a => Sys2Proof.Machine.execDmax ct d a s
  | .ddiv ct d a => Sys2Proof.Machine.execDdiv ct d a s
  | .dsqrt ct d a => Sys2Proof.Machine.execDsqrt ct d a s
  | .dneg ct d a => Sys2Proof.Machine.execDneg ct d a s
  | .dabs ct d a => Sys2Proof.Machine.execDabs ct d a s
  | .dp4 ct d a b => Sys2Proof.Machine.execDp4 ct d a b s
  | .qpush ct d a b => Sys2Proof.Machine.execQpush ct d a b s
  | .qtry ct d a b => Sys2Proof.Machine.execQtry ct d a b s
  | .qspawn ct d a b => Sys2Proof.Machine.execQspawn ct d a b s
  | .qlen ct d a => Sys2Proof.Machine.execQlen ct d a s
  | .ann ct d a b => Sys2Proof.Machine.execAnn ct d a b s
  | .wdr ct d a => Sys2Proof.Machine.execWdr ct d a s
  | .promo ct d a => Sys2Proof.Machine.execPromo ct d a s
  | .rqry ct d a => Sys2Proof.Machine.execRqry ct d a s
  | .lnkpark ct d a => Sys2Proof.Machine.execLnkpark ct d a s
  | .lnkwake ct d a => Sys2Proof.Machine.execLnkwake ct d a s
  | .lnkstat ct d a => Sys2Proof.Machine.execLnkstat ct d a s
  | .lnkdrain ct d a => Sys2Proof.Machine.execLnkdrain ct d a s
  | .lnksched ct d a => Sys2Proof.Machine.execLnksched ct d a s
  | .semacq ct d => Sys2Proof.Machine.execSemacq ct d s
  | .semrel ct d => Sys2Proof.Machine.execSemrel ct d s
  | .purge ct d a => Sys2Proof.Machine.execPurge ct d a s
  | .lb ct d a o => Sys2Proof.Machine.execLb ct d a o s
  | .lbu ct d a o => Sys2Proof.Machine.execLbu ct d a o s
  | .lh ct d a o => Sys2Proof.Machine.execLh ct d a o s
  | .lhu ct d a o => Sys2Proof.Machine.execLhu ct d a o s
  | .lw ct d a o => Sys2Proof.Machine.execLw ct d a o s
  | .ld ct d a o => Sys2Proof.Machine.execLd ct d a o s
  | .lq ct d a o => Sys2Proof.Machine.execLq ct d a o s
  | .sb ct d a o => Sys2Proof.Machine.execSb ct d a o s
  | .sh ct d a o => Sys2Proof.Machine.execSh ct d a o s
  | .sw ct d a o => Sys2Proof.Machine.execSw ct d a o s
  | .sd ct d a o => Sys2Proof.Machine.execSd ct d a o s
  | .sq ct d a o => Sys2Proof.Machine.execSq ct d a o s
  | .setbase ct k a b => Sys2Proof.Machine.execSetbase ct k a b s
  | .setidx ct k a => Sys2Proof.Machine.execSetidx ct k a s
  | .addidx ct k a => Sys2Proof.Machine.execAddidx ct k a s
  | .getidx ct d k => Sys2Proof.Machine.execGetidx ct d k s
  | .frl ct d a o => Sys2Proof.Machine.execFrl ct d a o s
  | .frs ct d a o => Sys2Proof.Machine.execFrs ct d a o s
  | .wload ct d a => Sys2Proof.Machine.execWload ct d a s
  | .mma ct d a => Sys2Proof.Machine.execMma ct d a s
  | .accx ct d a => Sys2Proof.Machine.execAccx ct d a s
  | .tclr ct a => Sys2Proof.Machine.execTclr ct a s
  | .quant2 ct d a => Sys2Proof.Machine.execQuant2 ct d a s
  | .tstat ct d => Sys2Proof.Machine.execTstat ct d s
  | .tdep ct d a => Sys2Proof.Machine.execTdep ct d a s
  | .tarv ct d a => Sys2Proof.Machine.execTarv ct d a s
  | .tarm ct d a => Sys2Proof.Machine.execTarm ct d a s
  | .aadd ct d a b => Sys2Proof.Machine.execAadd ct d a b s
  | .aand ct d a b => Sys2Proof.Machine.execAand ct d a b s
  | .aor ct d a b => Sys2Proof.Machine.execAor ct d a b s
  | .axor ct d a b => Sys2Proof.Machine.execAxor ct d a b s
  | .amin ct d a b => Sys2Proof.Machine.execAmin ct d a b s
  | .amax ct d a b => Sys2Proof.Machine.execAmax ct d a b s
  | .aminu ct d a b => Sys2Proof.Machine.execAminu ct d a b s
  | .amaxu ct d a b => Sys2Proof.Machine.execAmaxu ct d a b s
  | .aswp ct d a b => Sys2Proof.Machine.execAswp ct d a b s
  | .acas ct d a b => Sys2Proof.Machine.execAcas ct d a b s
  | .afadd ct d a b => Sys2Proof.Machine.execAfadd ct d a b s
  | .amaxp ct d a b => Sys2Proof.Machine.execAmaxp ct d a b s
  | .aincm ct d a b => Sys2Proof.Machine.execAincm ct d a b s
  | .fence ct d a w k => Sys2Proof.Machine.execFence ct d a w k s
  | .barInit ct d n => Sys2Proof.Machine.execBarInit ct d n s
  | .barArrive ct n => Sys2Proof.Machine.execBarArrive ct n s
  | .barWait ct n => Sys2Proof.Machine.execBarWait ct n s
  | .barSync ct n => Sys2Proof.Machine.execBarSync ct n s
  | .barArrivec ct d n => Sys2Proof.Machine.execBarArrivec ct d n s
  | .barTest ct d n => Sys2Proof.Machine.execBarTest ct d n s
  | .barLeave ct n => Sys2Proof.Machine.execBarLeave ct n s
  | .drain ct a b => Sys2Proof.Machine.execDrain ct a b s
  | .voteAny ct d p => Sys2Proof.Machine.execVoteAny ct d p s
  | .voteAll ct d p => Sys2Proof.Machine.execVoteAll ct d p s
  | .voteBallot ct d p => Sys2Proof.Machine.execVoteBallot ct d p s
  | .voteUni ct d p => Sys2Proof.Machine.execVoteUni ct d p s
  | .voteFany ct d m => Sys2Proof.Machine.execVoteFany ct d m s
  | .voteFall ct d m => Sys2Proof.Machine.execVoteFall ct d m s
  | .voteFballot ct d m => Sys2Proof.Machine.execVoteFballot ct d m s
  | .shflIdx ct d a b => Sys2Proof.Machine.execShflIdx ct d a b s
  | .shflUp ct d a b => Sys2Proof.Machine.execShflUp ct d a b s
  | .shflDown ct d a b => Sys2Proof.Machine.execShflDown ct d a b s
  | .shflXor ct d a b => Sys2Proof.Machine.execShflXor ct d a b s
  | .redAdd ct d a => Sys2Proof.Machine.execRedAdd ct d a s
  | .redMin ct d a => Sys2Proof.Machine.execRedMin ct d a s
  | .redMax ct d a => Sys2Proof.Machine.execRedMax ct d a s
  | .redMinu ct d a => Sys2Proof.Machine.execRedMinu ct d a s
  | .redMaxu ct d a => Sys2Proof.Machine.execRedMaxu ct d a s
  | .redAnd ct d a => Sys2Proof.Machine.execRedAnd ct d a s
  | .redOr ct d a => Sys2Proof.Machine.execRedOr ct d a s
  | .redXor ct d a => Sys2Proof.Machine.execRedXor ct d a s
  | .redFadd ct d a => Sys2Proof.Machine.execRedFadd ct d a s
  | .redFmin ct d a => Sys2Proof.Machine.execRedFmin ct d a s
  | .redFmax ct d a => Sys2Proof.Machine.execRedFmax ct d a s
  | .redAdd64 ct d a => Sys2Proof.Machine.execRedAdd64 ct d a s
  | .scanAdd ct d a e => Sys2Proof.Machine.execScanAdd ct d a e s
  | .scanMin ct d a e => Sys2Proof.Machine.execScanMin ct d a e s
  | .scanMax ct d a e => Sys2Proof.Machine.execScanMax ct d a e s
  | .scanMinu ct d a e => Sys2Proof.Machine.execScanMinu ct d a e s
  | .scanMaxu ct d a e => Sys2Proof.Machine.execScanMaxu ct d a e s
  | .scanAnd ct d a e => Sys2Proof.Machine.execScanAnd ct d a e s
  | .scanOr ct d a e => Sys2Proof.Machine.execScanOr ct d a e s
  | .scanXor ct d a e => Sys2Proof.Machine.execScanXor ct d a e s
  | .scanFadd ct d a e => Sys2Proof.Machine.execScanFadd ct d a e s
  | .scanFmin ct d a e => Sys2Proof.Machine.execScanFmin ct d a e s
  | .scanFmax ct d a e => Sys2Proof.Machine.execScanFmax ct d a e s
  | .scanAdd64 ct d a e => Sys2Proof.Machine.execScanAdd64 ct d a e s
  | .matchEq32 ct d a => Sys2Proof.Machine.execMatchEq32 ct d a s
  | .matchEq64 ct d a => Sys2Proof.Machine.execMatchEq64 ct d a s
  | .matchLeader ct d a => Sys2Proof.Machine.execMatchLeader ct d a s
  | .part ct a => Sys2Proof.Machine.execPart ct a s
  | .cpy ct d a => Sys2Proof.Machine.execCpy ct d a s
  | .cpym ct d a => Sys2Proof.Machine.execCpym ct d a s
  | .chain ct d a => Sys2Proof.Machine.execChain ct d a s
  | .psum ct d a => Sys2Proof.Machine.execPsum ct d a s
  | .rsort ct d a => Sys2Proof.Machine.execRsort ct d a s
  | .walk ct d a => Sys2Proof.Machine.execWalk ct d a s
  | .yieldExpiry t => Sys2Proof.Machine.execYieldExpiry t s
  | .poolEviction p => Sys2Proof.Machine.execPoolEviction p s
  | .variableLatencyCompletion t => Sys2Proof.Machine.execVariableLatencyCompletion t s
  | .impreciseFaultReport n => Sys2Proof.Machine.execImpreciseFaultReport n s
  | .mwaitWake t => Sys2Proof.Machine.execMwaitWake t s
  | .mwaitLimit t => Sys2Proof.Machine.execMwaitLimit t s
  | .sheafExchange p => Sys2Proof.Machine.execSheafExchange p s
  | .pendingSheafEntry p => Sys2Proof.Machine.execPendingSheafEntry p s
  | .environmentPortOperation c => Sys2Proof.Machine.execEnvironmentPortOperation c s
  | .readRequest n => Sys2Proof.Machine.execReadRequest n s
  | .writeRequest n => Sys2Proof.Machine.execWriteRequest n s
  | .maskedWrite n => Sys2Proof.Machine.execMaskedWrite n s
  | .atomicRequest n partner => Sys2Proof.Machine.execAtomicRequest n partner s
  | .readResponse n => Sys2Proof.Machine.execReadResponse n s
  | .writeAcknowledgement n => Sys2Proof.Machine.execWriteAcknowledgement n s
  | .atomicResponse n => Sys2Proof.Machine.execAtomicResponse n s
  | .combineEntryExpiry die entry => Sys2Proof.Machine.execCombineEntryExpiry die entry s
  | .redirect n => Sys2Proof.Machine.execRedirect n s
  | .moved n => Sys2Proof.Machine.execMoved n s
  | .refused n => Sys2Proof.Machine.execRefused n s
  | .poisonedResponse n => Sys2Proof.Machine.execPoisonedResponse n s
  | .recallAcknowledgement n => Sys2Proof.Machine.execRecallAcknowledgement n s
  | .recallTimeout die line => Sys2Proof.Machine.execRecallTimeout die line s
  | .skipNotice n => Sys2Proof.Machine.execSkipNotice n s
  | .holdRetry n => Sys2Proof.Machine.execHoldRetry n s
  | .holdRetryResend n => Sys2Proof.Machine.execHoldRetryResend n s
  | .holdBufferAdmit n => Sys2Proof.Machine.execHoldBufferAdmit n s
  | .stampExtension n => Sys2Proof.Machine.execStampExtension n s
  | .forwardedWrite n => Sys2Proof.Machine.execForwardedWrite n s
  | .countUpdateDeadline die => Sys2Proof.Machine.execCountUpdateDeadline die s
  | .accessExpiry n => Sys2Proof.Machine.execAccessExpiry n s
  | .engineCommandStart e => Sys2Proof.Machine.execEngineCommandStart e s
  | .engineCommandComplete e => Sys2Proof.Machine.execEngineCommandComplete e s
  | .matrixCommandStart p => Sys2Proof.Machine.execMatrixCommandStart p s
  | .mmaRowStep p => Sys2Proof.Machine.execMmaRowStep p s
  | .matrixCommandComplete p => Sys2Proof.Machine.execMatrixCommandComplete p s
  | .tileTaskIssue c => Sys2Proof.Machine.execTileTaskIssue c s
  | .groupBind die rec => Sys2Proof.Machine.execGroupBind die rec s
  | .groupRestore die rec => Sys2Proof.Machine.execGroupRestore die rec s
  | .faultSwapOut g => Sys2Proof.Machine.execFaultSwapOut g s
  | .preemptionRequest g => Sys2Proof.Machine.execPreemptionRequest g s
  | .preemptionComplete g => Sys2Proof.Machine.execPreemptionComplete g s
  | .preemptionFallback g => Sys2Proof.Machine.execPreemptionFallback g s
  | .groupRetire g => Sys2Proof.Machine.execGroupRetire g s
  | .starvationPreemption die => Sys2Proof.Machine.execStarvationPreemption die s
  | .schedulingDecision die => Sys2Proof.Machine.execSchedulingDecision die s
  | .queuePush n => Sys2Proof.Machine.execQueuePush n s
  | .pushRetry n => Sys2Proof.Machine.execPushRetry n s
  | .launchDispatch q => Sys2Proof.Machine.execLaunchDispatch q s
  | .waitCounterRead q => Sys2Proof.Machine.execWaitCounterRead q s
  | .launchComplete l => Sys2Proof.Machine.execLaunchComplete l s
  | .completionCounterAdd l => Sys2Proof.Machine.execCompletionCounterAdd l s
  | .faultDescriptorWrite die => Sys2Proof.Machine.execFaultDescriptorWrite die s
  | .announcement n => Sys2Proof.Machine.execAnnouncement n s
  | .withdrawal n => Sys2Proof.Machine.execWithdrawal n s
  | .withdrawalAcknowledgement n => Sys2Proof.Machine.execWithdrawalAcknowledgement n s
  | .withdrawalLimit die => Sys2Proof.Machine.execWithdrawalLimit die s
  | .replicaListingAcknowledgement n => Sys2Proof.Machine.execReplicaListingAcknowledgement n s
  | .replicaAckTimeout die => Sys2Proof.Machine.execReplicaAckTimeout die s
  | .promoteRequest n => Sys2Proof.Machine.execPromoteRequest n s
  | .moveFinal n => Sys2Proof.Machine.execMoveFinal n s
  | .forwardListContinuation n => Sys2Proof.Machine.execForwardListContinuation n s
  | .moveParkedEnd n => Sys2Proof.Machine.execMoveParkedEnd n s
  | .promoTimeout die => Sys2Proof.Machine.execPromoTimeout die s
  | .frameReceived port bytes => Sys2Proof.Machine.execFrameReceived port bytes s
  | .refreshFlit port => Sys2Proof.Machine.execRefreshFlit port s
  | .refreshDue port => Sys2Proof.Machine.execRefreshDue port s
  | .packetTransmit port => Sys2Proof.Machine.execPacketTransmit port s
  | .slotMarker port => Sys2Proof.Machine.execSlotMarker port s
  | .meetingMarker port => Sys2Proof.Machine.execMeetingMarker port s
  | .drainMarker port => Sys2Proof.Machine.execDrainMarker port s
  | .finalMarker port => Sys2Proof.Machine.execFinalMarker port s
  | .relayPacket n => Sys2Proof.Machine.execRelayPacket n s
  | .linkFunctionAccept die => Sys2Proof.Machine.execLinkFunctionAccept die s
  | .wavelengthLock port lane => Sys2Proof.Machine.execWavelengthLock port lane s
  | .lossOfLock port lane => Sys2Proof.Machine.execLossOfLock port lane s
  | .trainingTimeout port => Sys2Proof.Machine.execTrainingTimeout port s
  | .wakeLockTimeout port => Sys2Proof.Machine.execWakeLockTimeout port s
  | .darkTimeout port => Sys2Proof.Machine.execDarkTimeout port s
  | .depthRewrite port => Sys2Proof.Machine.execDepthRewrite port s
  | .signatureCompare t => Sys2Proof.Machine.execSignatureCompare t s
  | .purgeStart n => Sys2Proof.Machine.execPurgeStart n s
  | .purgeAcknowledgement n => Sys2Proof.Machine.execPurgeAcknowledgement n s
  | .purgeRelease n => Sys2Proof.Machine.execPurgeRelease n s
  | .powerLimit die gate => Sys2Proof.Machine.execPowerLimit die gate s
  | .freezePin => Sys2Proof.Machine.execFreezePin s
  | .resetPin => Sys2Proof.Machine.execResetPin s
  | .bypass tdi => Sys2Proof.Machine.execBypass tdi s
  | .idcode => Sys2Proof.Machine.execIdcode s
  | .samplePreload pins preload => Sys2Proof.Machine.execSamplePreload pins preload s
  | .extest => Sys2Proof.Machine.execExtest s
  | .seldie die => Sys2Proof.Machine.execSeldie die s
  | .memrd fa => Sys2Proof.Machine.execMemrd fa s
  | .fwCreateContext die => Sys2Proof.Machine.execFwCreateContext die s
  | .fwMakeContextLive die => Sys2Proof.Machine.execFwMakeContextLive die s
  | .fwRetireContext die => Sys2Proof.Machine.execFwRetireContext die s
  | .fwCreateRegion die => Sys2Proof.Machine.execFwCreateRegion die s
  | .fwChangeRegion die => Sys2Proof.Machine.execFwChangeRegion die s
  | .fwRetireRegion die => Sys2Proof.Machine.execFwRetireRegion die s
  | .fwCreateQueue die => Sys2Proof.Machine.execFwCreateQueue die s
  | .fwDestroyQueue die => Sys2Proof.Machine.execFwDestroyQueue die s
  | .fwInvalidateTranslations die => Sys2Proof.Machine.execFwInvalidateTranslations die s
  | .fwReplayParkedRange die => Sys2Proof.Machine.execFwReplayParkedRange die s
  | .fwEmptyFaultRecord die => Sys2Proof.Machine.execFwEmptyFaultRecord die s
  | .fwResetConsumed die => Sys2Proof.Machine.execFwResetConsumed die s
  | .fwSetBudget die => Sys2Proof.Machine.execFwSetBudget die s
  | .fwAnnouncePortStatus die => Sys2Proof.Machine.execFwAnnouncePortStatus die s
  | .fwWithdrawPortStatus die => Sys2Proof.Machine.execFwWithdrawPortStatus die s
  | .fwAcquireSemaphore die => Sys2Proof.Machine.execFwAcquireSemaphore die s
  | .fwReleaseSemaphore die => Sys2Proof.Machine.execFwReleaseSemaphore die s
  | .fwSetRetry die => Sys2Proof.Machine.execFwSetRetry die s
  | .fwSetPreemptionLimit die => Sys2Proof.Machine.execFwSetPreemptionLimit die s
  | .fwDesignateSequencer die => Sys2Proof.Machine.execFwDesignateSequencer die s
  | .fwVersionQuery die => Sys2Proof.Machine.execFwVersionQuery die s
  | .fwAttestationReport die => Sys2Proof.Machine.execFwAttestationReport die s
  | .fwDeviceCertificate die => Sys2Proof.Machine.execFwDeviceCertificate die s
  | .fwPowerState die => Sys2Proof.Machine.execFwPowerState die s
  | .fwFirmwareUpdate die => Sys2Proof.Machine.execFwFirmwareUpdate die s
  | .fwFreeze die => Sys2Proof.Machine.execFwFreeze die s
  | .fwPackageReset die => Sys2Proof.Machine.execFwPackageReset die s
  | .fwWriteStandTable die => Sys2Proof.Machine.execFwWriteStandTable die s
  | .illegalInstruction w => Sys2Proof.Machine.execIllegalInstruction w s
  | .fixedLatencyWriteback t => Sys2Proof.Machine.execFixedLatencyWriteback t s
  | .frameBoundary port => Sys2Proof.Machine.execFrameBoundary port s

end
end Sys2Proof.Machine
end

