-- ==== Sys2Proof/Machine/Pick.lean ====
section
/-! DEFINITION. Pick: a partition's picker (R83-R85), instruction fetch and the start of a lane's instruction (R31, R47 step 1, R90,
R277, R401), and a cycle of the package. -/

namespace Sys2Proof.Machine

open Sys2Proof

noncomputable section

/-! ### The picker (R83-R85, R15) -/

/-- The sheaf of a thread is in its partition's active set and its group is one whose threads issue. -/
def State.canRun (s : State) (t : ThreadId) : Bool :=
  let x := s.grp (gidOf t)
  (x.st == .resident || x.st == .preempting) && x.leaving.isNone && (AMap.getD x.sheaves (sheafOf x t.t) {}).active

/-- Threads of a partition's active sheaves; of a lane pair the primary copy alone. -/
def State.lanesOf (s : State) (p : PartId) : List (ThreadId × Thread) :=
  s.threads.filter fun e => !e.1.sh && decide (s.partOf e.1 = p) && liveThr e.2 && s.canRun e.1

/-- A thread a pick of this cycle may take. -/
def Thread.eligible (th : Thread) (now : Nat) : Bool := th.status == .ready && decide (th.notBefore ≤ now)

/-- Program counters move from the pool, oldest first, into free places of the 64 tracked. -/
def fillTracked : List (Nat × Nat) → List (Nat × Nat) → List (Nat × Nat) × List (Nat × Nat)
  | tr, [] => (tr, [])
  | tr, e :: l => if tr.length < 64 then fillTracked (tr ++ [(e.1, 0)]) l else (tr, e :: l)

/-- The tracked program counters and the pool as a pick finds them (R83, R85). Program counters that enter the pool at one pick stand
in it in the order of the threads' table (DESIGN CHOICE, log entry 72). -/
def State.track (s : State) (p : PartId) : Part :=
  let x := s.part p
  let pcs := ((s.lanesOf p).map fun e => e.2.pc.toNat).dedup
  let tr := x.tracked.filter fun e => pcs.contains e.1
  let pool := x.pool.filter fun e => pcs.contains e.1
  let new := pcs.filter fun a => !((tr ++ pool).any fun e => e.1 == a)
  let r := fillTracked tr (pool ++ new.map fun a => (a, s.now p.die))
  { x with tracked := r.1, pool := r.2 }

/-- The better of two waiting lanes: the one that has waited longer, then the lower slot, then the lower lane (R83). The manual does
not say how sheaves stand in an active set: its slots are taken in the order of their groups' slots, then of their threads' numbers
(DESIGN CHOICE, log entry 72). -/
def waitsLonger (a b : ThreadId × Thread) : Bool :=
  decide (a.2.since < b.2.since) || (a.2.since == b.2.since && (decide (a.1.slot < b.1.slot) || (a.1.slot == b.1.slot && decide (a.1.t ≤ b.1.t))))

/-- A lane put in its place of an ordered list. -/
def insertBy (f : ThreadId × Thread → ThreadId × Thread → Bool) (a : ThreadId × Thread) : List (ThreadId × Thread) → List (ThreadId × Thread)
  | [] => [a]
  | b :: l => if f a b then a :: b :: l else b :: insertBy f a l

def orderBy (f : ThreadId × Thread → ThreadId × Thread → Bool) (l : List (ThreadId × Thread)) : List (ThreadId × Thread) :=
  l.foldr (insertBy f) []

/-- The program counter chosen: of those tracked, the one whose ready thread has waited longest; a tie goes to the lower. -/
def choosePc (l : List (ThreadId × Thread)) : Option Nat :=
  (l.foldl (fun (m : Option (Nat × Nat)) e => match m with
    | none => some (e.2.since, e.2.pc.toNat)
    | some x => if e.2.since < x.1 ∨ (e.2.since = x.1 ∧ e.2.pc.toNat < x.2) then some (e.2.since, e.2.pc.toNat) else m) none).map (·.2)

/-- The first lanes of a list that fit in 32 places; a lane of a lane pair takes two (R83). -/
def takeLanes (s : State) : Nat → List (ThreadId × Thread) → List (ThreadId × Thread)
  | _, [] => []
  | k, e :: l =>
    let w := if (s.grp (gidOf e.1)).shadow = 1 then 2 else 1
    if k + w ≤ 32 then e :: takeLanes s (k + w) l else []

/-- Issue is held back by the power limit of the stack or by the capped power state (R15, R391). -/
def State.issueGated (s : State) (d : Nat) : Bool :=
  (s.die d).gated || (s.power == 1 && decide (s.fraction ≤ s.now d % 16))

/-- A pick of a partition: its glean is then issued lane by lane. -/
def State.pick (s : State) (p : PartId) : State :=
  let now := s.now p.die
  let x := s.track p
  let x := (x.evicted now).getD x
  let x : Part := { x with lastPick := now + 1 }
  let can := (s.lanesOf p).filter fun e => e.2.eligible now && x.tracked.any fun y => y.1 == e.2.pc.toNat
  match (if s.issueGated p.die then none else choosePc can) with
  | none => s.setPart p x
  | some a =>
    let l := takeLanes s 0 (orderBy waitsLonger (can.filter fun e => e.2.pc.toNat == a))
    let l := orderBy (fun a b => decide (a.1.t < b.1.t) || (a.1.t == b.1.t && decide (a.1.slot ≤ b.1.slot))) l
    let s := s.setPart p { x with tracked := x.tracked.map fun y => if y.1 = a then (y.1, now) else y }
    { s with glean := l.map (·.1), gleanNo := s.gleanNo + 1 }

/-- A partition with lanes in its active set that has not yet picked in this cycle (R83). -/
def State.unpicked (s : State) : Option PartId :=
  (((s.threads.filter fun e => !e.1.sh && liveThr e.2 && s.canRun e.1).map fun e => s.partOf e.1).find? fun p =>
    decide ((s.part p).lastPick ≤ s.now p.die))

/-! ### Fetch (R31, R47, R401) -/

/-- One instruction word: a load of the fetching thread on the lsu path, with the x permission. The manual gives the poison of
an instruction word no effect, and the model gives it none (log entry 33). -/
def State.fetchWord (s : State) (va : Nat) : RRes :=
  if 2 ^ 55 ≤ va then .stop (trapAt s 0x0D va)
  else match s.xlate s.space va 4 with
    | .ok s fa => match s.loadRoute s.cur.die fa with
      | none => .stop (trapAt s 0x0E va)
      | some r => match s.syncRead s.space r fa 4 with
        | .ok s bs => .ok s bs
        | .fault c => if c = 0x11 then lostFetch s 4 else .stop (trapAt s c va)
        | .wait s => .stop (.wait s .sync)
    | x => .stop (x.toRes s va 3)

/-- The words of the instruction at the program counter. -/
inductive Fetched where
  | ok (s : State) (w0 w1 : Nat)
  | stop (r : Res)

def wordOf (bs : List (Byte × Bool)) : Nat := leNat (bs.map (·.1))

/-- Fetch: the word at the program counter, and the one after it where the first is a prefix. -/
def State.fetch (s : State) : Fetched :=
  match s.fetchWord s.me.pc.toNat with
  | .stop r => .stop r
  | .lost s => .stop (.wait s .sync)
  | .ok s bs =>
    let w := wordOf bs
    if w / 2 ^ 25 = 0x7F then match s.fetchWord (s.me.pc.toNat + 4) with
      | .stop r => .stop r
      | .lost s => .stop (.wait s .sync)
      | .ok s cs => .ok s w (wordOf cs)
    else .ok s w 0

/-! ### What comes before an instruction in its lane -/

/-- A lane that stops before its instruction: with a cause, in a wait, or on poison. -/
def stopLane (r : Res) (s : State) : State :=
  match r with
  | .trap _ c v _ => s.takeTrap c s.me.pc v
  | .wait _ w => s.setMe { s.me with status := .waiting w }
  | .stay _ => s.setMe { s.me with status := .parked }
  | .consume _ => if s.cur.sh then s.setMe { s.me with status := .stopped } else s.consume s.cur 0x10
  | _ => s

def Res.stateOf : Res → State
  | .next s => s
  | .jump s _ => s
  | .enter s _ => s
  | .arrive s _ => s
  | .resume s _ => s
  | .trap s _ _ _ => s
  | .consume s => s
  | .wait s _ => s
  | .stay s => s
  | .past s => s

/-- The stop taken by the lane and its shadow. -/
def State.stopAt (r : Res) : State := ((Res.stateOf r).bothCopies (stopLane r)).endIssue

/-- An imprecise fault is delivered at the thread's next issue (R90); a lost access is an event of the group, which goes on (R87). -/
def deliverFault (c : BitVec 8) (v : DWord) (rest : List (BitVec 8 × DWord)) (s : State) : State :=
  let th := s.me
  let s := s.setMe { th with impr := rest }
  if th.handler || c.toNat == 0x11 then (if s.cur.sh then s else s.groupEvent s.cur c.toNat v)
  else
    s.takeTrap c.toNat th.pc v

/-- A cause whose handler entry had to wait is taken (R88). -/
def State.raiseNow (s : State) : State :=
  match s.me.raise with
  | some (c, pc, v) => (s.setMe { s.me with raise := none }).takeTrap c pc v
  | none => s

/-- A thread restored as saved enters its safe point's restore routine (R277, R283). -/
def State.enterRestore (s : State) : State :=
  let g := s.myGrp
  match s.readPiece (g.header + g.safeOff + 8 * s.me.safept + 4) 4 0 1 with
  | .stop r => State.stopAt r
  | .lost s => State.stopAt (.consume s)
  | .ok s bs =>
    if bs.any (·.2) then State.stopAt (.consume s)
    else (s.bothCopies fun s => s.setMe { s.me with pc := BitVec.ofNat 64 (codeAt g.header (leNat (bs.map (·.1)))), restoring := false }).endIssue

/-- The words being issued, as later checks report them (R48). -/
def irOf (w0 w1 : Nat) : Ir := if w0 / 2 ^ 25 = 0x7F then { pfx := some w0, word := w1 } else { pfx := none, word := w0 }

/-- A lane of the glean issues: what is due before its instruction, then fetch and decode, then the instruction (R47). An
instruction in progress has issued: a fault waits for the issue of the next one (R90). -/
def State.lane (s : State) : Host.Outcome State Fault Refusal :=
  let s := s.bothCopies fun s => s.setMe (s.me.settled (s.now s.cur.die))
  match s.me.raise, (if s.me.issued.isSome then [] else s.me.impr) with
  | some _, _ => .next (s.bothCopies State.raiseNow).endIssue
  | none, (c, v) :: rest => .next (s.bothCopies (deliverFault c v rest)).endIssue
  | none, [] =>
    if s.me.restoring then .next s.enterRestore
    else match s.fetch with
      | .stop r => .next (State.stopAt r)
      | .ok s w0 w1 =>
        let s := { s with ir := irOf w0 w1 }
        match decode w0 w1 with
        | .ok i => exec i s
        | .illegal w => execIllegalInstruction (BitVec.ofNat 32 w) s

/-- The first lane left of the glean, if it can still issue: a lane that an earlier one has stopped issues nothing. -/
def State.nextLane (s : State) (t : ThreadId) (l : List ThreadId) : Host.Outcome State Fault Refusal :=
  let s := { s with cur := t, glean := l }
  if s.me.status = .ready ∧ s.canRun t then s.lane else .next s

/-! ### The end of a wait (R81) -/

/-- A thread, and in a lane pair its shadow, is ready. -/
def State.rouse (s : State) (t : ThreadId) : State :=
  let up (s : State) (t : ThreadId) : State := s.setThr t ((s.thr t).wakeAt (s.now t.die))
  if (s.grp (gidOf t)).shadow = 1 then up (up s t) { t with sh := true } else up s t

/-- The waiting thread's instruction is looked at as if it were issued now. Where it would still wait, what its reads have done
towards their end stands; where it would not, nothing of it is done and the thread is ready. A fault that is to be delivered at
the thread's next issue (R90) does not end a wait. -/
def State.reconsider (s : State) (t : ThreadId) : State :=
  let th := s.thr t
  let g := s.grp (gidOf t)
  match th.status with
  | .waiting w =>
    if w.byEvent || t.sh || g.leaving.isSome || !(g.st == .resident || g.st == .preempting) then s
    else match State.lane (State.setThr { s with cur := t } t { th with impr := [] }) with
      | .next u =>
        let x := u.thr t
        match x.status with
        | .waiting _ => State.setThr { u with cur := s.cur, ir := s.ir } t { x with impr := th.impr ++ x.impr }
        | _ => s.rouse t
      | _ => s
  | _ => s

def State.reconsiderAll (s : State) : State := s.threads.foldl (fun s e => s.reconsider e.1) s

/-! ### A cycle (R83, R104) -/

/-- Every die counts a cycle, the management cores go on with bring-up and with regions being retired, commands held back look again, groups go out and come back, and
waits whose condition no longer holds end. -/
def State.tick (s : State) : State :=
  (([0, 1, 2, 3] : List Nat).foldl (fun s d => s.setDie d { s.die d with cycle := (s.die d).cycle + 1 }) s).bringUpPorts.retireRegions.driveAll.driveGroups.reconsiderAll

end

end Sys2Proof.Machine
end

