-- ==== Sys2Proof/Machine/Policy.lean ====
section
/-! DEFINITION. Policy: which step the package takes next where the manual leaves the order open and no choice is listed
(log entry 34): the first event whose condition holds and that changes the state, then the picks of the cycle, then the next cycle. -/

namespace Sys2Proof.Machine

open Sys2Proof

noncomputable section

/-- The event of a packet (R343). -/
def packetEvent (n : Nat) (p : Pkt) : List Instr :=
  if p.relay then [.relayPacket n]
  else match p.kind with
  | 0 => [.readRequest n]
  | 1 => if p.fwd then [.forwardedWrite n] else if p.push then [.queuePush n] else [.writeRequest n]
  | 2 => [.atomicRequest n none]
  | 3 => [.readResponse n]
  | 4 => [.writeAcknowledgement n]
  | 5 => [.atomicResponse n]
  | 6 => [.redirect n]
  | 7 => [.moved n]
  | 8 => [.refused n]
  | 9 => [.poisonedResponse n]
  | 11 => [.recallAcknowledgement n]
  | 12 => [.skipNotice n]
  | 13 => if p.val2 = 0 then [.purgeStart n] else if p.val2 = 1 then [.purgeAcknowledgement n] else [.purgeRelease n]
  | 14 => [.holdRetry n]
  | 15 => [.stampExtension n]
  | 16 => if p.fwd then [.forwardedWrite n] else [.maskedWrite n]
  | _ => []

/-- The events of a control message (R345). -/
def messageEvents (n : Nat) : List Instr :=
  [.announcement n, .withdrawal n, .withdrawalAcknowledgement n, .replicaListingAcknowledgement n, .promoteRequest n, .moveFinal n,
   .moveParkedEnd n, .forwardListContinuation n]

def engineEvents (e : EngineId) : List Instr := [.engineCommandStart e, .engineCommandComplete e]

def clusterEvents (d c : Nat) : List Instr :=
  engineEvents (.chain d c) ++ engineEvents (.psum d c) ++ engineEvents (.walk d c)

def partEvents (p : PartId) : List Instr :=
  [.matrixCommandStart p, .mmaRowStep p, .matrixCommandComplete p, .sheafExchange p, .pendingSheafEntry p, .poolEviction p]

/-- A thread's events, where it has results under way or waits for one. -/
def threadEvents (t : ThreadId) (th : Thread) : List Instr :=
  (if th.vpend = [] then [] else [.variableLatencyCompletion t]) ++ (if th.pend = [] then [] else [.fixedLatencyWriteback t]) ++
    match th.status with
    | .yielding _ => [.yieldExpiry t]
    | .mwait _ => [.mwaitWake t, .mwaitLimit t]
    | .waiting .twin => [.signatureCompare t]
    | _ => []

def groupEvents (g : GroupId) : List Instr :=
  [.groupRetire g, .preemptionRequest g, .preemptionComplete g, .preemptionFallback g, .faultSwapOut g]

/-- The step that serves a call of a die (R379). -/
def callEvents (d : Nat) : List Instr :=
  [.fwCreateContext d, .fwMakeContextLive d, .fwRetireContext d, .fwCreateRegion d, .fwChangeRegion d, .fwRetireRegion d,
   .fwCreateQueue d, .fwDestroyQueue d, .fwInvalidateTranslations d, .fwReplayParkedRange d, .fwEmptyFaultRecord d, .fwResetConsumed d,
   .fwSetBudget d, .fwAnnouncePortStatus d, .fwWithdrawPortStatus d, .fwAcquireSemaphore d, .fwReleaseSemaphore d, .fwSetRetry d,
   .fwSetPreemptionLimit d, .fwDesignateSequencer d, .fwVersionQuery d, .fwAttestationReport d, .fwDeviceCertificate d, .fwPowerState d,
   .fwFirmwareUpdate d, .fwFreeze d, .fwPackageReset d, .fwWriteStandTable d]

def dieEvents (s : State) (d : Nat) : List Instr :=
  let x := s.die d
  ((x.slots.filter fun r => r.2.valid && r.2.status % 256 == 0).flatMap fun r => [.groupBind d r.1, .groupRestore d r.1]) ++
    [.schedulingDecision d, .starvationPreemption d, .faultDescriptorWrite d, .countUpdateDeadline d, .withdrawalLimit d,
     .replicaAckTimeout d, .promoTimeout d, .linkFunctionAccept d] ++
    (x.hostDir.map fun l => .recallTimeout d l.line) ++ (x.pairs.map fun e => .combineEntryExpiry d e.1) ++
    ((List.range (x.holdW ++ x.holdL).length).map fun k => .holdBufferAdmit (4 * k + d)) ++
    (if (s.callHead d).isSome then callEvents d else [])

/-- A port's events; a frame leaves only where it carries something, or a change of width is to be announced. -/
def portEvents (q : Nat) (x : Port) : List Instr :=
  [.refreshFlit q, .meetingMarker q, .slotMarker q, .drainMarker q, .finalMarker q, .refreshDue q, .packetTransmit q] ++
    (if x.frame ≠ [] ∨ x.newCarry.isSome ∨ x.marked.isSome then [.frameBoundary q] else []) ++
    [.trainingTimeout q, .wakeLockTimeout q, .darkTimeout q, .depthRewrite q]

/-- The events the package itself may take. What comes from outside (frames, locks, pins, power limits, the test port) is listed
by no policy: it comes by `State.choices` alone. -/
def State.candidates (s : State) : List Instr :=
  (s.net.flatMap fun e => packetEvent e.1 e.2) ++ (s.ctl.flatMap fun e => messageEvents e.1) ++
    (if s.reports = [] then [] else [.impreciseFaultReport 0]) ++
    (s.copies.flatMap fun e => engineEvents (.copy e.1.die e.1.core)) ++ (s.clusters.flatMap fun e => clusterEvents e.1.1 e.1.2) ++
    (s.parts.flatMap fun e => partEvents e.1) ++
    (s.cores.flatMap fun e => [.environmentPortOperation e.1, .tileTaskIssue e.1]) ++
    (s.threads.flatMap fun e => threadEvents e.1 e.2) ++ (s.groups.flatMap fun e => groupEvents e.1) ++
    (([0, 1, 2, 3] : List Nat).flatMap fun d => dieEvents s d) ++
    (s.queues.flatMap fun e => [.launchDispatch e.1, .waitCounterRead e.1]) ++
    (s.launches.flatMap fun e => [.launchComplete e.1, .completionCounterAdd e.1]) ++
    (s.accs.flatMap fun e => [.pushRetry e.1, .holdRetryResend e.1, .accessExpiry e.1]) ++
    (s.ports.flatMap fun e => portEvents e.1 e.2)

/-- The first event of a list that changes the state. -/
def State.firstOf (s : State) : List Instr → Option State
  | [] => none
  | i :: l => match exec i s with
    | .next s' => if s' = s then State.firstOf s l else some s'
    | _ => State.firstOf s l

/-- The picks still owed in the cycle come before the cycle ends (R83). -/
def State.cycleOn (s : State) : State :=
  match s.unpicked with
  | some p => s.pick p
  | none => s.tick

/-- The step the package takes with no choice listed. -/
def State.byPolicy (s : State) : State :=
  match s.firstOf s.candidates with
  | some s' => s'
  | none => s.cycleOn

/-- What still acts on a frozen package (R384): the test port and the reset pin. -/
def actsFrozen : Instr → Bool
  | .resetPin => true
  | .bypass _ => true
  | .idcode => true
  | .samplePreload _ _ => true
  | .extest => true
  | .seldie _ => true
  | .memrd _ => true
  | _ => false

/-- A listed choice taken: it leaves the list, but a cycle does not end before its picks. A choice that is no event of the
package, or a second pick of a cycle, does nothing. -/
def State.choose (s : State) (c : Choice) (l : List Choice) : Host.Outcome State Fault Refusal :=
  match c with
  | .event i => if isEvent i && wellFormed i then exec i { s with choices := l } else .next { s with choices := l }
  | .pick p => .next (if (s.part p).lastPick ≤ s.now p.die then State.pick { s with choices := l } p else { s with choices := l })
  | .tick => .next (if s.unpicked.isSome then s.cycleOn else State.tick { s with choices := l })

/-- A frozen package: only the choices of `actsFrozen` act; with none listed it stands still for good. -/
def State.frozenStep (s : State) : Host.Outcome State Fault Refusal :=
  match s.choices with
  | [] => .fault .frozen
  | .event i :: l => if actsFrozen i && wellFormed i then exec i { s with choices := l } else .next { s with choices := l }
  | _ :: l => .next { s with choices := l }

/-- What comes next on a running package (log entry 34): the lanes of the glean in progress, a listed choice, or the policy's. -/
def State.moveOn (s : State) : Host.Outcome State Fault Refusal :=
  match s.glean with
  | t :: l => s.nextLane t l
  | [] => match s.choices with
    | c :: l => s.choose c l
    | [] => .next s.byPolicy

/-- With no lane of a glean left to issue, the accesses its lanes have formed leave (R175, R176). -/
def State.sendOff (s : State) : State := if s.glean = [] ∧ s.stage ≠ [] then s.coalesce else s

/-- One step of the package. -/
def State.stepOn (s : State) : Host.Outcome State Fault Refusal :=
  if s.frozen then s.frozenStep
  else match s.moveOn with
    | .next s => .next s.sendOff
    | r => r

/-! ### Placing a program (log entry 35) -/

/-- Bytes of the package's memory written from outside. -/
def State.place (s : State) (a n v : Nat) : State :=
  let cells := cellsAt a (leBytes n v)
  { s with mem := Memory.writeAll s.mem cells, poison := poisonAfter s.poison cells [] }

/-- Where the next step fetches, if it is about to issue a lane that fetches from memory of this package: the holder's address of
one word. -/
def State.fetchSpot (s : State) (va : Nat) : Option Nat :=
  if 2 ^ 55 ≤ va then none
  else match s.xlate s.space va 4 with
    | .ok s fa => match s.loadRoute s.cur.die fa with
      | none => none
      | some r => ((s.local? r.origin).bind fun j => s.ownRoute j fa r.len).map fun q => Route.physical q fa
    | _ => none

/-- The lane about to issue can fetch both words of an instruction at once. -/
def State.spots (s : State) : Option (Nat × Nat) :=
  match s.glean with
  | [] => none
  | t :: _ =>
    let s := { s with cur := t }
    if s.frozen || s.me.status != .ready || !s.canRun t || s.me.impr != [] || s.me.raise.isSome || s.me.restoring then none
    else match s.fetchSpot s.me.pc.toNat, s.fetchSpot (s.me.pc.toNat + 4) with
      | some a, some b => if s.dramWaits a || s.dramWaits b || !s.syncFail.isEmpty then none else some (a, b)
      | _, _ => none

/-- A program loaded from outside where none runs: a context with one page, a resident system-mode group of one thread at slot 0 of
core 0 of die 0, and the glean that the picker of its partition makes. -/
def State.seat (s : State) : State :=
  let t : ThreadId := ⟨0, 0, 0, 0, false⟩
  let g : GroupId := ⟨0, 0, 0⟩
  let s := (((s.place 0x10000000 8 0x10010001).place 0x10010000 8 0x10020001).place 0x10020008 8 0x200000E3)
  let s : State := { s with ctxs := AMap.set s.ctxs 1 { root := 0x10000000, area := 0, cap := 1, notice := 0, live := true } }
  let s : State := { s with regions := AMap.set s.regions 1 { parent := 0, ctx := 1, sys := true, boundary := false, fail := false, shadow := 0, prio := 0, ovr := 0, budget := 0, consumed := 0, tagLo := 0, tagHi := 0, st := 0, frec := 0 } }
  let s := s.setGrp g { num := 1, region := 1, ctx := 1, sys := true, threads := 1, count := 256, sheaves := [(0, { active := true })] }
  let s := s.setThr t { pc := 0x10000, status := .ready }
  let s := s.setCore ⟨0, 0⟩ {}
  let s := s.setCluster 0 0 { s.cluster 0 0 with tlb := [] }
  { s with frozen := false, power := 0, fraction := 16, syncBuf := [], syncFail := [], glean := [t] }

/-- The words of an instruction put where the next step fetches them. -/
def State.withWords (s : State) (w0 w1 : Nat) : State :=
  match s.spots with
  | some (a, b) => { (s.place a 4 w0).place b 4 w1 with syncBuf := [] }
  | none => (s.seat.place 0x20000000 4 w0).place 0x20000004 4 w1

end

end Sys2Proof.Machine
end

