-- ==== Sys2Proof/Machine/Step.lean ====
section
/-! DEFINITION. Step: one step of the package, and an instruction put where the next step fetches it. -/

namespace Sys2Proof.Machine

noncomputable section

/-- One step of the package. -/
def step (s : State) : Host.Outcome State Fault Refusal := s.stepOn

/-- The state with the table's instruction of bits `w` where the next step fetches (log entry 35). -/
def State.withFetchWord (s : State) (_nbits w : Nat) : State := s.withWords (w % 2 ^ 32) (w / 2 ^ 32 % 2 ^ 32)

end

end Sys2Proof.Machine
end

