-- ==== Sys2Proof/Safety.lean ====
section
/-! DEFINITION. Safety: the terms in which claims about the machine are made: the invariant of its memory, when an
instruction's own effect is reached, and what an instruction leaves unchanged. -/

namespace Sys2Proof.Machine

open Sys2Proof

/-- Memory is in its canonical form: addresses rise and no cell holds what an unlisted address reads as. -/
def State.Inv (s : State) : Prop := Memory.wf s.mem = true

/-- The state in which the lane issuing has its due results (R40): what an instruction finds. One that is issued again after a wait
finds what it found at its issue (R203). -/
def State.flushed (s : State) : State := s.setMe (s.me.settled (s.now s.cur.die))

/-- The guard reads a predicate that is not scoreboarded, and in a strict group one that is written (R39, R40). -/
def guardReadable (i : Instr) (s : State) : Bool :=
  !((gatePreds i).any fun n => s.flushed.me.busy.contains (.pred n))
    && !(s.myGrp.strict && (gatePreds i).any fun n => s.flushed.me.pend.any fun p => p.preds.any fun r => r.1 == n)

/-- The mode check of R47 is passed. -/
def privileged (i : Instr) (s : State) : Bool := modeOk s.flushed (sigOf i).priv

/-- The instruction is to act in this lane: its guard is true, or it is `sel`, whose guard selects (R36, R117). -/
def acts (i : Instr) (s : State) : Bool := guardTrue s.flushed.me (ctlOf i) || isSel i

/-- Every register named lies below the group's count (R34). -/
def inCount (i : Instr) (s : State) : Bool := mapped s.flushed.me s.myGrp.count (sigOf i)

/-- A register, predicate or closure register the instruction names is scoreboarded (R39). -/
def scored (i : Instr) (s : State) : Bool := waitsFor s.flushed.me i

/-- A strict group's instruction reads a result that is not yet written (R40). -/
def tooEarly (i : Instr) (s : State) : Bool := s.myGrp.strict && tooSoon s.flushed.me i

/-- The lane issuing executes alone (no lane pair) and the checks of R47 let the instruction have its own effect. -/
def issues (i : Instr) (s : State) : Bool :=
  s.myGrp.shadow != 1 && privileged i s && guardReadable i s && acts i s && inCount i s && !scored i s && !tooEarly i s

/-- The cycle of the lane issuing. -/
def State.time (s : State) : Nat := s.now s.cur.die

/-- The thread `x` after instruction `i`: it goes on with the next word, and may issue when the stall is over (R38, R147). -/
def State.goesOn (s : State) (i : Instr) (x : Thread) : Thread :=
  { x.flowTo (x.pc.toNat + sizeIn i) with
    status := .ready, notBefore := s.time + 1 + stallOf i, since := s.time + 1 + stallOf i, port := none, mwaitBy := none, issued := none }

/-- Two thread numbers name copies of one thread. -/
def sameThread (t u : ThreadId) : Bool := { t with sh := false } == { u with sh := false }

/-- Nothing but the threads (and what reads had brought for the lane issuing) differs. -/
def SameRest (s t : State) : Prop := { t with threads := s.threads, syncBuf := s.syncBuf, syncFail := s.syncFail } = s

/-- Every thread but the one issuing is as it was. -/
def OthersSame (s t : State) : Prop := ∀ u, sameThread u s.cur = false → t.thr u = s.thr u

/-- The instruction ends for its lane with thread `y`, and nothing else of the machine changes: no byte of memory, no
other thread, no register of the package. -/
def Ends (i : Instr) (s : State) (y : Thread) : Prop :=
  ∃ t, exec i s = .next t ∧ t.me = y ∧ OthersSame s t ∧ SameRest s t

/-- The instruction completes, its thread being `x` but for where it goes on. -/
def Completes (i : Instr) (s : State) (x : Thread) : Prop := Ends i s (s.goesOn i x)

/-- The thread of the lane issuing with a result: registers from `d` on receive `rs`, readable after `lat` cycles, 0 for a
scoreboarded result (R39, R40), with flags; `may`: the instruction can set a flag (R111). -/
def State.withResult (s : State) (lat d : Nat) (rs : List Reg) (fl : BitVec 7) (may : Bool := false) : Thread :=
  s.flushed.me.result s.time lat { regs := (dests s.flushed.me d rs.length).zip rs, flags := fl, may }

/-- The same for a predicate. -/
def State.withPred (s : State) (lat n : Nat) (b : Bool) (fl : BitVec 7) (may : Bool := false) : Thread :=
  s.flushed.me.result s.time lat { preds := if n = 0 then [] else [(n, b)], flags := fl, may }

end Sys2Proof.Machine
end

