-- ==== Sys2Proof/Certificates/Slice0/Obligations.lean ====
section
/-! DEFINITION. The statements for the provers. -/

open Sys2Proof Sys2Proof.Machine

/-! ### How an instruction ends -/

/-- A thread after the instruction, in the cycle of `s`: ready again when the stall is over (R38). -/
def Claims.ready (s : State) (i : Instr) (x : Thread) : Thread :=
  { x with status := .ready, notBefore := s.time + 1 + stallOf i, since := s.time + 1 + stallOf i }

/-- The same where what the instruction had kept is dropped: the form in which `Ends` sees it. -/
def Claims.gone (s : State) (i : Instr) (x : Thread) : Thread := { Claims.ready s i x with port := none, mwaitBy := none, issued := none }

/-- The instruction ends in the state `s1` with thread `x`: nothing else is done. -/
def Claims.EndsIn (i : Instr) (s s1 : State) (x : Thread) : Prop := exec i s = .next (s1.setMe (Claims.ready s1 i x)).endIssue

/-- The state in which the thread's instruction, at the state `s1`, raises a cause: its due results are in place, the stall code holds the
next issue back (R38), and what reads have brought is dropped. -/
def Claims.over (i : Instr) (s1 : State) : State :=
  (s1.setMe { s1.me.flush s1.time with
    issued := none, notBefore := s1.time + 1 + stallOf i, since := s1.time + 1 + stallOf i }).dropSync (.thread { s1.cur with sh := false })

/-- The instruction, having come to the state `s1`, raises a cause whose trapval is `v`; trappc is `pc`. -/
def Claims.RaisesAt (i : Instr) (s s1 : State) (cause : Nat) (pc v : DWord) : Prop :=
  exec i s = .next ((Claims.over i s1).takeTrap cause pc v).endIssue

/-- The same where the instruction has changed nothing before. -/
def Claims.Raises (i : Instr) (s : State) (cause : Nat) (pc v : DWord) : Prop := Claims.RaisesAt i s s.flushed cause pc v

/-- The instruction, having come to the state `s1`, raises a cause for which the manual states no trapval: it is some value (log entry 2). -/
def Claims.RaisesIn (i : Instr) (s s1 : State) (cause : Nat) : Prop :=
  ∃ (v : DWord) (s2 : State), exec i s = .next ((Claims.over i s2).takeTrap cause s1.me.pc v).endIssue ∧ { s2 with freeCtr := s1.freeCtr } = s1

/-- The same where the instruction has changed nothing before. -/
def Claims.RaisesSome (i : Instr) (s : State) (cause : Nat) : Prop := Claims.RaisesIn i s s.flushed cause

/-- The thread waits with its instruction. One that has issued (every wait but those of R39, R111 and R179) goes on as of its issue. -/
def Claims.waiting (s : State) (w : Wait) : Thread :=
  let th := s.flushed.me
  { th with status := .waiting w, issued := if w.afterIssue then some (match th.issued with | some n => n | none => s.time) else th.issued }

/-- The instruction waits: nothing but its thread changes. -/
def Claims.Waits (i : Instr) (s : State) (w : Wait) : Prop := exec i s = .next (s.flushed.setMe (Claims.waiting s w))

/-- The flags a prefix's nf lets through (R42). -/
def Claims.flags (ct : Ctl) (fl : Fl) : BitVec 7 := match ct.pfx with | some p => if p.nf then 0 else fl | none => fl

/-- An instruction that can set a flag may do so unless its prefix sets nf (R42, R111). -/
def Claims.may (ct : Ctl) : Bool := match ct.pfx with | some p => !p.nf | none => true

/-- The instruction consumes poison (R357). -/
def Claims.Consumes (i : Instr) (s : State) : Prop := exec i s = .next (s.flushed.consume s.cur 0x10).endIssue

/-! ### Integer arithmetic (R91-R94, R109-R120) -/

/-- The checks of R47 let instruction `i` act, and it then gives `d` one register, readable after `lat` cycles (0: scoreboarded),
with no flag. -/
def Claims.Gives (i : Instr) (s : State) (lat : Nat) (d : BitVec 7) (r : Reg) : Prop :=
  issues i s = true → Completes i s (s.withResult lat d.toNat [r] 0)

/-- The same for a pair of registers, low first. -/
def Claims.GivesPair (i : Instr) (s : State) (lat : Nat) (d : BitVec 7) (v : DWord) (p : Bool) : Prop :=
  issues i s = true → Completes i s (s.withResult lat d.toNat [{ v := v.setWidth 32, p }, { v := (v >>> 32).setWidth 32, p }] 0)

/-- The same for a predicate. -/
def Claims.GivesPred (i : Instr) (s : State) (lat : Nat) (n : BitVec 4) (b : Bool) : Prop :=
  issues i s = true → Completes i s (s.withPred lat n.toNat b 0)

/-- A word of 1 or 0. -/
def Claims.flag (b : Prop) [Decidable b] : Word := if b then 1 else 0

/-- The table of R113, with R39's latencies: the value of each instruction, its destination poisoned where a register it read
is (R110), and no flag. It holds for every destination: one that discards receives nothing. -/
def Obligations.IntegerTable : Prop := ∀ (s : State) (ct : Ctl) (d a b : BitVec 7),
  let x := (s.flushed.readF a.toNat).v
  let y := (s.flushed.readF b.toNat).v
  let z := (s.flushed.readF d.toNat).v
  let p2 := (s.flushed.readF a.toNat).p || (s.flushed.readF b.toNat).p
  let p3 := (s.flushed.readF a.toNat).p || (s.flushed.readF b.toNat).p || (s.flushed.readF d.toNat).p
  Claims.Gives (.add ct d a b) s 1 d ⟨BitVec.ofNat 32 (x.toNat + y.toNat), p2⟩ ∧
  Claims.Gives (.sub ct d a b) s 1 d ⟨BitVec.ofInt 32 ((x.toNat : Int) - y.toNat), p2⟩ ∧
  Claims.Gives (.mul ct d a b) s 3 d ⟨BitVec.ofNat 32 (x.toNat * y.toNat), p2⟩ ∧
  Claims.Gives (.mulh ct d a b) s 3 d ⟨BitVec.ofInt 32 (x.toInt * y.toInt / 2 ^ 32), p2⟩ ∧
  Claims.Gives (.mulhu ct d a b) s 3 d ⟨BitVec.ofNat 32 (x.toNat * y.toNat / 2 ^ 32), p2⟩ ∧
  Claims.Gives (.and ct d a b) s 1 d ⟨x &&& y, p2⟩ ∧
  Claims.Gives (.or ct d a b) s 1 d ⟨x ||| y, p2⟩ ∧
  Claims.Gives (.xor ct d a b) s 1 d ⟨x ^^^ y, p2⟩ ∧
  Claims.Gives (.andn ct d a b) s 1 d ⟨x &&& ~~~y, p2⟩ ∧
  Claims.Gives (.shl ct d a b) s 1 d ⟨if 32 ≤ y.toNat then 0 else BitVec.ofNat 32 (x.toNat * 2 ^ y.toNat), p2⟩ ∧
  Claims.Gives (.shr ct d a b) s 1 d ⟨if 32 ≤ y.toNat then 0 else BitVec.ofNat 32 (x.toNat / 2 ^ y.toNat), p2⟩ ∧
  Claims.Gives (.sra ct d a b) s 1 d
    ⟨if 32 ≤ y.toNat then (if x.msb then 0xFFFFFFFF else 0) else BitVec.ofInt 32 (x.toInt / 2 ^ y.toNat), p2⟩ ∧
  Claims.Gives (.rol ct d a b) s 1 d
    ⟨BitVec.ofNat 32 (x.toNat * 2 ^ (y.toNat % 32) + x.toNat / 2 ^ (32 - y.toNat % 32)), p2⟩ ∧
  Claims.Gives (.min ct d a b) s 1 d ⟨BitVec.ofInt 32 (min x.toInt y.toInt), p2⟩ ∧
  Claims.Gives (.max ct d a b) s 1 d ⟨BitVec.ofInt 32 (max x.toInt y.toInt), p2⟩ ∧
  Claims.Gives (.minu ct d a b) s 1 d ⟨BitVec.ofNat 32 (min x.toNat y.toNat), p2⟩ ∧
  Claims.Gives (.maxu ct d a b) s 1 d ⟨BitVec.ofNat 32 (max x.toNat y.toNat), p2⟩ ∧
  Claims.Gives (.mad ct d a b) s 3 d ⟨BitVec.ofNat 32 (x.toNat * y.toNat + z.toNat), p3⟩ ∧
  Claims.Gives (.slt ct d a b) s 1 d ⟨Claims.flag (x.toInt < y.toInt), p2⟩ ∧
  Claims.Gives (.sltu ct d a b) s 1 d ⟨Claims.flag (x.toNat < y.toNat), p2⟩ ∧
  Claims.Gives (.seq ct d a b) s 1 d ⟨Claims.flag (x = y), p2⟩

/-- R114: sums and differences of register pairs modulo 2^64; a destination pair is poisoned whole (R110). -/
def Claims.PairSums : Prop := ∀ (s : State) (ct : Ctl) (d a b : BitVec 7),
  let x := s.flushed.readD a.toNat
  let y := s.flushed.readD b.toNat
  Claims.GivesPair (.add64 ct d a b) s 1 d (BitVec.ofNat 64 (x.1.toNat + y.1.toNat)) (x.2 || y.2) ∧
  Claims.GivesPair (.sub64 ct d a b) s 1 d (BitVec.ofInt 64 ((x.1.toNat : Int) - y.1.toNat)) (x.2 || y.2)

/-- R62 and R115: the four divisions. With the trap flag of the group clear the exceptional cases give R62's values and, without
the prefix's nf, its flag; with it set they trap with cause 0x15 and trapval the divisor over the dividend. -/
def Claims.Divisions : Prop := ∀ (s : State) (ct : Ctl) (d a b : BitVec 7) (i : Instr) (sgn rem : Bool),
  (i = .div ct d a b ∧ sgn = true ∧ rem = false) ∨ (i = .divu ct d a b ∧ sgn = false ∧ rem = false) ∨
    (i = .rem ct d a b ∧ sgn = true ∧ rem = true) ∨ (i = .remu ct d a b ∧ sgn = false ∧ rem = true) →
  issues i s = true →
  let x := s.flushed.readF a.toNat
  let y := s.flushed.readF b.toNat
  let p := x.p || y.p
  let nf := match ct.pfx with | some q => q.nf | none => false
  let zero := y.v = 0
  let ovf := sgn = true ∧ x.v = 0x80000000 ∧ y.v = 0xFFFFFFFF
  (¬zero ∧ ¬ovf → Completes i s (s.withResult 0 d.toNat [⟨
      if sgn then BitVec.ofInt 32 (if rem then x.v.toInt.tmod y.v.toInt else x.v.toInt.tdiv y.v.toInt)
      else BitVec.ofNat 32 (if rem then x.v.toNat % y.v.toNat else x.v.toNat / y.v.toNat), p⟩] 0 !nf)) ∧
  (s.myGrp.inttrap = false → zero →
    Completes i s (s.withResult 0 d.toNat [⟨if rem then x.v else 0xFFFFFFFF, p⟩] (if nf then 0 else 0x20) !nf)) ∧
  (s.myGrp.inttrap = false → ovf → ¬zero →
    Completes i s (s.withResult 0 d.toNat [⟨if rem then 0 else 0x80000000, p⟩] (if nf then 0 else 0x40) !nf)) ∧
  (s.myGrp.inttrap = true → zero ∨ ovf →
    Claims.Raises i s 0x15 s.flushed.me.pc (BitVec.ofNat 64 (y.v.toNat * 2 ^ 32 + x.v.toNat)))

/-- R116 and R117: bit fields and selection. `sel` also acts where its guard is false, and takes the poison of the register
it selects alone (R110). -/
def Claims.FieldsAndSelection : Prop := ∀ (s : State) (ct : Ctl) (d a b : BitVec 7),
  let x := s.flushed.readF a.toNat
  let c := s.flushed.readF b.toNat
  let z := s.flushed.readF d.toNat
  let pos := c.v.toNat % 32
  let n := min (c.v.toNat / 2 ^ 8 % 32 + 1) (32 - pos)
  let f := x.v.toNat / 2 ^ pos % 2 ^ n
  let sgn := c.v.toNat / 2 ^ 16 % 2 = 1
  Claims.Gives (.bfx ct d a b) s 1 d
    ⟨BitVec.ofInt 32 (if sgn ∧ 2 ^ (n - 1) ≤ f then (f : Int) - 2 ^ n else f), x.p || c.p⟩ ∧
  (∃ v : Word, (∀ k, k < 32 → v.getLsbD k = if pos ≤ k ∧ k < pos + n then x.v.getLsbD (k - pos) else z.v.getLsbD k) ∧
    Claims.Gives (.bfi ct d a b) s 1 d ⟨v, x.p || c.p || z.p⟩) ∧
  Claims.Gives (.sel ct d a b) s 1 d (if guardTrue s.flushed.me ct then x else c)

/-- The `un` family of R118. -/
def Claims.UnaryTable : Prop := ∀ (s : State) (ct : Ctl) (d a : BitVec 7),
  let x := (s.flushed.readF a.toNat).v
  let p := (s.flushed.readF a.toNat).p
  let w := s.flushed.readD a.toNat
  Claims.Gives (.mov ct d a) s 1 d ⟨x, p⟩ ∧
  Claims.Gives (.not ct d a) s 1 d ⟨~~~x, p⟩ ∧
  Claims.Gives (.neg ct d a) s 1 d ⟨BitVec.ofInt 32 (-x.toInt), p⟩ ∧
  Claims.Gives (.abs ct d a) s 1 d ⟨BitVec.ofInt 32 |x.toInt|, p⟩ ∧
  (∃ n, n ≤ 32 ∧ (∀ k, 32 - n ≤ k → k < 32 → x.getLsbD k = false) ∧ (n < 32 → x.getLsbD (31 - n) = true) ∧
    Claims.Gives (.clz ct d a) s 1 d ⟨BitVec.ofNat 32 n, p⟩) ∧
  (∃ n, n ≤ 32 ∧ (∀ k, k < n → x.getLsbD k = false) ∧ (n < 32 → x.getLsbD n = true) ∧
    Claims.Gives (.ctz ct d a) s 1 d ⟨BitVec.ofNat 32 n, p⟩) ∧
  Claims.Gives (.popc ct d a) s 1 d ⟨BitVec.ofNat 32 ((Finset.range 32).filter fun k => x.getLsbD k = true).card, p⟩ ∧
  (∃ v : Word, (∀ k, k < 32 → v.getLsbD (31 - k) = x.getLsbD k) ∧ Claims.Gives (.brev ct d a) s 1 d ⟨v, p⟩) ∧
  Claims.Gives (.sext8 ct d a) s 1 d ⟨(x.setWidth 8).signExtend 32, p⟩ ∧
  Claims.Gives (.sext16 ct d a) s 1 d ⟨(x.setWidth 16).signExtend 32, p⟩ ∧
  Claims.Gives (.zext8 ct d a) s 1 d ⟨BitVec.ofNat 32 (x.toNat % 2 ^ 8), p⟩ ∧
  Claims.Gives (.zext16 ct d a) s 1 d ⟨BitVec.ofNat 32 (x.toNat % 2 ^ 16), p⟩ ∧
  Claims.Gives (.bswap ct d a) s 1 d
    ⟨BitVec.ofNat 32 (x.toNat / 2 ^ 24 + x.toNat / 2 ^ 16 % 256 * 2 ^ 8 + x.toNat / 2 ^ 8 % 256 * 2 ^ 16 + x.toNat % 256 * 2 ^ 24), p⟩ ∧
  Claims.GivesPair (.mov64 ct d a) s 1 d w.1 w.2

/-- The second operand of format I: the 9-bit field, or 22 bits under a prefix, sign-extended (R43, R119). -/
def Claims.imm (ct : Ctl) (i : BitVec 9) : Word :=
  match ct.pfx with
  | some p => BitVec.ofInt 32 (p.immext.toInt * 512 + i.toNat)
  | none => BitVec.ofInt 32 i.toInt

/-- The immediate instructions of R119; the shifts are for the immediates 0 to 31 that decode (R119). -/
def Claims.ImmediateTable : Prop := ∀ (s : State) (ct : Ctl) (d a : BitVec 7) (i : BitVec 9),
  let x := (s.flushed.readF a.toNat).v
  let p := (s.flushed.readF a.toNat).p
  let y := Claims.imm ct i
  let n := i.toNat
  Claims.Gives (.addi ct d a i) s 1 d ⟨BitVec.ofNat 32 (x.toNat + y.toNat), p⟩ ∧
  Claims.Gives (.andi ct d a i) s 1 d ⟨x &&& y, p⟩ ∧
  Claims.Gives (.ori ct d a i) s 1 d ⟨x ||| y, p⟩ ∧
  Claims.Gives (.xori ct d a i) s 1 d ⟨x ^^^ y, p⟩ ∧
  (wellFormed (.shli ct d a i) = true → Claims.Gives (.shli ct d a i) s 1 d ⟨BitVec.ofNat 32 (x.toNat * 2 ^ n), p⟩) ∧
  (wellFormed (.shri ct d a i) = true → Claims.Gives (.shri ct d a i) s 1 d ⟨BitVec.ofNat 32 (x.toNat / 2 ^ n), p⟩) ∧
  (wellFormed (.srai ct d a i) = true → Claims.Gives (.srai ct d a i) s 1 d ⟨BitVec.ofInt 32 (x.toInt / 2 ^ n), p⟩) ∧
  Claims.Gives (.muli ct d a i) s 3 d ⟨BitVec.ofNat 32 (x.toNat * y.toNat), p⟩ ∧
  Claims.Gives (.slti ct d a i) s 1 d ⟨Claims.flag (x.toInt < y.toInt), p⟩ ∧
  Claims.Gives (.sltui ct d a i) s 1 d ⟨Claims.flag (x.toNat < y.toNat), p⟩ ∧
  Claims.Gives (.seqi ct d a i) s 1 d ⟨Claims.flag (x = y), p⟩ ∧
  Claims.Gives (.mini ct d a i) s 1 d ⟨BitVec.ofInt 32 (min x.toInt y.toInt), p⟩ ∧
  Claims.Gives (.maxi ct d a i) s 1 d ⟨BitVec.ofInt 32 (max x.toInt y.toInt), p⟩

/-- R91 and R120: `li`, `lih` and the byte dot product. `lih` keeps bits [13:0] of its destination. -/
def Claims.LoadsOfImmediates : Prop := ∀ (s : State) (ct : Ctl) (d a b : BitVec 7) (i : BitVec 18),
  let x := s.flushed.readF a.toNat
  let y := s.flushed.readF b.toNat
  let z := s.flushed.readF d.toNat
  let e (v : Word) (k : Nat) : Int := ((v >>> (8 * k)).setWidth 8).toInt
  Claims.Gives (.li ct d i) s 1 d ⟨match ct.pfx with
    | some p => BitVec.ofInt 32 (p.immext.toInt * 2 ^ 18 + i.toNat)
    | none => BitVec.ofInt 32 i.toInt, false⟩ ∧
  Claims.Gives (.lih ct d i) s 1 d ⟨BitVec.ofNat 32 (i.toNat * 2 ^ 14 + z.v.toNat % 2 ^ 14), z.p⟩ ∧
  Claims.Gives (.dp4 ct d a b) s 3 d
    ⟨BitVec.ofInt 32 ((z.v.toNat : Int) + e x.v 0 * e y.v 0 + e x.v 1 * e y.v 1 + e x.v 2 * e y.v 2 + e x.v 3 * e y.v 3), x.p || y.p || z.p⟩

/-- The condition cc of R92. -/
def Claims.Cond (cc : BitVec 3) (x y : Word) : Prop :=
  match cc.toNat with
  | 0 => x = y
  | 1 => x ≠ y
  | 2 => x.toInt < y.toInt
  | 3 => x.toInt ≥ y.toInt
  | 4 => x.toNat < y.toNat
  | 5 => x.toNat ≥ y.toNat
  | 6 => x &&& y ≠ 0
  | _ => x &&& y = 0

/-- R92 and R93: compares and the operations on predicates; predicate 0 is never written. A compare of a poisoned
register consumes it (R110). -/
def Obligations.PredicateResults : Prop := ∀ (s : State) (ct : Ctl) (q u w : BitVec 4) (c : BitVec 3) (a b : BitVec 7) (i : BitVec 9),
  let th := s.flushed.me
  let x := s.flushed.readF a.toNat
  let y := s.flushed.readF b.toNat
  let P := th.pred u.toNat
  let Q := th.pred w.toNat
  (∀ v, (v = true ↔ Claims.Cond c x.v y.v) → x.p = false → y.p = false → Claims.GivesPred (.cmp ct q c a b) s 1 q v) ∧
  (∀ v, (v = true ↔ Claims.Cond c x.v (Claims.imm ct i)) → x.p = false → Claims.GivesPred (.cmpi ct q c a i) s 1 q v) ∧
  (x.p = true ∨ y.p = true → issues (.cmp ct q c a b) s = true → Claims.Consumes (.cmp ct q c a b) s) ∧
  (x.p = true → issues (.cmpi ct q c a i) s = true → Claims.Consumes (.cmpi ct q c a i) s) ∧
  Claims.GivesPred (.pand ct q u w) s 1 q (P && Q) ∧
  Claims.GivesPred (.por ct q u w) s 1 q (P || Q) ∧
  Claims.GivesPred (.pxor ct q u w) s 1 q (P ^^ Q) ∧
  Claims.GivesPred (.pandn ct q u w) s 1 q (P && !Q) ∧
  Claims.GivesPred (.porn ct q u w) s 1 q (P || !Q) ∧
  Claims.GivesPred (.pmv ct q u) s 1 q P ∧
  Claims.GivesPred (.pnot ct q u) s 1 q (!P) ∧
  Claims.GivesPred (.pset ct q) s 1 q true ∧
  Claims.GivesPred (.pclr ct q) s 1 q false

/-! ### Control, special registers, loops (R76-R108, R143-R154) -/

/-- R150: a transfer to `a` discards the owned frames, innermost first, whose body does not hold `a`. -/
def Claims.kept (l : List Frame) (level : Word) (a : Nat) : List Frame :=
  l.dropWhile fun f => f.level == level && !(decide (f.start ≤ a) && decide (a < f.start + 4 * f.len))

/-- A thread that has transferred to `a`. -/
def Claims.at (x : Thread) (a : DWord) : Thread := { x with pc := a, loops := Claims.kept x.loops x.level a.toNat }

/-- The call record of R96: return address, wb / 8, the open frames, zeros. -/
def Claims.record (x : Thread) (back : Nat) : List Byte :=
  (List.range 8).map (fun k => BitVec.ofNat 8 (back / 2 ^ (8 * k))) ++ [BitVec.ofNat 8 (x.wb / 8), BitVec.ofNat 8 x.loops.length] ++
    List.replicate 6 0

/-- R30, R95, R97, R150: branches and jumps; an indirect target that is no multiple of 4 raises misaligned access, a poisoned one is
consumed. -/
def Obligations.Transfers : Prop := ∀ (s : State) (ct : Ctl) (p : BitVec 4) (v : BitVec 1) (o : BitVec 20) (w : BitVec 25) (a : BitVec 7),
  let th := s.flushed.me
  let x := s.flushed.readD a.toNat
  let off (n : Int) : DWord := BitVec.ofInt 64 (th.pc.toNat + 4 * n)
  (issues (.br p v o) s = true → (th.pred p.toNat ^^ v == 1#1) = true → Ends (.br p v o) s (Claims.gone s (.br p v o) (Claims.at th (off o.toInt)))) ∧
  (issues (.br p v o) s = true → (th.pred p.toNat ^^ v == 1#1) = false → Completes (.br p v o) s th) ∧
  (issues (.jmp w) s = true → Ends (.jmp w) s (Claims.gone s (.jmp w) (Claims.at th (off w.toInt)))) ∧
  (issues (.jr ct a) s = true →
    (x.2 = false → x.1.toNat % 4 = 0 → Ends (.jr ct a) s (Claims.gone s (.jr ct a) (Claims.at th x.1))) ∧
    (x.2 = false → x.1.toNat % 4 ≠ 0 → Claims.Raises (.jr ct a) s 0x0B th.pc x.1) ∧
    (x.2 = true → Claims.Consumes (.jr ct a) s))

/-- R96: `call` and `callr`: where the record is stored at tsp - 16, tsp moves to it, the activation level rises (R144) and the
thread goes on at the target, no frame being left; a tsp that is no multiple of 16 raises misaligned access. -/
def Claims.Calls : Prop := ∀ (s s1 : State) (ct : Ctl) (w : BitVec 25) (a : BitVec 7) (i : Instr) (back : Nat) (dst : DWord),
  let th := s.flushed.me
  (i = .call w ∧ back = th.pc.toNat + 4 ∧ dst = BitVec.ofInt 64 (th.pc.toNat + 4 * w.toInt)) ∨
    (i = .callr ct a ∧ back = th.pc.toNat + (if ct.pfx.isSome then 8 else 4) ∧ dst = (s.flushed.readD a.toNat).1 ∧
      (s.flushed.readD a.toNat).2 = false ∧ dst.toNat % 4 = 0) →
  issues i s = true →
  (th.tsp.toNat % 16 ≠ 0 → Claims.Raises i s 0x0B th.pc th.tsp) ∧
  (th.tsp.toNat % 16 = 0 → s.flushed.storePiece (th.tsp - 16).toNat ((Claims.record th back).map fun b => (b, false)) = .next s1 →
    Claims.EndsIn i s s1 { s1.me with tsp := th.tsp - 16, level := s1.me.level + 1, pc := dst })

/-- R96, R144: `ret`: with the record read at tsp, wb, tsp and the level are restored, the frames above the recorded number are
discarded, and the thread resumes at the return address (of a thread that holds no anchor; R169's release is stated with the
closures). Where it would end a save routine and pre-emption is still requested, the thread parks as saved (R276). A tsp that is no
multiple of 16 and a return address that is no multiple of 4 raise misaligned access, a window past the group's count raises register
mapping, and a poisoned word of the record's first 9 bytes is consumed. -/
def Claims.Returns : Prop := ∀ (s s1 : State) (ct : Ctl) (bs : List (Byte × Bool)),
  let i : Instr := .ret ct
  let th := s.flushed.me
  let n (a k : Nat) : Nat := leNat (((bs.drop a).take k).map (·.1))
  let ends : Prop := th.saving = some (th.level - 1) ∧ s.myGrp.st = .preempting
  issues i s = true →
  (ends → exec i s = .next (s.flushed.setMe { th with status := .saved }).endIssue) ∧
  (¬ends → th.tsp.toNat % 16 ≠ 0 → exec i s = .next (((Claims.over i s.flushed).takeTrap 0x0B th.pc th.tsp).endIssue.letGoFrom s)) ∧
  (¬ends → th.tsp.toNat % 16 = 0 → s.flushed.readPiece th.tsp.toNat 16 0 1 = .ok s1 bs → th.anchor = none →
    (bs.take 9).any (·.2) = false → n 0 8 % 4 = 0 → 8 * n 8 1 + 8 ≤ s1.myGrp.count →
    Claims.EndsIn i s s1 (({ th with
      wb := 8 * n 8 1, tsp := th.tsp + 16, level := th.level - 1, loops := th.loops.drop (th.loops.length - n 9 1)
      saving := if th.saving = some (th.level - 1) then none else th.saving }).resumeAt (n 0 8))) ∧
  (¬ends → th.tsp.toNat % 16 = 0 → s.flushed.readPiece th.tsp.toNat 16 0 1 = .ok s1 bs → (bs.take 9).any (·.2) = true →
    exec i s = .next ((s1.consume s.cur 0x10).endIssue.letGoFrom s)) ∧
  (¬ends → th.tsp.toNat % 16 = 0 → s.flushed.readPiece th.tsp.toNat 16 0 1 = .ok s1 bs → (bs.take 9).any (·.2) = false →
    s.cur.sh = false → (n 0 8 % 4 ≠ 0 ∨ s1.myGrp.count < 8 * n 8 1 + 8) → ∃ (v : DWord) (s2 : State),
      exec i s = .next (((Claims.over i s2).takeTrap (if n 0 8 % 4 ≠ 0 then 0x0B else 0x02) th.pc v).endIssue.letGoFrom s) ∧
      { s2 with freeCtr := s1.freeCtr } = s1)

/-- R98 and R101 to R104: the system functions. `win` moves the window base by 8k where the result stays in range; `cyc` latches all 64 bits
of the die's counter, `cych` gives the upper half of what was latched. -/
def Obligations.SystemFunctions : Prop := ∀ (s : State) (ct : Ctl) (d n : BitVec 7) (h : BitVec 1),
  let th := s.flushed.me
  let size := if ct.pfx.isSome then 8 else 4
  let next := BitVec.ofNat 64 (th.pc.toNat + size)
  let c := (s.die s.cur.die).cycle
  let k := n.toNat + 128 * h.toNat
  let wb := (th.wb : Int) + 8 * n.toInt
  let inRange : Prop := 0 ≤ wb ∧ wb ≤ (s.myGrp.count : Int) - 8 ∧ wb % 8 = 0 ∧ (n ≠ 0 → ∀ f ∈ owned th, f.rot = 0)
  (issues (.nop ct) s = true → Completes (.nop ct) s th) ∧
  (issues (.yield ct) s = true → Ends (.yield ct) s { th.flowTo (th.pc.toNat + size) with
    status := .yielding (s.time + 17), notBefore := s.time + 1 + stallOf (.yield ct), since := s.time + 1 + stallOf (.yield ct)
    port := none, mwaitBy := none, issued := none }) ∧
  (issues (.safept ct h n) s = true → k < s.myGrp.safeCount → s.myGrp.st ≠ .preempting → s.myGrp.shadow = 0 →
    Completes (.safept ct h n) s th) ∧
  (issues (.safept ct h n) s = true → s.myGrp.safeCount ≤ k → s.cur.sh = false → Claims.RaisesSome (.safept ct h n) s 0x02) ∧
  (issues (.win ct n) s = true → inRange → Completes (.win ct n) s { th with wb := wb.toNat }) ∧
  (issues (.win ct n) s = true → ¬inRange → s.cur.sh = false → Claims.RaisesSome (.win ct n) s 0x02) ∧
  (issues (.cyc ct d) s = true → Completes (.cyc ct d) s
    (({ th with latch := some c }).result s.time 1 { regs := (dests th d.toNat 1).zip [⟨BitVec.ofNat 32 c.toNat, false⟩] })) ∧
  (issues (.cych ct d) s = true → Completes (.cych ct d) s (s.withResult 1 d.toNat
    [⟨BitVec.ofNat 32 ((match th.latch with | some l => l | none => c).toNat / 2 ^ 32), false⟩] 0))

/-- R99: `exit` outside a block pair: with no load or atomic outstanding the thread is exited, its frames discarded, its anchors
released and its barriers left; with one outstanding it drains. In both cases it drops out of its sheaf's collectives at once. -/
def Claims.Exit : Prop := ∀ (s : State) (ct : Ctl),
  let i : Instr := .exit ct
  let g := gidOf s.cur
  let th := s.flushed.me
  issues i s = true → s.myGrp.shadow = 0 → s.cur.sh = false →
  (s.outLoads s.cur = 0 →
    let s1 := (s.flushed.setMe { th with status := .exited, loops := [] }).letAll s.cur
    let s2 := (List.range s.myGrp.nbar).foldl (fun s n => s.barExit s.cur n) s1
    s2.me.status = .exited ∧
    exec i s = .next ((s2.collCheck g (sheafOf s.myGrp s.cur.t)).groupEnd g).endIssue) ∧
  (0 < s.outLoads s.cur →
    exec i s = .next (((s.flushed.setMe { th with status := .draining, loops := [] }).collCheck g (sheafOf s.myGrp s.cur.t)).groupEnd g).endIssue)

/-- R101, R276: with pre-emption requested, `safept` calls its save routine, and the level of the call is remembered (bits [1:0] of the
routine's address are dropped: log entry 14). -/
def Claims.SafePointCall : Prop := ∀ (s s1 s2 : State) (ct : Ctl) (h : BitVec 1) (n : BitVec 7) (bs : List (Byte × Bool)),
  let i : Instr := .safept ct h n
  let k := n.toNat + 128 * h.toNat
  let g := s.myGrp
  let th := s.flushed.me
  issues i s = true → k < g.safeCount → g.st = .preempting →
  s.flushed.readPiece (g.header + g.safeOff + 8 * k) 8 0 1 = .ok s1 bs → (bs.take 4).any (·.2) = false →
  th.tsp.toNat % 16 = 0 →
  s1.storePiece (th.tsp - 16).toNat ((Claims.record th (th.pc.toNat + if ct.pfx.isSome then 8 else 4)).map fun b => (b, false)) = .next s2 →
  Claims.EndsIn i s s2 { s2.me with
    tsp := th.tsp - 16, level := s2.me.level + 1, saving := some th.level, safept := k
    pc := BitVec.ofNat 64 ((g.header + leNat ((bs.take 4).map (·.1))) / 4 * 4) }

/-- R103: `mwait`: it goes on with the word read where that is not the word expected, is poisoned, or pre-emption is requested;
else the thread waits, watching the word where its home keeps it, for at most 65,536 cycles from its first read. -/
def Claims.MonitorWait : Prop := ∀ (s s1 s2 : State) (ct : Ctl) (d a : BitVec 7) (bs : List (Byte × Bool)) (fa : Nat),
  let i : Instr := .mwait ct d a
  let x := s.flushed.readD a.toNat
  let e := s.flushed.readF d.toNat
  let v : Reg := ⟨BitVec.ofNat 32 (leNat (bs.map (·.1))), bs.any (·.2)⟩
  let limit := match s.flushed.me.mwaitBy with | some n => n | none => s.time + 65536
  let size := if ct.pfx.isSome then 8 else 4
  issues i s = true → s.myGrp.shadow = 0 →
  (x.2 = true → Claims.Consumes i s) ∧
  (x.2 = false → x.1.toNat % 4 ≠ 0 → Claims.Raises i s 0x0B s.flushed.me.pc x.1) ∧
  (x.2 = false → x.1.toNat % 4 = 0 → s.flushed.readPiece x.1.toNat 4 0 1 = .ok s1 bs →
    (v.p = true ∨ v.v ≠ e.v ∨ s.myGrp.st = .preempting ∨ limit ≤ s.time →
      Claims.EndsIn i s s1 ((s1.me.result s.time 0 { regs := (dests s1.me d.toNat 1).zip [v] }).flowTo (s.flushed.me.pc.toNat + size))) ∧
    (v.p = false → v.v = e.v → s.myGrp.st ≠ .preempting → s.time < limit → s1.xlate s1.space x.1.toNat 1 = .ok s2 fa →
      exec i s = .next (s2.setMe { Claims.ready s2 i s2.me with status := .mwait {
        va := x.1.toNat, fa := (s2.watchAt fa).1, near := (s2.watchAt fa).2, last := v, limit, hit := false
        dest := dests s2.me d.toNat 1, size, start := s2.me.seen s.time } }).endIssue))

/-- The value of a special register by number (R79). -/
def Claims.special (s : State) (n : Nat) : Nat :=
  let th := s.flushed.me
  match n with
  | 0 => th.fsr.toNat
  | 1 => dkOf s.myGrp (sheafOf s.myGrp s.cur.t)
  | 2 => th.wb
  | 3 => (match (owned th).head? with | some f => f.rrb | none => 0)
  | 4 => th.loops.length
  | 5 => th.tag.toNat
  | 6 => s.myGrp.shadow + (if s.cur.sh = true ∨ s.myGrp.isShadow = true then 4 else 0)
  | 7 => th.trapcause.toNat
  | 8 => th.trappc.toNat
  | 9 => th.trapval.toNat
  | 10 => s.myGrp.vbase.toNat
  | 11 => th.tsp.toNat
  | _ => s.flushed.swmask

/-- An earlier instruction that can set a flag has not yet written its flags (R111). -/
def Claims.flagsOut (s : State) : Prop := ∃ p ∈ s.flushed.me.vpend ++ s.flushed.me.pend, p.may = true

/-- The instruction waits for those flags: until the oldest fixed-latency one is due, or for one of variable latency. -/
def Claims.WaitsForFlags (i : Instr) (s : State) : Prop :=
  let th := s.flushed.me
  ((∃ p ∈ th.vpend, p.may = true) → Ends i s { th with status := .waiting .score }) ∧
  (∀ p, (∀ q ∈ th.vpend, q.may = false) → th.pend.find? (·.may) = some p → Ends i s { th with status := .waiting (.flags p.due) })

/-- R79, R105, R111: `getsr` and `setsr` of every special register. A 64-bit special takes a pair. Reserved bits are not kept: fsr
keeps [6:0], trapcause [7:0], tag [15:0]. -/
def Claims.SpecialRegisters : Prop := ∀ (s : State) (ct : Ctl) (d a n : BitVec 7),
  let th := s.flushed.me
  let x := (s.flushed.readF a.toNat).v
  let y := (s.flushed.readD a.toNat).1
  let r := s.flushed.effTag treeDepth s.myGrp.region
  let v := Claims.special s n.toNat
  (issues (.getsr ct d n) s = true → n.toNat ≤ 12 → (n = 0 → ¬Claims.flagsOut s) →
    (n.toNat ∈ [8, 9, 10, 11] → Completes (.getsr ct d n) s (s.withResult 1 d.toNat
      [⟨BitVec.ofNat 32 v, false⟩, ⟨BitVec.ofNat 32 (v / 2 ^ 32), false⟩] 0)) ∧
    (n.toNat ∉ [8, 9, 10, 11] → Completes (.getsr ct d n) s (s.withResult 1 d.toNat [⟨BitVec.ofNat 32 v, false⟩] 0))) ∧
  (issues (.getsr ct d 0) s = true → Claims.WaitsForFlags (.getsr ct d 0) s) ∧
  (issues (.setsr ct 0 a) s = true → Claims.WaitsForFlags (.setsr ct 0 a) s) ∧
  (issues (.setsr ct 0 a) s = true → ¬Claims.flagsOut s → Completes (.setsr ct 0 a) s { th with fsr := BitVec.ofNat 32 (x.toNat % 2 ^ 7) }) ∧
  (issues (.setsr ct 2 a) s = true → x.toNat % 8 = 0 → x.toNat + 8 ≤ s.myGrp.count → (∀ f ∈ owned th, f.rot = 0) →
    Completes (.setsr ct 2 a) s { th with wb := x.toNat }) ∧
  (issues (.setsr ct 2 a) s = true → s.cur.sh = false → (x.toNat % 8 ≠ 0 ∨ s.myGrp.count < x.toNat + 8 ∨ ∃ f ∈ owned th, f.rot ≠ 0) →
    Claims.RaisesSome (.setsr ct 2 a) s 0x02) ∧
  (issues (.setsr ct 5 a) s = true → r.1 ≤ x.toNat % 2 ^ 16 → x.toNat % 2 ^ 16 ≤ r.2 →
    Completes (.setsr ct 5 a) s { th with tag := BitVec.ofNat 16 x.toNat, marked := false }) ∧
  (issues (.setsr ct 5 a) s = true → s.cur.sh = false → (x.toNat % 2 ^ 16 < r.1 ∨ r.2 < x.toNat % 2 ^ 16) →
    Claims.RaisesSome (.setsr ct 5 a) s 0x02) ∧
  (issues (.setsr ct 7 a) s = true → Completes (.setsr ct 7 a) s { th with trapcause := BitVec.ofNat 32 (x.toNat % 2 ^ 8) }) ∧
  (issues (.setsr ct 8 a) s = true → Completes (.setsr ct 8 a) s { th with trappc := y }) ∧
  (issues (.setsr ct 9 a) s = true → Completes (.setsr ct 9 a) s { th with trapval := y }) ∧
  (issues (.setsr ct 11 a) s = true → Completes (.setsr ct 11 a) s { th with tsp := y })

/-- R106 to R108: the index registers. Base and bound count registers of the thread; the access reaches base + index + offset, and
register bounds (0x03) is raised where index + offset is negative or reaches the bound. -/
def Claims.IndexRegisters : Prop := ∀ (s : State) (ct : Ctl) (k : BitVec 2) (d a b : BitVec 7) (o : BitVec 5),
  let th := s.flushed.me
  let x := (s.flushed.readF a.toNat).v
  let y := (s.flushed.readF b.toNat).v
  let q := th.ixr k.toNat
  let e := q.idx.toInt + o.toNat
  let n := q.base.toNat + e.toNat
  let good : Prop := 0 ≤ e ∧ e < q.bound.toNat
  (issues (.setbase ct k a b) s = true → x.toNat < s.myGrp.count → x.toNat + y.toNat ≤ s.myGrp.count →
    Completes (.setbase ct k a b) s (th.setIx k.toNat ⟨x, y, 0⟩)) ∧
  (issues (.setbase ct k a b) s = true → s.cur.sh = false → (s.myGrp.count ≤ x.toNat ∨ s.myGrp.count < x.toNat + y.toNat) →
    Claims.RaisesSome (.setbase ct k a b) s 0x03) ∧
  (issues (.setidx ct k a) s = true → Completes (.setidx ct k a) s (th.setIx k.toNat ⟨q.base, q.bound, x⟩)) ∧
  (issues (.addidx ct k a) s = true →
    Completes (.addidx ct k a) s (th.setIx k.toNat ⟨q.base, q.bound, BitVec.ofNat 32 (q.idx.toNat + x.toNat)⟩)) ∧
  Claims.Gives (.getidx ct d k) s 1 d ⟨q.idx, false⟩ ∧
  (issues (.xget ct d k o) s = true → good → .reg n ∉ th.busy → (s.myGrp.strict = true → ∀ p ∈ th.pend, ∀ r ∈ p.regs, r.1 ≠ n) →
    Completes (.xget ct d k o) s (s.withResult 2 d.toNat [th.reg n] 0)) ∧
  (issues (.xput ct d k o) s = true → good → .reg n ∉ th.busy →
    Completes (.xput ct d k o) s (th.result s.time 2 { regs := [(n, s.flushed.readF d.toNat)] })) ∧
  (s.cur.sh = false → ¬good → (issues (.xget ct d k o) s = true → Claims.RaisesSome (.xget ct d k o) s 0x03) ∧
    (issues (.xput ct d k o) s = true → Claims.RaisesSome (.xput ct d k o) s 0x03))

/-- The frame that a loop pushes (R146). -/
def Claims.frame (x : Thread) (kind len stages rot pidx : Nat) (count : Word) : Frame :=
  { start := x.pc.toNat + 4, len, kind, stages, rot, rrb := 0, cnt := if kind = 2 then 0 else count - 1, epi := stages - 1
    stop := false, pidx, level := x.level }

/-- R145, R146: the three loops. A ninth frame, a body outside the enclosing one and a body whose last word is a prefix raise loop
nesting (0x05); then a rotating region past the group's count raises register mapping (0x02); then a poisoned count is consumed. With a
pass to run a frame is pushed and the body begins (a pipelined loop sets sp0 and clears sp1 to sp7, and no result pending on them
lands later); with none the thread arrives after the body. -/
def Claims.LoopDeclarations : Prop := ∀ (s s1 : State) (a : BitVec 7) (p : BitVec 4) (l : BitVec 8) (g r : BitVec 3) (i : Instr)
    (kind stages pidx : Nat) (n : Word) (go : Bool) (bs : List (Byte × Bool)),
  let th := s.flushed.me
  let c := s.flushed.readF a.toNat
  let len := l.toNat + 1
  let rot := 8 * r.toNat
  let first := th.pc.toNat + 4
  let after := first + 4 * len
  let fits : Prop := ∀ f, (owned th).head? = some f → f.start ≤ first ∧ after ≤ f.start + 4 * f.len
  (i = .loopCnt a l r ∧ kind = 0 ∧ stages = 1 ∧ pidx = 0 ∧ n = c.v ∧ go = (c.v != 0)) ∨
    (i = .loopPipe a l g r ∧ kind = 1 ∧ stages = g.toNat + 1 ∧ pidx = 0 ∧ n = c.v ∧ go = (c.v != 0)) ∨
    (i = .loopWhile p l r ∧ kind = 2 ∧ stages = 1 ∧ pidx = p.toNat ∧ n = 0 ∧ go = th.pred p.toNat) →
  issues i s = true →
  (s.cur.sh = false → (8 ≤ th.loops.length ∨ ¬fits) → Claims.RaisesSome i s 0x05) ∧
  (th.loops.length < 8 → fits → s.flushed.readPiece (after - 4) 4 3 4 = .ok s1 bs →
    let last := leNat (bs.map (·.1)) / 2 ^ 25 % 2 ^ 7
    let room : Prop := rot = 0 ∨ th.wb + 64 + rot ≤ s1.myGrp.count
    (s.cur.sh = false → last = 0x7F → Claims.RaisesIn i s s1 0x05) ∧
    (s.cur.sh = false → last ≠ 0x7F → ¬room → Claims.RaisesIn i s s1 0x02) ∧
    (last ≠ 0x7F → room → kind ≠ 2 → c.p = true → exec i s = .next (s1.consume s.cur 0x10).endIssue) ∧
    (last ≠ 0x7F → room → (kind = 2 ∨ c.p = false) → go = true → ∃ q : List Pend,
      Claims.EndsIn i s s1 { th with
        pc := BitVec.ofNat 64 first, loops := Claims.frame th kind len stages rot pidx n :: th.loops, pend := q
        preds := if kind = 1 then (th.preds &&& 0x00FF#16) ||| 0x0100#16 else th.preds } ∧
      q = th.pend.map fun p => { p with preds := p.preds.filter fun x => decide (kind ≠ 1 ∨ x.1 < 8 ∨ 16 ≤ x.1) }) ∧
    (last ≠ 0x7F → room → (kind = 2 ∨ c.p = false) → go = false → Claims.EndsIn i s s1 (th.flowTo after)))

/-- One back edge (R147): the frame and the stage predicates for a further pass, none where the loop is over. -/
def Claims.backEdge (f : Frame) (preds : BitVec 16) : Option (Frame × BitVec 16) :=
  let rrb := if f.rot = 0 then f.rrb else (f.rrb + f.rot - 1) % f.rot
  let moved (b : Bool) : BitVec 16 := BitVec.ofNat 16 (preds.toNat % 256 + (preds.toNat / 256 * 2 + (if b then 1 else 0)) % 256 * 256)
  match f.kind with
  | 0 => if f.stop = true ∨ f.cnt = 0 then none else some ({ f with cnt := f.cnt - 1, rrb }, preds)
  | 2 => if f.stop = true ∨ (f.pidx ≠ 0 ∧ preds.getLsbD f.pidx = false) then none else some ({ f with rrb }, preds)
  | _ => if f.stop = false ∧ f.cnt ≠ 0 then some ({ f with cnt := f.cnt - 1, rrb }, moved true)
    else if f.epi ≠ 0 then some ({ f with epi := f.epi - 1, rrb }, moved false) else none

/-- R147, R150: a thread that arrives by sequential flow takes the back edge of the innermost owned frame that ends there, or pops it
and hands the arrival on; away from any end it simply arrives; a transfer discards the owned frames that do not hold its target. -/
def Claims.BackEdges : Prop := ∀ (x : Thread) (a : Nat) (f : Frame) (fs : List Frame), a < 2 ^ 64 → f.kind ≤ 2 →
  ((∀ g, (owned x).head? = some g → (g.start + 4 * g.len) % 2 ^ 64 ≠ a) → x.flowTo a = { x with pc := BitVec.ofNat 64 a }) ∧
  (x.loops = f :: fs → f.level = x.level → (f.start + 4 * f.len) % 2 ^ 64 = a →
    (∀ f' p', Claims.backEdge f x.preds = some (f', p') →
      x.flowTo a = { x with pc := BitVec.ofNat 64 f.start, loops := f' :: fs, preds := p' }) ∧
    (Claims.backEdge f x.preds = none → x.flowTo a = ({ x with loops := fs } : Thread).flowTo a)) ∧
  x.jumpTo a = Claims.at x (BitVec.ofNat 64 a) ∧
  ((∃ g, (owned x).head? = some g ∧ (g.start + 4 * g.len) % 2 ^ 64 = a) → x.resumeAt a = x.flowTo a) ∧
  ((∀ g, (owned x).head? = some g → (g.start + 4 * g.len) % 2 ^ 64 ≠ a) → x.resumeAt a = x.jumpTo a)

/-- R151 to R153: `lexit`, `lbrk`, `lrd` and `lwr`. -/
def Claims.FrameControl : Prop := ∀ (s : State) (ct : Ctl) (d a : BitVec 7) (p : BitVec 3) (f : Frame) (fs : List Frame),
  let th := s.flushed.me
  let x := (s.flushed.readF a.toNat).v
  let word := BitVec.ofNat 32 ((if f.stop then 2 ^ 28 else 0) + f.kind * 2 ^ 26 + (if f.level = th.level then 2 ^ 25 else 0) +
    (f.stages - 1) * 2 ^ 22 + f.rrb * 2 ^ 16 + f.rot / 8 * 2 ^ 13 + f.pidx * 2 ^ 9 + (f.len - 1))
  (th.loops = f :: fs → f.level = th.level →
    (issues (.lexit ct) s = true → Completes (.lexit ct) s { th with loops := { f with stop := true } :: fs }) ∧
    (issues (.lbrk ct) s = true → Ends (.lbrk ct) s
      (Claims.gone s (.lbrk ct) (({ th with loops := fs } : Thread).flowTo ((f.start + 4 * f.len) % 2 ^ 64))))) ∧
  (s.cur.sh = false → (∀ g, th.loops.head? = some g → g.level ≠ th.level) →
    (issues (.lexit ct) s = true → Claims.RaisesSome (.lexit ct) s 0x05) ∧ (issues (.lbrk ct) s = true → Claims.RaisesSome (.lbrk ct) s 0x05)) ∧
  (th.loops[p.toNat]? = some f →
    Claims.Gives (.lrd ct d p 0) s 1 d ⟨f.cnt, false⟩ ∧
    Claims.Gives (.lrd ct d p 1) s 1 d ⟨BitVec.ofNat 32 f.epi, false⟩ ∧
    Claims.Gives (.lrd ct d p 2) s 1 d ⟨word, false⟩ ∧
    Claims.GivesPair (.lrd ct d p 3) s 1 d (BitVec.ofNat 64 f.start) false ∧
    (issues (.lwr ct p 0 a) s = true → Completes (.lwr ct p 0 a) s { th with loops := th.loops.set p.toNat { f with cnt := x } }) ∧
    (issues (.lwr ct p 1 a) s = true → x.toNat < f.stages ∨ x = 0 →
      Completes (.lwr ct p 1 a) s { th with loops := th.loops.set p.toNat { f with epi := x.toNat } }) ∧
    (issues (.lwr ct p 1 a) s = true → s.cur.sh = false → f.stages ≤ x.toNat → x ≠ 0 → Claims.RaisesSome (.lwr ct p 1 a) s 0x02) ∧
    (issues (.lwr ct p 2 a) s = true → s.cur.sh = false → let r := x.toNat / 2 ^ 16 % 2 ^ 6
      (f.rot = 0 ∧ r ≠ 0) ∨ (f.rot ≠ 0 ∧ f.rot ≤ r) → Claims.RaisesSome (.lwr ct p 2 a) s 0x02) ∧
    (issues (.lwr ct p 2 a) s = true → let r := x.toNat / 2 ^ 16 % 2 ^ 6
      (f.rot = 0 ∧ r = 0) ∨ (f.rot ≠ 0 ∧ r < f.rot) →
      Completes (.lwr ct p 2 a) s { th with loops := th.loops.set p.toNat { f with stop := x.getLsbD 28, rrb := r } })) ∧
  (s.cur.sh = false → th.loops.length ≤ p.toNat → ∀ k,
    (issues (.lrd ct d p k) s = true → Claims.RaisesSome (.lrd ct d p k) s 0x02) ∧ (issues (.lwr ct p k a) s = true → Claims.RaisesSome (.lwr ct p k a) s 0x02))

/-! ### Exceptions (R47-R49, R87-R90) -/

/-- The trap frame of R88. -/
def Claims.trapFrame (x : Thread) (cause : Nat) (pc v : DWord) : List Byte :=
  let b (n k : Nat) : List Byte := (List.range k).map fun j => BitVec.ofNat 8 (n / 2 ^ (8 * j))
  b ((List.range 16).map fun k => if x.pred k then 2 ^ k else 0).sum 2 ++ b (x.wb / 8) 1 ++ b x.loops.length 1 ++ b x.fsr.toNat 4 ++
    b pc.toNat 8 ++ b cause 1 ++ List.replicate 7 0 ++ b v.toNat 8

/-- R49, R87: the causes that enter no handler: poison consumed, a lost access, and those that end the group. -/
def Claims.unhandled : List Nat := [0x0C, 0x12, 0x13, 0x14, 0x1B, 0x1D]

/-- R87, R88: taking an exception. The handler table's entry for the cause gives the handler's address; the frame is stored at
tsp - 32; tsp, trapcause, trappc, trapval, the handler-state bit and the level are set; and the thread goes on at the handler (bits
[1:0] of its address are dropped: log entry 14), from the next cycle or the end of its stall on.
Registers, index registers, predicates, fsr and wb stay. -/
def Claims.ExceptionEntry : Prop := ∀ (s s1 s2 : State) (cause : Nat) (pc v : DWord) (bs : List (Byte × Bool)),
  let th := s.me
  let g := s.myGrp
  let off := leNat (bs.map (·.1))
  cause < 256 → cause ∉ 0x10 :: 0x11 :: Claims.unhandled → th.handler = false → g.handOff ≠ 0 →
  s.readPiece (g.header + g.handOff + 4 * cause) 4 0 1 = .ok s1 bs → bs.any (·.2) = false → off ≠ 0 → th.tsp.toNat % 16 = 0 →
  State.storeVA 2 s1 (th.tsp - 32).toNat ((Claims.trapFrame th cause pc v).map fun b => (b, false)) = .next s2 →
  s.takeTrap cause pc v = s2.setMe { s2.me with
    tsp := th.tsp - 32, trapcause := BitVec.ofNat 32 cause, trappc := pc, trapval := v, handler := true, level := s2.me.level + 1
    pc := BitVec.ofNat 64 ((g.header + off) / 4 * 4), status := .ready
    notBefore := max s2.me.notBefore (s2.now s.cur.die + 1), since := max s2.me.notBefore (s2.now s.cur.die + 1) }

/-- R49, R87, R357: where no handler is entered: poison consumed stops the thread and starts a purge; a lost access is an event recorded
against the group; the other causes of R87's list, a thread already in a handler, a group without a handler table, an entry of 0, an entry
whose read is lost and a misaligned tsp end the group with a group fault under the original cause; a poisoned entry is consumed. -/
def Claims.NoHandler : Prop := ∀ (s s1 : State) (cause : Nat) (pc v : DWord) (bs : List (Byte × Bool)),
  let g := s.myGrp
  let listed := 0x10 :: 0x11 :: Claims.unhandled
  s.takeTrap 0x10 pc v = s.consume s.cur 0x10 ∧
  s.takeTrap 0x11 pc v = s.groupEvent s.cur 0x11 v ∧
  (cause ∈ Claims.unhandled ∨ (cause ≠ 0x10 ∧ cause ≠ 0x11 ∧ (s.me.handler = true ∨ g.handOff = 0)) →
    s.takeTrap cause pc v = s.groupFault (gidOf s.cur) cause s.me.tag v) ∧
  (cause ∉ listed → s.me.handler = false → g.handOff ≠ 0 →
    (s.readPiece (g.header + g.handOff + 4 * cause) 4 0 1 = .ok s1 bs →
      (bs.any (·.2) = false → (leNat (bs.map (·.1)) = 0 ∨ s.me.tsp.toNat % 16 ≠ 0) →
        s.takeTrap cause pc v = s1.groupFault (gidOf s.cur) cause s.me.tag v) ∧
      (bs.any (·.2) = true → s.takeTrap cause pc v = s1.consume s.cur 0x10)) ∧
    (s.readPiece (g.header + g.handOff + 4 * cause) 4 0 1 = .lost s1 →
      s.takeTrap cause pc v = s1.groupFault (gidOf s.cur) cause s.me.tag v)) ∧
  (s.groupFault (gidOf s.cur) cause s.me.tag v).grp (gidOf s.cur) =
    { s.grp (gidOf s.cur) with st := .ending, faulted := true, leaving := none }

/-- R89: the return from an exception: predicates, wb and fsr from the frame at tsp, tsp + 32, the handler-state bit cleared, the
frames above the recorded number discarded, and the thread at trappc (bits [1:0] dropped: log entry 14). The bits of fsr above 6 read 0
(R57), and a wb byte is installed as it stands (log entry 69). A tsp that is no multiple of 16 raises misaligned access, and a poisoned
word of the frame is consumed. -/
def Obligations.ExceptionReturn : Prop := ∀ (s s1 : State) (ct : Ctl) (bs : List (Byte × Bool)),
  let i : Instr := .eret ct
  let th := s.flushed.me
  let n (a k : Nat) : Nat := leNat (((bs.drop a).take k).map (·.1))
  issues i s = true →
  (th.tsp.toNat % 16 = 0 → State.readVA 2 s.flushed th.tsp.toNat = .ok s1 bs → bs.any (·.2) = false → th.anchor = none →
    Claims.EndsIn i s s1 (({ th with
      preds := BitVec.ofNat 16 (n 0 2), wb := 8 * n 2 1, fsr := BitVec.ofNat 32 (n 4 4 % 2 ^ 7), tsp := th.tsp + 32, handler := false
      level := th.level - 1, loops := th.loops.drop (th.loops.length - n 3 1) }).resumeAt (th.trappc.toNat / 4 * 4))) ∧
  (th.tsp.toNat % 16 = 0 → State.readVA 2 s.flushed th.tsp.toNat = .ok s1 bs → bs.any (·.2) = true →
    exec i s = .next ((s1.consume s.cur 0x10).endIssue.letGoFrom s)) ∧
  (th.tsp.toNat % 16 ≠ 0 → exec i s = .next (((Claims.over i s.flushed).takeTrap 0x0B th.pc th.tsp).endIssue.letGoFrom s)) ∧
  (∀ x : Thread, ∀ (cause : Nat) (pc v : DWord), x.wb % 8 = 0 → x.wb < 2048 → x.loops.length < 256 →
    let f := Claims.trapFrame x cause pc v
    f.length = 32 ∧ leNat ((f.drop 2).take 1) * 8 = x.wb ∧ leNat ((f.drop 4).take 4) = x.fsr.toNat ∧
      leNat ((f.drop 3).take 1) = x.loops.length ∧ ∀ k, k < 16 → (BitVec.ofNat 16 (leNat (f.take 2))).getLsbD k = x.pred k)

/-! ### Encoding, fetch and checks (R30-R48) -/

/-- R33, R44, R45: for every well-formed instruction, decoding its words gives it back, with every operand at every value. -/
def Obligations.DecodeOfEncode : Prop := ∀ i : Instr, wellFormed i = true → isEvent i = false → decodeWords (encode i) = .ok i

/-- The other direction: what decodes is a well-formed instruction, and those words are its encoding. -/
def Obligations.EncodeOfDecode : Prop := ∀ (w0 w1 : Nat) (i : Instr), w0 < 2 ^ 32 → w1 < 2 ^ 32 → decode w0 w1 = .ok i →
  wellFormed i = true ∧ isEvent i = false ∧ encode i = (if w0 / 2 ^ 25 = 0x7F then [w0, w1] else [w0])

/-- The encodings the manual writes out, and words written from its layouts (R33, R42, R44, R45): each decodes to the instruction it
stands for; major 0x00, a prefix before a prefix and a field of 126 are refused. -/
def Obligations.DecodedWords : Prop :=
  decode 0x667FFFFB 0 = .ok (.br 3 1 (BitVec.ofInt 20 (-5))) ∧
  decode 0x920818D0 0 = .ok (.fclass {} 2 3) ∧
  decode 0xA42860E0 0 = .ok (.dfma {} 10 12 14) ∧
  decode 0x96881030 0 = .ok (.fcmp {} 4 2 2 3) ∧
  decode 0xC80850B0 0 = .ok (.setbase {} 2 10 11) ∧
  decode 0x7C151800 0 = .ok (.xget {} 5 1 3) ∧
  decode 0x76220602 0 = .ok (.cap 1 0 2 12 2) ∧
  decode 0x78000800 0 = .ok (.apply {} 1) ∧
  decode (0x01 * 2 ^ 25 + 5 * 2 ^ 18 + 6 * 2 ^ 11 + 7 * 2 ^ 4) 0 = .ok (.add {} 5 6 7) ∧
  decode (0x01 * 2 ^ 25 + 5 * 2 ^ 18 + 6 * 2 ^ 11 + 7 * 2 ^ 4 + 2 * 2 ^ 2 + 3) 0 = .ok (.add { g := 2, s := 3 } 5 6 7) ∧
  decode (0x7F * 2 ^ 25 + 0x13 * 2 ^ 20) (0x01 * 2 ^ 25 + 5 * 2 ^ 18 + 6 * 2 ^ 11 + 7 * 2 ^ 4) =
    .ok (.add { pfx := some { guard5 := 0x13 } } 5 6 7) ∧
  decode 0 0 = .illegal 0 ∧
  decode 0xFE000000 0xFE000000 = .illegal 0xFE000000 ∧
  decode (0x01 * 2 ^ 25 + 126 * 2 ^ 18) 0 = .illegal (0x01 * 2 ^ 25 + 126 * 2 ^ 18)

/-- What a step finds for the lane at the head of the glean: the lane, and its due results in place; both copies of a lane pair. -/
def Claims.lane (s : State) (t : ThreadId) (l : List ThreadId) : State :=
  ({ s with cur := t, glean := l } : State).bothCopies State.flushed

/-- What a step adds: with no lane of the glean left, the accesses its lanes have formed leave (R175, R176). -/
def Claims.sent : Host.Outcome State Fault Refusal → Host.Outcome State Fault Refusal
  | .next s => .next (if s.glean = [] ∧ s.stage ≠ [] then s.coalesce else s)
  | r => r

/-- R31, R47: when the words at the program counter of the lane about to issue decode to an instruction, the step is that
instruction's; a word that check 2 refuses raises illegal instruction with trapval that word (R48). A lane that may not issue is
passed over, and a frozen package takes no such step. -/
def Obligations.StepRunsDecoded : Prop := ∀ (s s1 : State) (t : ThreadId) (l : List ThreadId) (w0 w1 : Nat),
  let q := Claims.lane s t l
  let ready : Prop := ({ s with cur := t, glean := l } : State).me.status = .ready ∧ ({ s with cur := t, glean := l } : State).canRun t = true
  s.frozen = false → s.glean = t :: l →
  (ready → q.me.raise = none → (q.me.impr = [] ∨ q.me.issued ≠ none) → q.me.restoring = false → q.fetch = .ok s1 w0 w1 →
    (∀ i, decode w0 w1 = .ok i → step s = Claims.sent (exec i { s1 with ir := irOf w0 w1 })) ∧
    (∀ w, decode w0 w1 = .illegal w →
      step s = Claims.sent (execIllegalInstruction (BitVec.ofNat 32 w) { s1 with ir := irOf w0 w1 }))) ∧
  (¬ready → step s = Claims.sent (.next { s with cur := t, glean := l }))

/-- R47, R48: an instruction refused by check 2 raises illegal instruction at its own address, with trapval the word. -/
def Claims.IllegalInstruction : Prop := ∀ (s : State) (w : Word), s.myGrp.shadow ≠ 1 →
  exec (.illegalInstruction w) s = .next (s.flushed.takeTrap 0x01 s.flushed.me.pc (BitVec.ofNat 64 w.toNat)).endIssue

/-- An instruction whose execution is one issue and no more: all but `ret`, `eret`, `exit` and the collectives. -/
def Claims.plain (i : Instr) : Bool :=
  !isEvent i && !(sigOf i).coll && (match i with
    | .ret _ => false
    | .eret _ => false
    | .exit _ => false
    | _ => true)

/-- Every such instruction is one issue. -/
def Claims.OneIssue : Prop := ∀ (i : Instr) (s : State), Claims.plain i = true → ∃ body, exec i s = .next (issue i s body).endIssue

/-- R36, R37, R39, R40, R47: the checks of an instruction in one lane, in their order, whatever its own effect `body` is: privilege,
the guard, the register mapping, outstanding results, strict stall checking, and then its effect. A thread whose guard is false only
goes on, but takes part in a collective (R130), an inactive lane of a shuffle waiting for a write to the register it supplies (R133); a
register or predicate with a variable-latency result outstanding makes it wait, changing nothing. The selector of `sel` is a source. -/
def Claims.ChecksBeforeEffect : Prop := ∀ (i : Instr) (s : State) (body : State → Res), s.myGrp.shadow ≠ 1 → s.cur.sh = false →
  let th := s.flushed.me
  let raises (cause : Nat) : Prop := ∃ (v : DWord) (s1 : State), issue i s body = (Claims.over i s1).takeTrap cause th.pc v ∧
    { s1 with freeCtr := s.freeCtr } = s.flushed
  let waits : Prop := issue i s body = s.flushed.setMe { th with status := .waiting .score }
  let gate : List Nat := if isSel i then [] else guardPreds i
  let busyGuard := gate.any fun n => th.busy.contains (.pred n)
  let earlyGuard := s.myGrp.strict && gate.any fun n => th.pend.any fun p => p.preds.any fun r => r.1 == n
  (privileged i s = false → issue i s body = (Claims.over i s.flushed).takeTrap 0x14 th.pc (BitVec.ofNat 64 s.ir.word)) ∧
  (privileged i s = true → busyGuard = true → waits) ∧
  (privileged i s = true → busyGuard = false → earlyGuard = true → raises 0x04) ∧
  (privileged i s = true → busyGuard = false → earlyGuard = false → acts i s = false → (sigOf i).coll = false →
    issue i s body = s.flushed.setMe (Claims.ready s i (th.flowTo (th.pc.toNat + sizeIn i)))) ∧
  (privileged i s = true → busyGuard = false → earlyGuard = false → acts i s = false → (sigOf i).coll = true →
    issue i s body = if supplyWaits th s.myGrp.count i then s.flushed.setMe { th with status := .waiting .score }
      else settle i (body s.flushed)) ∧
  (privileged i s = true → guardReadable i s = true → acts i s = true → inCount i s = false → raises 0x02) ∧
  (privileged i s = true → guardReadable i s = true → acts i s = true → inCount i s = true → scored i s = true → waits) ∧
  (privileged i s = true → guardReadable i s = true → acts i s = true → inCount i s = true → scored i s = false → tooEarly i s = true →
    raises 0x04) ∧
  (issues i s = true → issue i s body = settle i (body s.flushed))

/-- R80: what mode an instruction asks for: 0 none, 1 system or handler mode, 2 system mode. -/
def Claims.needs : Instr → Nat
  | .eret _ => 1
  | .lwr _ _ _ _ => 1
  | .ann _ _ _ _ => 2
  | .wdr _ _ _ => 2
  | .promo _ _ _ => 2
  | .rqry _ _ _ => 2
  | .lnkpark _ _ _ => 2
  | .lnkwake _ _ _ => 2
  | .lnkstat _ _ _ => 2
  | .lnkdrain _ _ _ => 2
  | .lnksched _ _ _ => 2
  | .semacq _ _ => 2
  | .semrel _ _ => 2
  | .purge _ _ _ => 2
  | .setsr _ d _ => if d = 5 then 2 else 0
  | _ => 0

/-- R80: `eret` and `lwr` pass in system or handler mode; `rop`, `dev` and a `setsr` to tag in system mode alone; every other instruction
passes everywhere. -/
def Obligations.Privilege : Prop := ∀ (i : Instr) (s : State),
  privileged i s = true ↔
    (Claims.needs i = 0 ∨ s.myGrp.sys = true ∨ (Claims.needs i = 1 ∧ s.flushed.me.handler = true))

/-- R39, R40, R111: how results take their place. A result of latency 1 stands at once; one of latency L ≥ 2 at `now + L`, the
register reading as before until then; a variable-latency one when it completes, its destination scoreboarded. A later result is
never overwritten by an earlier one. Flags come with the result. -/
def Obligations.ResultsTakePlace : Prop := ∀ (x : Thread) (now lat n t : Nat) (r : Reg) (fl : BitVec 7),
  let p : Pend := { regs := [(n, r)], flags := fl }
  let y := x.result now lat p
  (lat = 1 → y.reg n = r ∧ (∀ m, m ≠ n → y.reg m = x.reg m) ∧ y.fsr = x.fsr ||| fl.setWidth 32 ∧ y.preds = x.preds ∧ y.busy = x.busy ∧
    (y.flush t).reg n = r) ∧
  (2 ≤ lat → (∀ m, y.reg m = x.reg m) ∧ y.fsr = x.fsr ∧ y.busy = x.busy ∧
    (t < now + lat → (y.flush t).reg n = x.reg n) ∧ (now + lat ≤ t → (y.flush t).reg n = r) ∧
    (∀ m, m ≠ n → (y.flush t).reg m = (x.flush t).reg m) ∧ (y.flush t).preds = (x.flush t).preds ∧
    (now + lat ≤ t → (y.flush t).fsr = (x.flush t).fsr ||| fl.setWidth 32)) ∧
  (lat = 0 → (∀ m, y.reg m = x.reg m) ∧ y.fsr = x.fsr ∧ .reg n ∈ y.busy ∧ y.vpend = x.vpend ++ [p] ∧
    y.pend = x.pend.map fun q => { q with regs := q.regs.filter fun z => z.1 != n })

/-! ### Memory and reset (R192, R385) -/

/-- The memory keeps its canonical form in every step of the package, from every state in which it has it. -/
def Obligations.MemoryStaysCanonical : Prop := ∀ s t : State, s.Inv → step s = .next t → t.Inv

/-- Memory has its canonical form at reset. -/
def Claims.ResetMemoryCanonical : Prop := State.reset.Inv

/-- What reset leaves (R104, R157, R339, R363, R385): every byte reads 0 and no word is poisoned, each die's cycle counter is 0, every
environment slot is free with generation 1, every port is dark, no semaphore is held, no route beyond the bring-up entries
stands, and no context, region, queue, launch, group, thread or fault record exists. -/
def Claims.ResetState : Prop :=
  let s := State.reset
  (∀ a, Memory.read s.mem a = 0) ∧ s.poison = [] ∧ (∀ d, (s.die d).cycle = 0) ∧
  (∀ c k, (s.slot c k).st = .free ∧ (s.slot c k).gen = 1) ∧ (∀ q, (s.port q).st = .dark) ∧
  (∀ d, (s.die d).routes = [] ∧ (s.die d).dropped = []) ∧ s.ctxs = [] ∧ s.regions = [] ∧ s.queues = [] ∧ s.launches = [] ∧
  s.groups = [] ∧ s.threads = [] ∧ s.net = [] ∧ s.accs = [] ∧ s.frozen = false

/-! ### Collectives (R73, R130-R141) -/

/-- The state in which the lane issuing has arrived at collective `i` and waits. -/
def Claims.arrived (s : State) (i : Instr) : State :=
  s.flushed.setMe { s.flushed.me with
    status := .collective i (guardTrue s.flushed.me (ctlOf i)), notBefore := s.time + 1 + stallOf i, since := s.time + 1 + stallOf i }

/-- The collectives of R136 to R140: every vote, shuffle, reduction, scan and match. -/
noncomputable def Claims.collectives (ct : Ctl) (d a b m : BitVec 7) (p q : BitVec 4) (e : BitVec 1) : List Instr :=
  [.voteAny ct p q, .voteAll ct p q, .voteUni ct p q, .voteBallot ct d q, .voteFany ct p m, .voteFall ct p m, .voteFballot ct d m,
   .shflIdx ct d a b, .shflUp ct d a b, .shflDown ct d a b, .shflXor ct d a b,
   .redAdd ct d a, .redMin ct d a, .redMax ct d a, .redMinu ct d a, .redMaxu ct d a, .redAnd ct d a, .redOr ct d a, .redXor ct d a,
   .redFadd ct d a, .redFmin ct d a, .redFmax ct d a, .redAdd64 ct d a,
   .scanAdd ct d a e, .scanMin ct d a e, .scanMax ct d a e, .scanMinu ct d a e, .scanMaxu ct d a e, .scanAnd ct d a e,
   .scanOr ct d a e, .scanXor ct d a e, .scanFadd ct d a e, .scanFmin ct d a e, .scanFmax ct d a e, .scanAdd64 ct d a e,
   .matchEq32 ct d a, .matchEq64 ct d a, .matchLeader ct d a]

/-- The lanes of the deckle `j` of the sheaf of the lane issuing that are live. -/
def Claims.deckle (s : State) (j : Nat) : List LaneIn :=
  let g := gidOf s.cur
  let sid := sheafOf s.myGrp s.cur.t
  (s.sheafLanes g sid).filter fun l => l.lid / 2 ^ dkOf s.myGrp sid == j

/-- Every lane of a list waits at collective `i`, at one program counter. -/
def Claims.meet (s : State) (i : Instr) (ls : List LaneIn) : Bool :=
  ls.all fun l => (s.thr l.t).status == .collective i l.active && (s.thr l.t).pc == s.me.pc

/-- Every live lane of the issuing lane's deckle waits with it, and of every other deckle of the sheaf some live lane does not wait,
or none is live. -/
def Claims.deckleMeets (s : State) (i : Instr) : Bool :=
  let g := s.myGrp
  let sid := sheafOf g s.cur.t
  let mine := laneOf g s.cur.t / 2 ^ dkOf g sid
  Claims.meet s i (Claims.deckle s mine) && (Claims.deckle s mine).any (fun l => l.t == s.cur) &&
    (List.range (32 / 2 ^ dkOf g sid)).all fun j => j == mine || (Claims.deckle s j).isEmpty || !s.allWait (Claims.deckle s j)

/-- The places of a deckle of 2^k lanes in order, a place without a live lane empty. -/
def Claims.places (s : State) : List (Option LaneIn) :=
  let g := s.myGrp
  let k := dkOf g (sheafOf g s.cur.t)
  let j := laneOf g s.cur.t / 2 ^ k
  (List.range (2 ^ k)).map fun p => (Claims.deckle s j).find? fun l => l.lid == j * 2 ^ k + p

/-- R132, R133: a collective other than `part` (each form of `vote`, `shfl`, `red`, `scan` and `match`) completes for a deckle in the
issue of the last of its live lanes to arrive; a lane whose guard is false takes part as well. A lane that arrives before the others
waits. -/
def Claims.CollectivesMeet : Prop := ∀ (i : Instr) (s : State) (ct : Ctl) (d a b m : BitVec 7) (p q : BitVec 4) (e : BitVec 1),
  i ∈ Claims.collectives ct d a b m p q e → s.myGrp.shadow ≠ 1 → s.cur.sh = false → guardReadable i s = true →
  ((acts i s = false ∧ supplyWaits s.flushed.me s.myGrp.count i = false) ∨
    (acts i s = true ∧ inCount i s = true ∧ scored i s = false ∧ tooEarly i s = false)) →
  (isFlagVote i = true → acts i s = true → ∀ p ∈ s.flushed.me.vpend ++ s.flushed.me.pend, p.may = false) →
  let s1 := Claims.arrived s i
  let k := dkOf s.myGrp (sheafOf s.myGrp s.cur.t)
  (Claims.deckleMeets s1 i = true → exec i s = .next (s1.collComplete i k (Claims.places s1)).endIssue) ∧
  ((List.range (32 / 2 ^ k)).all (fun j => (Claims.deckle s1 j).isEmpty || !s1.allWait (Claims.deckle s1 j)) = true →
    exec i s = .next s1.endIssue)

/-- R132, R133, R135: completion: every live lane of the places goes on with the next instruction; an active one receives its result,
computed from all sources as they stood, with its poison and flags; an inactive one receives nothing. No other thread changes. -/
def Claims.CollectiveCompletion : Prop := ∀ (s : State) (i : Instr) (k : Nat) (ps : List (Option LaneIn)) (t : ThreadId),
  let ls := ps.filterMap id
  let s1 := ls.foldl (fun s l => s.setThr l.t ((s.thr l.t).flush (s.now l.t.die))) s
  let s2 := s.collComplete i k ps
  (ls.map (·.t)).Nodup → (∀ l ∈ ls, l.t.sh = false ∧ (s.grp (gidOf l.t)).shadow ≠ 1) →
  (∀ p l, ps[p]? = some (some l) → s2.thr l.t =
    let x := (s.thr l.t).flush (s.now l.t.die)
    let o := collOut i s1 k ps p l
    let y := if l.active then x.result (s.now l.t.die) 1 {
      regs := (dests x o.d o.vals.length).zip o.vals, preds := o.preds.filter (fun p => p.1 != 0), flags := o.fl } else x
    { y.flowTo (y.pc.toNat + sizeIn i) with
      status := .ready, notBefore := max y.notBefore (s.now l.t.die + 1), since := max y.notBefore (s.now l.t.die + 1) }) ∧
  ((∀ l ∈ ls, l.t ≠ t) → s2.thr t = s.thr t) ∧ s2.mem = s.mem ∧ s2.accs = s.accs ∧ s2.net = s.net

/-- R136: the votes over the active lanes, from the lanes' predicates or flags. -/
def Claims.Votes : Prop := ∀ (s : State) (ct : Ctl) (k pos : Nat) (ps : List (Option LaneIn)) (d p : BitVec 4) (x m : BitVec 7) (l : LaneIn),
  let q := (ps.filterMap id).filter (·.active)
  let c (l : LaneIn) : Prop := (s.thr l.t).pred p.toNat = true
  let f (l : LaneIn) : Prop := ∃ b, b < 7 ∧ m.getLsbD b = true ∧ (s.thr l.t).fsr.getLsbD b = true
  let gives (i : Instr) (r : Prop) : Prop := ∀ b : Bool, (b = true ↔ r) → collOut i s k ps pos l = { preds := [(d.toNat, b)] }
  let mask (i : Instr) (r : LaneIn → Prop) : Prop := ∃ v : Word, collOut i s k ps pos l = { d := x.toNat, vals := [⟨v, false⟩] } ∧
    ((q.map (·.lid)).Nodup → (∀ y ∈ q, y.lid < 32) → ∀ n, n < 32 → (v.getLsbD n = true ↔ ∃ y ∈ q, y.lid = n ∧ r y))
  gives (.voteAny ct d p) (∃ y ∈ q, c y) ∧
  gives (.voteAll ct d p) (∀ y ∈ q, c y) ∧
  gives (.voteUni ct d p) ((∀ y ∈ q, c y) ∨ ∀ y ∈ q, ¬c y) ∧
  mask (.voteBallot ct x p) c ∧
  gives (.voteFany ct d m) (∃ y ∈ q, f y) ∧
  gives (.voteFall ct d m) (∀ y ∈ q, f y) ∧
  mask (.voteFballot ct x m) f

/-- R133, R137: the shuffles: which place of the deckle of w = 2^k lanes the lane at place `pos` reads; an empty place supplies 0, a
value carries its poison, and an inactive lane whose register lies past its count supplies 0. -/
def Claims.Shuffles : Prop := ∀ (s : State) (ct : Ctl) (k pos : Nat) (ps : List (Option LaneIn)) (d a b : BitVec 7) (l : LaneIn),
  let j := (State.readF { s with cur := l.t } b.toNat).v.toNat
  let w := 2 ^ k
  let from_ (n : Nat) : Reg := match ps[n]? with
    | some (some y) => if y.active = false ∧ a.toNat < 120 ∧ (s.grp (gidOf y.t)).count ≤ regNum (s.thr y.t) a.toNat then {}
        else State.readF { s with cur := y.t } a.toNat
    | _ => {}
  let gives (i : Instr) (n : Nat) : Prop := collOut i s k ps pos l = { d := d.toNat, vals := [from_ n] }
  gives (.shflIdx ct d a b) (j % w) ∧
  gives (.shflUp ct d a b) (if j < w ∧ j ≤ pos then pos - j else pos) ∧
  gives (.shflDown ct d a b) (if j < w ∧ pos + j < w then pos + j else pos) ∧
  gives (.shflXor ct d a b) (pos ^^^ (j &&& (w - 1)))

/-- A place's contribution to a reduction over 32-bit registers: an active lane's value, else the identity (R133, R138). -/
def Claims.contributes (s : State) (a : BitVec 7) (ident : Nat) (y : Option LaneIn) : Nat :=
  match y with
  | some l => if l.active then (State.readF { s with cur := l.t } a.toNat).v.toNat else ident
  | none => ident

/-- The same over register pairs. -/
def Claims.contributes64 (s : State) (a : BitVec 7) (y : Option LaneIn) : Nat :=
  match y with
  | some l => if l.active then (State.readD { s with cur := l.t } a.toNat).1.toNat else 0
  | none => 0

/-- The pairwise tree of R73 over 2^k leaves, the lower half's sum on the left, and the flags of all its steps. -/
def Claims.pairwise : Nat → List Nat → Nat × Fl
  | 0, l => (l.headD 0, 0)
  | k + 1, l =>
    let x := Claims.pairwise k (l.take (2 ^ k))
    let y := Claims.pairwise k (l.drop (2 ^ k))
    let r := fAdd f32 0 false (f32.decode false x.1) (f32.decode false y.1)
    (r.1, x.2 ||| y.2 ||| r.2)

/-- Steps on binary32 values from the first of a list to its last, and the flags of all of them. -/
def Claims.chain (f : FVal → FVal → Nat × Fl) : List Nat → Nat × Fl
  | [] => (0, 0)
  | v :: l => l.foldl (fun x y => let r := f (f32.decode false x.1) (f32.decode false y); (r.1, x.2 ||| r.2)) (v, 0)

/-- Some active lane of the places reads a poisoned register, or a poisoned pair. -/
def Claims.poisoned (s : State) (a : BitVec 7) (ps : List (Option LaneIn)) : Bool :=
  ps.any fun y => match y with | some l => l.active && (State.readF { s with cur := l.t } a.toNat).p | none => false
def Claims.poisoned64 (s : State) (a : BitVec 7) (ps : List (Option LaneIn)) : Bool :=
  ps.any fun y => match y with | some l => l.active && (State.readD { s with cur := l.t } a.toNat).2 | none => false

/-- Two's complement and back. -/
def Claims.signed (n : Nat) : Int := (BitVec.ofNat 32 n).toInt

/-- R73, R133, R135, R138: the reductions of a deckle's contributions. An integer one is exact and the same in any order and sets no flag;
`fadd` sums by the fixed tree, `fmin` and `fmax` go from the lowest place to the highest, and each sets the flags of its steps; the result
is poisoned where any active lane's source is. -/
def Claims.Reductions : Prop := ∀ (s : State) (ct : Ctl) (k pos : Nat) (ps : List (Option LaneIn)) (d a : BitVec 7) (l : LaneIn),
  ps.length = 2 ^ k →
  let cs (ident : Nat) := ps.map (Claims.contributes s a ident)
  let p := Claims.poisoned s a ps
  let q := Claims.poisoned64 s a ps
  let gives (i : Instr) (v : Nat) : Prop := collOut i s k ps pos l = { d := d.toNat, vals := [⟨BitVec.ofNat 32 v, p⟩] }
  let givesF (i : Instr) (r : Nat × Fl) : Prop :=
    collOut i s k ps pos l = { d := d.toNat, vals := [⟨BitVec.ofNat 32 r.1, p⟩], fl := Claims.flags ct r.2 }
  let least (le : Nat → Nat → Prop) (l : List Nat) (v : Nat) : Prop := v ∈ l ∧ ∀ x ∈ l, le v x
  gives (.redAdd ct d a) (cs 0).sum ∧
  (∃ v, gives (.redMin ct d a) v ∧ least (fun x y => Claims.signed x ≤ Claims.signed y) (cs 0x7FFFFFFF) v) ∧
  (∃ v, gives (.redMax ct d a) v ∧ least (fun x y => Claims.signed y ≤ Claims.signed x) (cs 0x80000000) v) ∧
  (∃ v, gives (.redMinu ct d a) v ∧ least (· ≤ ·) (cs 0xFFFFFFFF) v) ∧
  (∃ v, gives (.redMaxu ct d a) v ∧ least (· ≥ ·) (cs 0) v) ∧
  (∃ v, gives (.redAnd ct d a) v ∧ ∀ b, b < 32 → (v.testBit b = true ↔ ∀ x ∈ cs 0xFFFFFFFF, x.testBit b = true)) ∧
  (∃ v, gives (.redOr ct d a) v ∧ ∀ b, b < 32 → (v.testBit b = true ↔ ∃ x ∈ cs 0, x.testBit b = true)) ∧
  (∃ v, gives (.redXor ct d a) v ∧ ∀ b, b < 32 → v.testBit b = decide (((cs 0).countP fun x => x.testBit b) % 2 = 1)) ∧
  givesF (.redFadd ct d a) (Claims.pairwise k (cs 0x80000000)) ∧
  givesF (.redFmin ct d a) (Claims.chain (fMinMax f32 false false) (cs 0x7FC00000)) ∧
  givesF (.redFmax ct d a) (Claims.chain (fMinMax f32 false true) (cs 0x7FC00000)) ∧
  (let v := (ps.map (Claims.contributes64 s a)).sum
   collOut (.redAdd64 ct d a) s k ps pos l = { d := d.toNat, vals := [⟨BitVec.ofNat 32 v, q⟩, ⟨BitVec.ofNat 32 (v / 2 ^ 32), q⟩] })

/-- R138, R139: the scans at place `pos`: from the first contribution through the lane's own, or, exclusive (`e` = 1), from the
identity through the one before it; poisoned where the prefix holds a poisoned contribution. The floating-point ones set the flags of the
steps up to the deckle's highest active lane. -/
def Claims.Scans : Prop := ∀ (s : State) (ct : Ctl) (k pos : Nat) (ps : List (Option LaneIn)) (d a : BitVec 7) (l : LaneIn) (e : BitVec 1),
  pos < ps.length →
  let n := if e = 1 then pos else pos + 1
  let cs (ident : Nat) := (if e = 1 then [ident] else []) ++ (ps.take n).map (Claims.contributes s a ident)
  let p := Claims.poisoned s a (ps.take n)
  let q := Claims.poisoned64 s a (ps.take n)
  let gives (i : Instr) (v : Nat) : Prop := collOut i s k ps pos l = { d := d.toNat, vals := [⟨BitVec.ofNat 32 v, p⟩] }
  let least (le : Nat → Nat → Prop) (l : List Nat) (v : Nat) : Prop := v ∈ l ∧ ∀ x ∈ l, le v x
  let last := (List.range ps.length).foldl (fun m j => match ps[j]? with | some (some y) => if y.active then j else m | _ => m) 0
  let all (ident : Nat) := (if e = 1 then [ident] else []) ++ (ps.take (if e = 1 then last else last + 1)).map (Claims.contributes s a ident)
  let givesF (i : Instr) (f : FVal → FVal → Nat × Fl) (ident : Nat) : Prop := collOut i s k ps pos l =
    { d := d.toNat, vals := [⟨BitVec.ofNat 32 (Claims.chain f (cs ident)).1, p⟩], fl := Claims.flags ct (Claims.chain f (all ident)).2 }
  gives (.scanAdd ct d a e) (cs 0).sum ∧
  (∃ v, gives (.scanMin ct d a e) v ∧ least (fun x y => Claims.signed x ≤ Claims.signed y) (cs 0x7FFFFFFF) v) ∧
  (∃ v, gives (.scanMax ct d a e) v ∧ least (fun x y => Claims.signed y ≤ Claims.signed x) (cs 0x80000000) v) ∧
  (∃ v, gives (.scanMinu ct d a e) v ∧ least (· ≤ ·) (cs 0xFFFFFFFF) v) ∧
  (∃ v, gives (.scanMaxu ct d a e) v ∧ least (· ≥ ·) (cs 0) v) ∧
  (∃ v, gives (.scanAnd ct d a e) v ∧ ∀ b, b < 32 → (v.testBit b = true ↔ ∀ x ∈ cs 0xFFFFFFFF, x.testBit b = true)) ∧
  (∃ v, gives (.scanOr ct d a e) v ∧ ∀ b, b < 32 → (v.testBit b = true ↔ ∃ x ∈ cs 0, x.testBit b = true)) ∧
  (∃ v, gives (.scanXor ct d a e) v ∧ ∀ b, b < 32 → v.testBit b = decide (((cs 0).countP fun x => x.testBit b) % 2 = 1)) ∧
  givesF (.scanFadd ct d a e) (fAdd f32 0 false) 0x80000000 ∧
  givesF (.scanFmin ct d a e) (fMinMax f32 false false) 0x7FC00000 ∧
  givesF (.scanFmax ct d a e) (fMinMax f32 false true) 0x7FC00000 ∧
  (let v := ((ps.take n).map (Claims.contributes64 s a)).sum
   collOut (.scanAdd64 ct d a e) s k ps pos l = { d := d.toNat, vals := [⟨BitVec.ofNat 32 v, q⟩, ⟨BitVec.ofNat 32 (v / 2 ^ 32), q⟩] })

/-- R135, R140, R141: `match` names the active lanes that hold the lane's own value, its result poisoned where any active lane's source is;
`part`, when every live lane of the sheaf waits at
it, sets the sheaf's deckle width if a lane is active. -/
def Claims.MatchAndPart : Prop :=
  (∀ (s : State) (ct : Ctl) (k pos : Nat) (ps : List (Option LaneIn)) (d a : BitVec 7) (l : LaneIn),
    let q := (ps.filterMap id).filter (·.active)
    let x (y : LaneIn) : Word := (State.readF { s with cur := y.t } a.toNat).v
    let z (y : LaneIn) : DWord := (State.readD { s with cur := y.t } a.toNat).1
    l ∈ q → (q.map (·.lid)).Nodup → (∀ y ∈ q, y.lid < 32) →
    let p := Claims.poisoned s a ps
    (∃ v : Word, collOut (.matchEq32 ct d a) s k ps pos l = { d := d.toNat, vals := [⟨v, p⟩] } ∧
      ∀ n, n < 32 → (v.getLsbD n = true ↔ ∃ y ∈ q, y.lid = n ∧ x y = x l)) ∧
    (∃ v : Word, collOut (.matchEq64 ct d a) s k ps pos l = { d := d.toNat, vals := [⟨v, Claims.poisoned64 s a ps⟩] } ∧
      ∀ n, n < 32 → (v.getLsbD n = true ↔ ∃ y ∈ q, y.lid = n ∧ z y = z l)) ∧
    (∃ v : Word, collOut (.matchLeader ct d a) s k ps pos l = { d := d.toNat, vals := [⟨v, p⟩] } ∧
      (∃ y ∈ q, y.lid = v.toNat ∧ x y = x l) ∧ ∀ y ∈ q, x y = x l → v.toNat ≤ y.lid)) ∧
  (∀ (s : State) (ct : Ctl) (w : BitVec 7),
    let i : Instr := .part ct w
    let s1 := Claims.arrived s i
    let g := gidOf s.cur
    let sid := sheafOf s.myGrp s.cur.t
    let all := s1.sheafLanes g sid
    s.myGrp.shadow ≠ 1 → s.cur.sh = false → guardReadable i s = true →
    Claims.meet s1 i all = true → all.any (fun l => l.t == s.cur) = true →
      exec i s = .next (s1.collComplete i 5 (all.map some)).endIssue ∧
      ((all.any (·.active)) = true →
        (AMap.getD ((s1.collComplete i 5 (all.map some)).grp g).sheaves sid {}).dk = w.toNat))

/-! ### Floating point (R52-R60, R121-R129) -/

/-- The real number a finite value stands for. -/
noncomputable def Claims.real : FVal → ℝ
  | .fin n m e => (if n then -1 else 1) * (m : ℝ) * (2 : ℝ) ^ e
  | _ => 0

/-- A real rounded to an integer by R43's mode: to nearest with ties to even, toward zero, down, up. -/
noncomputable def Claims.rint (rm : BitVec 2) (x : ℝ) : Int :=
  match rm.toNat with
  | 0 => if x - ⌊x⌋ < 1 / 2 then ⌊x⌋ else if 1 / 2 < x - ⌊x⌋ then ⌊x⌋ + 1 else if ⌊x⌋ % 2 = 0 then ⌊x⌋ else ⌊x⌋ + 1
  | 1 => if 0 ≤ x then ⌊x⌋ else ⌈x⌉
  | 2 => ⌊x⌋
  | _ => ⌈x⌉

/-- The nonzero real `x` rounded to multiples of 2^q. -/
noncomputable def Claims.atUnit (rm : BitVec 2) (x : ℝ) (q : Int) : ℝ := (Claims.rint rm (x / (2 : ℝ) ^ q) : ℝ) * (2 : ℝ) ^ q

/-- R54-R56: `r` is the encoding and the flags of the nonzero exact result `x`, rounded once to format `f`. -/
def Claims.Rounded (f : FFmt) (rm : BitVec 2) (fzo : Bool) (x : ℝ) (r : Nat × Fl) : Prop :=
  let q := Int.log 2 |x| - f.fw
  let z := Claims.atUnit rm x (max q f.emin)
  let w := Claims.atUnit rm x q
  let least : ℝ := (2 : ℝ) ^ (1 - f.bias)
  let neg : Prop := x < 0
  ((2 : ℝ) ^ (f.bias + 1) ≤ |z| → r.2 = 0x14 ∧
    ((rm = 0 ∨ (rm = 2 ∧ neg) ∨ (rm = 3 ∧ ¬neg)) → f.decode false r.1 = .inf (decide neg)) ∧
    ((rm = 1 ∨ (rm = 2 ∧ ¬neg) ∨ (rm = 3 ∧ neg)) → r.1 = f.maxBits (decide neg))) ∧
  (|z| < (2 : ℝ) ^ (f.bias + 1) → fzo = true → z ≠ 0 → |z| < least → r = (f.signBit (decide neg), 0x18)) ∧
  (|z| < (2 : ℝ) ^ (f.bias + 1) → (fzo = false ∨ z = 0 ∨ least ≤ |z|) →
    (∃ m e, f.decode false r.1 = .fin (decide neg) m e ∧ Claims.real (.fin (decide neg) m e) = z) ∧
    r.2 = (if z = x then 0 else 0x10) ||| (if z ≠ x ∧ |w| < least then 0x08 else 0)) ∧
  r.1 < 2 ^ f.width

/-- The four formats of arithmetic. -/
def Claims.formats : List FFmt := [f16, bf16, f32, f64]

/-- R54-R56: the one rounding of the model delivers the exact value (-1)^neg × m × 2^e as those rules say, in each of the four
formats and modes. -/
def Obligations.RoundingIsCorrect : Prop := ∀ f ∈ Claims.formats, ∀ (rm : BitVec 2) (fzo neg : Bool) (m : Nat) (e : Int),
  (m ≠ 0 → Claims.Rounded f rm fzo (Claims.real (.fin neg m e)) (f.round rm fzo neg m e false)) ∧
  (m = 0 → f.round rm fzo neg m e false = (f.signBit neg, 0))

/-- R50 to R52, R56: what the encodings of the four formats and of E5M2 stand for: sign, exponent x and fraction m. Under fzi a subnormal
reads as a zero of its sign. -/
def Claims.Encodings : Prop := ∀ f ∈ e5m2 :: Claims.formats, ∀ (fzi neg : Bool) (x m : Nat), x < 2 ^ f.ew → m < 2 ^ f.fw →
  let v := (if neg then 2 ^ (f.ew + f.fw) else 0) + x * 2 ^ f.fw + m
  let sg : ℝ := if neg then -1 else 1
  let reads (r : ℝ) : Prop := ∃ k e, f.decode fzi v = .fin neg k e ∧ Claims.real (.fin neg k e) = r
  (x = 2 ^ f.ew - 1 → m = 0 → f.decode fzi v = .inf neg) ∧
  (x = 2 ^ f.ew - 1 → m ≠ 0 → f.decode fzi v = .nan (decide (m < 2 ^ (f.fw - 1)))) ∧
  (x = 0 → reads (if fzi then 0 else sg * m * (2 : ℝ) ^ (1 - f.bias - f.fw))) ∧
  (x ≠ 0 → x ≠ 2 ^ f.ew - 1 → reads (sg * (2 ^ f.fw + m) * (2 : ℝ) ^ ((x : Int) - f.bias - f.fw)))

/-- R54, R55, R121, R122: sums, products, fused multiply-adds, quotients and square roots of finite operands of a format deliver
the exact result rounded once; an exact zero sum of opposite signs is +0, or -0 in mode down. -/
def Claims.FiniteArithmetic : Prop := ∀ f ∈ Claims.formats, ∀ (rm : BitVec 2) (fzi fzo : Bool) (u v w : Nat) (nu nv nw : Bool)
    (mu mv mw : Nat) (eu ev ew : Int),
  f.decode fzi u = .fin nu mu eu → f.decode fzi v = .fin nv mv ev → f.decode fzi w = .fin nw mw ew →
  let a := f.decode fzi u
  let b := f.decode fzi v
  let c := f.decode fzi w
  let x := Claims.real a
  let y := Claims.real b
  let z := Claims.real c
  (x + y ≠ 0 → Claims.Rounded f rm fzo (x + y) (fAdd f rm fzo a b)) ∧
  (x + y = 0 → fAdd f rm fzo a b = (f.signBit (if x = 0 ∧ nu = nv then nu else decide (rm = 2)), 0)) ∧
  (x * y ≠ 0 → Claims.Rounded f rm fzo (x * y) (fMul f rm fzo a b)) ∧
  (x * y = 0 → fMul f rm fzo a b = (f.signBit (nu != nv), 0)) ∧
  (x * y + z ≠ 0 → Claims.Rounded f rm fzo (x * y + z) (fFma f rm fzo a b c)) ∧
  (x * y + z = 0 → fFma f rm fzo a b c = (f.signBit (if z = 0 ∧ (nu != nv) = nw then nw else decide (rm = 2)), 0)) ∧
  (x ≠ 0 → y ≠ 0 → Claims.Rounded f rm fzo (x / y) (fDiv f rm fzo a b)) ∧
  (x = 0 → y ≠ 0 → fDiv f rm fzo a b = (f.signBit (nu != nv), 0)) ∧
  (0 < x → Claims.Rounded f rm fzo (Real.sqrt x) (fSqrt f rm fzo a))

/-- R122: the special operands, the rows in the manual's order (a row holds where no earlier one does). -/
def Claims.SpecialOperands : Prop := ∀ f ∈ Claims.formats, ∀ (rm : BitVec 2) (fzo : Bool) (a b c : FVal),
  let sub2 := fun x : FVal × FVal => fAdd f rm fzo x.1 x.2.neg
  let nanInvalid : Nat × Fl := (f.nan, 1)
  let nanQuiet : Nat × Fl := (f.nan, 0)
  let inf (n : Bool) : Nat × Fl := (f.infBits n, 0)
  let quiet2 : Prop := a.isSig = false ∧ b.isSig = false ∧ (a.isNan = true ∨ b.isNan = true)
  let zi : Prop := (a.isZero = true ∧ ∃ n, b = .inf n) ∨ ((∃ n, a = .inf n) ∧ b.isZero = true)
  -- a signalling NaN
  (a.isSig = true ∨ b.isSig = true → fAdd f rm fzo a b = nanInvalid ∧ sub2 (a, b) = nanInvalid ∧ fMul f rm fzo a b = nanInvalid ∧
    fDiv f rm fzo a b = nanInvalid) ∧
  (a.isSig = true ∨ b.isSig = true ∨ c.isSig = true → fFma f rm fzo a b c = nanInvalid) ∧
  (a.isSig = true → fSqrt f rm fzo a = nanInvalid) ∧
  -- a zero times an infinity in a fused multiply-add, whatever d
  (zi → fFma f rm fzo a b c = nanInvalid) ∧
  -- a quiet NaN
  (quiet2 → fAdd f rm fzo a b = nanQuiet ∧ sub2 (a, b) = nanQuiet ∧ fMul f rm fzo a b = nanQuiet ∧ fDiv f rm fzo a b = nanQuiet) ∧
  (a.isSig = false → b.isSig = false → c.isSig = false → ¬zi → (a.isNan = true ∨ b.isNan = true ∨ c.isNan = true) →
    fFma f rm fzo a b c = nanQuiet) ∧
  (a = .nan false → fSqrt f rm fzo a = nanQuiet) ∧
  -- infinities
  (∀ n k, fAdd f rm fzo (.inf n) (.inf k) = if n = k then inf n else nanInvalid) ∧
  (∀ n k m e, fAdd f rm fzo (.inf n) (.fin k m e) = inf n ∧ fAdd f rm fzo (.fin k m e) (.inf n) = inf n) ∧
  (zi → fMul f rm fzo a b = nanInvalid) ∧
  (∀ n k, fMul f rm fzo (.inf n) (.inf k) = inf (n != k)) ∧
  (∀ n k m e, m ≠ 0 → fMul f rm fzo (.inf n) (.fin k m e) = inf (n != k) ∧ fMul f rm fzo (.fin k m e) (.inf n) = inf (n != k)) ∧
  (∀ n k, fDiv f rm fzo (.inf n) (.inf k) = nanInvalid) ∧
  (∀ n k m e, fDiv f rm fzo (.inf n) (.fin k m e) = inf (n != k) ∧ fDiv f rm fzo (.fin k m e) (.inf n) = (f.signBit (n != k), 0)) ∧
  (∀ n k e e', fDiv f rm fzo (.fin n 0 e) (.fin k 0 e') = nanInvalid) ∧
  (∀ n k m e e', m ≠ 0 → fDiv f rm fzo (.fin n m e) (.fin k 0 e') = (f.infBits (n != k), 2)) ∧
  (∀ n e, fSqrt f rm fzo (.fin n 0 e) = (f.signBit n, 0)) ∧
  (∀ m e, m ≠ 0 → fSqrt f rm fzo (.fin true m e) = nanInvalid) ∧
  fSqrt f rm fzo (.inf true) = nanInvalid ∧ fSqrt f rm fzo (.inf false) = inf false ∧
  (∀ n k m e j l u, fFma f rm fzo (.fin n m e) (.fin k l u) (.inf j) = inf j) ∧
  (∀ n k j, fFma f rm fzo (.inf n) (.inf k) (.inf j) = if j = (n != k) then inf j else nanInvalid) ∧
  (∀ n k m e j, m ≠ 0 → fFma f rm fzo (.inf n) (.fin k m e) (.inf j) = if j = (n != k) then inf j else nanInvalid) ∧
  (∀ n k m e j l u, m ≠ 0 → fFma f rm fzo (.inf n) (.fin k m e) (.fin j l u) = inf (n != k))

/-- One register from binary32 operands: `r` holds the encoding and the flags; `may`: the instruction can set a flag (R111). -/
def Claims.GivesF (i : Instr) (s : State) (lat : Nat) (d : BitVec 7) (src : List (BitVec 7)) (r : Nat × Fl)
    (may : Bool := Claims.may (ctlOf i)) : Prop :=
  issues i s = true → Completes i s
    (s.withResult lat d.toNat [⟨BitVec.ofNat 32 r.1, src.any fun a => (s.flushed.readF a.toNat).p⟩] (Claims.flags (ctlOf i) r.2) may)

/-- One pair from register pairs. -/
def Claims.GivesD (i : Instr) (s : State) (d : BitVec 7) (src : List (BitVec 7)) (r : Nat × Fl)
    (may : Bool := Claims.may (ctlOf i)) : Prop :=
  let p := src.any fun a => (s.flushed.readD a.toNat).2
  issues i s = true → Completes i s (s.withResult 0 d.toNat [⟨BitVec.ofNat 32 r.1, p⟩, ⟨BitVec.ofNat 32 (r.1 / 2 ^ 32), p⟩]
    (Claims.flags (ctlOf i) r.2) may)

/-- A change of sign sets flags only where fzo alone flushes a subnormal (R124, R125). -/
def Claims.flushes (ct : Ctl) : Bool := Claims.may ct && ct.fzo && !ct.fzi

/-- The mode of rounding an instruction uses (R43, R54). -/
def Claims.mode (ct : Ctl) : BitVec 2 := match ct.pfx with | some p => p.rm | none => 0

/-- A register's value as binary32, a subnormal read as a zero of its sign under fzi (R56). -/
def Claims.single (s : State) (ct : Ctl) (a : BitVec 7) : FVal := f32.decode ct.fzi (s.flushed.readF a.toNat).v.toNat

/-- A register pair's value as binary64. -/
def Claims.double (s : State) (ct : Ctl) (a : BitVec 7) : FVal := f64.decode ct.fzi (s.flushed.readD a.toNat).1.toNat

/-- Element `k` of a packed register. -/
def Claims.half (s : State) (ct : Ctl) (g : FFmt) (k : Nat) (a : BitVec 7) : FVal :=
  g.decode ct.fzi ((s.flushed.readF a.toNat).v.toNat / 2 ^ (16 * k) % 2 ^ 16)

/-- R39, R121, R125, R126: the FP32 instructions complete: each gives its destination the result of its operation (whose value and flags
the other statements on floating point say), with its latency, the poison of its sources and its flags. -/
def Claims.SinglePrecision : Prop := ∀ (s : State) (ct : Ctl) (d a b : BitVec 7),
  let x := Claims.single s ct a
  let y := Claims.single s ct b
  let z := Claims.single s ct d
  let rm := Claims.mode ct
  Claims.GivesF (.fadd ct d a b) s 4 d [a, b] (fAdd f32 rm ct.fzo x y) ∧
  Claims.GivesF (.fsub ct d a b) s 4 d [a, b] (fAdd f32 rm ct.fzo x y.neg) ∧
  Claims.GivesF (.fmul ct d a b) s 4 d [a, b] (fMul f32 rm ct.fzo x y) ∧
  Claims.GivesF (.fma ct d a b) s 4 d [a, b, d] (fFma f32 rm ct.fzo x y z) ∧
  Claims.GivesF (.fnma ct d a b) s 4 d [a, b, d] (fFma f32 rm ct.fzo x.neg y z) ∧
  Claims.GivesF (.fmin ct d a b) s 4 d [a, b] (fMinMax f32 ct.fzo false x y) ∧
  Claims.GivesF (.fmax ct d a b) s 4 d [a, b] (fMinMax f32 ct.fzo true x y) ∧
  Claims.GivesF (.fdiv ct d a b) s 0 d [a, b] (fDiv f32 rm ct.fzo x y) ∧
  Claims.GivesF (.fsqrt ct d a) s 0 d [a] (fSqrt f32 rm ct.fzo x) ∧
  Claims.GivesF (.fabs ct d a) s 4 d [a] (fSign f32 ct.fzo false x) (Claims.flushes ct) ∧
  Claims.GivesF (.fneg ct d a) s 4 d [a] (fSign f32 ct.fzo true x) (Claims.flushes ct) ∧
  Claims.GivesF (.ffloor ct d a) s 4 d [a] (fIntegral f32 2 false x) ∧
  Claims.GivesF (.fceil ct d a) s 4 d [a] (fIntegral f32 3 false x) ∧
  Claims.GivesF (.ftrunc ct d a) s 4 d [a] (fIntegral f32 1 false x) ∧
  Claims.GivesF (.frint ct d a) s 4 d [a] (fIntegral f32 rm true x) ∧
  Claims.GivesF (.fclass ct d a) s 4 d [a] (match x with
    | .nan sg => if sg then 2 ^ 8 else 2 ^ 9
    | .inf n => if n then 2 ^ 0 else 2 ^ 7
    | .fin n m _ => if m = 0 then (if n then 2 ^ 3 else 2 ^ 4) else if m < 2 ^ 23 then (if n then 2 ^ 2 else 2 ^ 5)
        else (if n then 2 ^ 1 else 2 ^ 6), 0) false

/-- R56, R123 to R125: the lesser and the greater, the functions that round to an integer, and a change of sign: what `fMinMax`, `fIntegral`
and `fSign` deliver. Under fzo a subnormal result of the first and the last is a zero of its sign with underflow and inexact. -/
def Claims.OrderAndIntegral : Prop := ∀ f ∈ Claims.formats, ∀ (fzi mx flip : Bool) (rm : BitVec 2) (u v : Nat),
  u < 2 ^ f.width → v < 2 ^ f.width →
  let a := f.decode fzi u
  let b := f.decode fzi v
  let inv : Fl := if a.isSig = true ∨ b.isSig = true then 1 else 0
  let r := fMinMax f false mx a b
  let c := fSign f false flip a
  let flushed (q : Nat × Fl) : Nat × Fl :=
    let x := Claims.real (f.decode false q.1)
    if x ≠ 0 ∧ |x| < (2 : ℝ) ^ (1 - f.bias) then (f.signBit (decide (x < 0)), q.2 ||| 0x18) else q
  fMinMax f true mx a b = flushed r ∧ fSign f true flip a = flushed c ∧
  (∀ sg, a = .nan sg → c = (f.nan, 0)) ∧
  (∀ n, a = .inf n → c = (f.infBits (flip && !n), 0)) ∧
  (∀ n m e, a = .fin n m e → f.decode false c.1 = .fin (flip && !n) m e ∧ c.2 = 0) ∧
  (a.isNan = true → b.isNan = true → r = (f.nan, inv)) ∧
  (a.isNan = true → b.isNan = false → f.decode false r.1 = b ∧ r.2 = inv) ∧
  (a.isNan = false → b.isNan = true → f.decode false r.1 = a ∧ r.2 = inv) ∧
  (∀ n m e k l g, a = .fin n m e → b = .fin k l g → r.2 = 0 ∧ (f.decode false r.1 = a ∨ f.decode false r.1 = b) ∧
    (Claims.real a < Claims.real b → f.decode false r.1 = if mx then b else a) ∧
    (Claims.real b < Claims.real a → f.decode false r.1 = if mx then a else b) ∧
    (Claims.real a = 0 → Claims.real b = 0 → (f.decode false r.1).isNeg = if mx then n && k else n || k)) ∧
  (∀ n, a = .inf n → b.isNan = false → f.decode false r.1 = (if n = mx then b else a) ∧ r.2 = 0) ∧
  (∀ n, b = .inf n → a.isNan = false → f.decode false r.1 = (if n = mx then a else b) ∧ r.2 = 0) ∧
  (∀ n m e, a = .fin n m e →
    let q := fIntegral f rm true a
    let z : ℝ := Claims.rint rm (Claims.real a)
    Claims.real (f.decode false q.1) = z ∧ (f.decode false q.1).isNeg = n ∧ q.2 = (if z = Claims.real a then 0 else 0x10) ∧
      fIntegral f rm false a = (q.1, 0)) ∧
  (∀ n inx, a = .inf n → fIntegral f rm inx a = (f.infBits n, 0)) ∧
  (∀ sg inx, a = .nan sg → fIntegral f rm inx a = (f.nan, if sg then 1 else 0))

/-- R53, R121, R124: the packed and the double-precision instructions complete: each with the result of its operation. -/
def Claims.PackedAndDouble : Prop := ∀ (s : State) (ct : Ctl) (d a b : BitVec 7),
  let rm := Claims.mode ct
  let both (r : Nat → Nat × Fl) : Nat × Fl := ((r 0).1 + 2 ^ 16 * (r 1).1, (r 0).2 ||| (r 1).2)
  let h := Claims.half s ct f16
  let g := Claims.half s ct bf16
  let x := Claims.double s ct a
  let y := Claims.double s ct b
  let z := Claims.double s ct d
  Claims.GivesF (.hfma2 ct d a b) s 4 d [a, b, d] (both fun k => fFma f16 rm ct.fzo (h k a) (h k b) (h k d)) ∧
  Claims.GivesF (.hadd2 ct d a b) s 4 d [a, b] (both fun k => fAdd f16 rm ct.fzo (h k a) (h k b)) ∧
  Claims.GivesF (.hmul2 ct d a b) s 4 d [a, b] (both fun k => fMul f16 rm ct.fzo (h k a) (h k b)) ∧
  Claims.GivesF (.bfma2 ct d a b) s 4 d [a, b, d] (both fun k => fFma bf16 rm ct.fzo (g k a) (g k b) (g k d)) ∧
  Claims.GivesD (.dadd ct d a b) s d [a, b] (fAdd f64 rm ct.fzo x y) ∧
  Claims.GivesD (.dmul ct d a b) s d [a, b] (fMul f64 rm ct.fzo x y) ∧
  Claims.GivesD (.dfma ct d a b) s d [a, b, d] (fFma f64 rm ct.fzo x y z) ∧
  Claims.GivesD (.dsub ct d a) s d [d, a] (fAdd f64 rm ct.fzo z x.neg) ∧
  Claims.GivesD (.dmin ct d a) s d [d, a] (fMinMax f64 ct.fzo false z x) ∧
  Claims.GivesD (.dmax ct d a) s d [d, a] (fMinMax f64 ct.fzo true z x) ∧
  Claims.GivesD (.ddiv ct d a) s d [d, a] (fDiv f64 rm ct.fzo z x) ∧
  Claims.GivesD (.dsqrt ct d a) s d [a] (fSqrt f64 rm ct.fzo x) ∧
  Claims.GivesD (.dneg ct d a) s d [a] (fSign f64 ct.fzo true x) (Claims.flushes ct) ∧
  Claims.GivesD (.dabs ct d a) s d [a] (fSign f64 ct.fzo false x) (Claims.flushes ct)

/-- R58: a floating-point value to a 32-bit integer: rounded first, then held to the range. -/
def Claims.ToInteger : Prop := ∀ (rm : BitVec 2) (sgn n : Bool) (m : Nat) (e : Int),
  let x := Claims.real (.fin n m e)
  let v := Claims.rint rm x
  let lo : Int := if sgn then -2 ^ 31 else 0
  let hi : Int := if sgn then 2 ^ 31 - 1 else 2 ^ 32 - 1
  let r := fToInt rm sgn (.fin n m e)
  (lo ≤ v → v ≤ hi → BitVec.ofNat 32 r.1 = BitVec.ofInt 32 v ∧ r.2 = if (v : ℝ) = x then 0 else 0x10) ∧
  (hi < v → BitVec.ofNat 32 r.1 = BitVec.ofInt 32 hi ∧ r.2 = 1) ∧
  (v < lo → BitVec.ofNat 32 r.1 = BitVec.ofInt 32 lo ∧ r.2 = 1) ∧
  (∀ k, fToInt rm sgn (.inf k) = ((BitVec.ofInt 32 (if k then lo else hi)).toNat, 1)) ∧
  (∀ sg, fToInt rm sgn (.nan sg) = (0, 1))

/-- R58-R60, R128: the conversions complete. Those from an integer, and between formats, deliver the value rounded once; the ones to
four bytes take the quad from x[a] on, byte i from x[a+i]; a 32-bit integer is exact in binary64. -/
def Claims.Conversions : Prop := ∀ (s : State) (ct : Ctl) (d a : BitVec 7) (n : BitVec 2),
  let rm := Claims.mode ct
  let v := (s.flushed.readF a.toNat).v
  let x := Claims.single s ct a
  let y := Claims.double s ct a
  let conv (g : FFmt) (rm : BitVec 2) (u : FVal) : Nat × Fl := match u with
    | .nan sg => (g.nan, if sg then 1 else 0)
    | .inf k => (g.infBits k, 0)
    | .fin k m e => g.round rm ct.fzo k m e false
  let byte (k : Nat) : Nat := v.toNat / 2 ^ (8 * k) % 2 ^ 8
  let p := (s.flushed.readF a.toNat).p
  let quad (f : FVal → Nat × Fl) (i : Instr) : Prop := issues i s = true →
    let e (k : Nat) : Reg := (s.flushed.readN a.toNat 4).getD k {}
    let r (k : Nat) : Nat × Fl := f (f32.decode ct.fzi (e k).v.toNat)
    Completes i s (s.withResult 4 d.toNat
      [⟨BitVec.ofNat 32 ((r 0).1 % 256 + 2 ^ 8 * ((r 1).1 % 256) + 2 ^ 16 * ((r 2).1 % 256) + 2 ^ 24 * ((r 3).1 % 256)),
        (e 0).p || (e 1).p || (e 2).p || (e 3).p⟩]
      (Claims.flags ct ((r 0).2 ||| (r 1).2 ||| (r 2).2 ||| (r 3).2)) (Claims.may ct))
  Claims.GivesF (.fcvtF32I32 ct d a) s 4 d [a] (f32.round rm ct.fzo v.msb v.toInt.natAbs 0 false) ∧
  Claims.GivesF (.fcvtF32Ui32 ct d a) s 4 d [a] (f32.round rm ct.fzo false v.toNat 0 false) ∧
  Claims.GivesF (.fcvtI32F32 ct d a) s 4 d [a] (fToInt 1 true x) ∧
  Claims.GivesF (.fcvtI32rF32 ct d a) s 4 d [a] (fToInt rm true x) ∧
  Claims.GivesF (.fcvtUi32F32 ct d a) s 4 d [a] (fToInt 1 false x) ∧
  Claims.GivesF (.fcvtF16F32 ct d a) s 4 d [a] (conv f16 rm x) ∧
  Claims.GivesF (.fcvtF32F16 ct d a) s 4 d [a] (conv f32 0 (f16.decode ct.fzi (v.toNat % 2 ^ 16))) ∧
  Claims.GivesF (.fcvtBf16F32 ct d a) s 4 d [a] (conv bf16 rm x) ∧
  Claims.GivesF (.fcvtF32Bf16 ct d a) s 4 d [a] (conv f32 0 (bf16.decode ct.fzi (v.toNat % 2 ^ 16))) ∧
  quad (fTo8 e4m3 true rm) (.fcvtE4m3F32 ct d a) ∧
  quad (fTo8 e4m3 false rm) (.fcvtE4m3nF32 ct d a) ∧
  quad (fTo8 e5m2 true rm) (.fcvtE5m2F32 ct d a) ∧
  Claims.GivesF (.fcvtF32E4m3 ct d a n) s 4 d [a] ((conv f32 0 (decodeE4m3 (byte n.toNat))).1, 0) false ∧
  Claims.GivesF (.fcvtF32E5m2 ct d a n) s 4 d [a] ((conv f32 0 (e5m2.decode false (byte n.toNat))).1, 0) false ∧
  (issues (.fcvtF32F64 ct d a) s = true → Completes (.fcvtF32F64 ct d a) s (s.withResult 0 d.toNat
    [⟨BitVec.ofNat 32 (conv f32 rm y).1, (s.flushed.readD a.toNat).2⟩] (Claims.flags ct (conv f32 rm y).2) (Claims.may ct))) ∧
  (issues (.fcvtI32F64 ct d a) s = true → Completes (.fcvtI32F64 ct d a) s (s.withResult 0 d.toNat
    [⟨BitVec.ofNat 32 (fToInt 1 true y).1, (s.flushed.readD a.toNat).2⟩] (Claims.flags ct (fToInt 1 true y).2) (Claims.may ct))) ∧
  (issues (.fcvtF64F32 ct d a) s = true → Completes (.fcvtF64F32 ct d a) s (s.withResult 0 d.toNat
    [⟨BitVec.ofNat 32 (conv f64 0 x).1, p⟩, ⟨BitVec.ofNat 32 ((conv f64 0 x).1 / 2 ^ 32), p⟩] (Claims.flags ct (conv f64 0 x).2) (Claims.may ct))) ∧
  (let r := f64.round 0 ct.fzo v.msb v.toInt.natAbs 0 false
   Claims.real (f64.decode false r.1) = v.toInt ∧ r.2 = 0 ∧
    (issues (.fcvtF64I32 ct d a) s = true → Completes (.fcvtF64I32 ct d a) s (s.withResult 0 d.toNat
      [⟨BitVec.ofNat 32 r.1, p⟩, ⟨BitVec.ofNat 32 (r.1 / 2 ^ 32), p⟩] 0)))

/-- R51: the value of an E4M3 byte: sign, exponent x, fraction m; no infinity, and one NaN of each sign. -/
def Claims.E4m3Values : Prop := ∀ (neg : Bool) (x m : Nat), x < 16 → m < 8 →
  let a := decodeE4m3 ((if neg then 128 else 0) + 8 * x + m)
  let reads (r : ℝ) : Prop := ∃ k e, a = .fin neg k e ∧ Claims.real (.fin neg k e) = (if neg then -r else r)
  (x = 15 → m = 7 → a = .nan false) ∧
  (x = 0 → reads (m * (2 : ℝ) ^ (-9 : Int))) ∧
  (x ≠ 0 → (x ≠ 15 ∨ m ≠ 7) → reads ((8 + m) * (2 : ℝ) ^ ((x : Int) - 10)))

/-- R60: an element converted to E4M3 (saturating or not) or to E5M2 (saturating). -/
def Claims.ToEightBits : Prop := ∀ (rm : BitVec 2) (sat n : Bool) (m : Nat) (e : Int) (g : FFmt),
  (g = e4m3 ∨ (g = e5m2 ∧ sat = true)) →
  let most : Nat := if g = e4m3 then 0x7E else 0x7B
  let sg : Nat := if n then 0x80 else 0
  let value (b : Nat) : ℝ := if g = e4m3 then Claims.real (decodeE4m3 b) else Claims.real (e5m2.decode false b)
  let x := Claims.real (.fin n m e)
  let q := Int.log 2 |x| - g.fw
  let z := Claims.atUnit rm x (max q g.emin)
  let w := Claims.atUnit rm x q
  let r := fTo8 g sat rm (.fin n m e)
  (m = 0 → r = (sg, 0)) ∧
  (m ≠ 0 → |z| ≤ value most → value r.1 = z ∧ r.1 / 2 ^ 7 = sg / 2 ^ 7 ∧ r.1 < 256 ∧
    r.2 = (if z = x then 0 else 0x10) ||| (if z ≠ x ∧ |w| < (2 : ℝ) ^ (1 - g.bias) then 0x08 else 0)) ∧
  (m ≠ 0 → value most < |z| → r = (if sat then sg + most else 0x7F, 0x14)) ∧
  (∀ k, fTo8 g sat rm (.inf k) = if sat then ((if k then 0x80 else 0) + most, 0x14) else (0x7F, 1)) ∧
  (∀ s, fTo8 g sat rm (.nan s) = (if g = e4m3 then 0x7F else 0x7E, if s then 1 else 0))

/-- The function of R127 with code `fn`. -/
noncomputable def Claims.function (fn : Nat) (x : ℝ) : ℝ :=
  match fn with
  | 2 => 1 / x
  | 3 => 1 / Real.sqrt x
  | 4 => (2 : ℝ) ^ x
  | 5 => Real.logb 2 x
  | 6 => Real.sin (Real.pi * x)
  | 7 => Real.cos (Real.pi * x)
  | _ => Real.tanh x

/-- R39, R110, R127: the special functions complete: each gives its destination its function of the source, with the source's poison. -/
def Claims.FunctionForms : Prop := ∀ (s : State) (ct : Ctl) (d a : BitVec 7),
  let v := (s.flushed.readF a.toNat).v
  Claims.GivesF (.frcp ct d a) s 0 d [a] (fSpecial 2 ct.fzi ct.fzo v) ∧
  Claims.GivesF (.frsq ct d a) s 0 d [a] (fSpecial 3 ct.fzi ct.fzo v) ∧
  Claims.GivesF (.fexp2 ct d a) s 0 d [a] (fSpecial 4 ct.fzi ct.fzo v) ∧
  Claims.GivesF (.flog2 ct d a) s 0 d [a] (fSpecial 5 ct.fzi ct.fzo v) ∧
  Claims.GivesF (.fsinpi ct d a) s 0 d [a] (fSpecial 6 ct.fzi ct.fzo v) ∧
  Claims.GivesF (.fcospi ct d a) s 0 d [a] (fSpecial 7 ct.fzi ct.fzo v) ∧
  Claims.GivesF (.ftanh ct d a) s 0 d [a] (fSpecial 8 ct.fzi ct.fzo v)

/-- R127: the exact special results on finite values: `r` for the encoding and the flags. Where the table names a value of the function,
the result stands for exactly that value and sets no flag. -/
def Claims.ExactResults : Prop := ∀ (w : Word) (fzi n : Bool) (m : Nat) (e k : Int), f32.decode fzi w.toNat = .fin n m e →
  let x := Claims.real (.fin n m e)
  let f (fn : Nat) : Nat × Fl := fSpecial fn fzi false w
  let is (r : Nat × Fl) (neg : Bool) (y : ℝ) : Prop := r.2 = 0 ∧ ∃ j l, f32.decode false r.1 = .fin neg j l ∧ Claims.real (.fin neg j l) = y
  let one (neg : Bool) : Nat × Fl := (f32.signBit neg + 0x3F800000, 0)
  (x ≠ 0 → (2 ^ 24 - 1) * (2 : ℝ) ^ (104 : Int) < |1 / x| → f 2 = (f32.infBits n, 0x14)) ∧
  (|x| = (2 : ℝ) ^ k → -127 ≤ k → is (f 2) n (1 / x)) ∧
  (x < 0 → f 3 = (0x7FC00000, 1)) ∧
  (x = (2 : ℝ) ^ (2 * k) → is (f 3) false ((2 : ℝ) ^ (-k))) ∧
  (x = k → -149 ≤ k → k ≤ 127 → is (f 4) false ((2 : ℝ) ^ k)) ∧
  (128 ≤ x → f 4 = (f32.infBits false, 0x14)) ∧
  (x < -150 → f 4 = (0, 0x18)) ∧
  (x < 0 → f 5 = (0x7FC00000, 1)) ∧
  (x = (2 : ℝ) ^ k → is (f 5) (decide (k < 0)) k) ∧
  (x = k → f 6 = (f32.signBit n, 0) ∧ f 7 = one (decide (k % 2 ≠ 0))) ∧
  (x = k + 1 / 2 → f 6 = one (decide (k % 2 ≠ 0)) ∧ f 7 = (0, 0)) ∧
  (9 ≤ |x| → f 8 = one n)

/-- R56, R127: the special functions. On every finite input whose exact result is finite and normal the result lies within its bound, with
no flag; zeros, infinities and NaNs give the table's results; under fzo a subnormal result is a zero with underflow and inexact. -/
def Claims.SpecialFunctions : Prop :=
  (∀ fn ∈ [2, 3, 4, 5, 6, 7, 8], ∀ (w : Word) (fzi : Bool),
    let x := f32.decode fzi w.toNat
    let y := Claims.function fn (Claims.real x)
    (∃ n m e, x = .fin n m e) → (fn = 3 ∨ fn = 5 → 0 < Claims.real x) → (fn = 2 → Claims.real x ≠ 0) →
      (2 : ℝ) ^ (-126 : Int) ≤ |y| → |y| ≤ (2 ^ 24 - 1) * (2 : ℝ) ^ (104 : Int) →
      let r := fSpecial fn fzi false w
      ∃ n m e, f32.decode false r.1 = .fin n m e ∧ r.2 = 0 ∧
        |Claims.real (.fin n m e) - y| ≤ (if fn = 2 then 1 else 2) * (2 : ℝ) ^ (max (Int.log 2 |y|) (-126) - 23)) ∧
  (∀ fn ∈ [2, 3, 4, 5, 6, 7, 8], ∀ (w : Word) (fzi : Bool),
    let r := fSpecial fn fzi false w
    fSpecial fn fzi true w = if r.1 / 2 ^ 23 % 2 ^ 8 = 0 ∧ r.1 % 2 ^ 23 ≠ 0 then (f32.signBit (decide (r.1 / 2 ^ 31 % 2 = 1)), r.2 ||| 0x18) else r) ∧
  (∀ fn ∈ [2, 3, 4, 5, 6, 7, 8], ∀ (n fzi : Bool), fSpecial fn fzi false (BitVec.ofNat 32 (f32.signBit n)) =
    (match fn with
      | 2 => (f32.infBits n, 2)
      | 3 => (f32.infBits n, 2)
      | 4 => (0x3F800000, 0)
      | 5 => (f32.infBits true, 2)
      | 7 => (0x3F800000, 0)
      | _ => (f32.signBit n, 0))) ∧
  (∀ fn ∈ [2, 3, 4, 5, 6, 7, 8], ∀ (n fzi : Bool), fSpecial fn fzi false (BitVec.ofNat 32 (f32.infBits n)) =
    (match fn with
      | 2 => (f32.signBit n, 0)
      | 3 => if n then (0x7FC00000, 1) else (0, 0)
      | 4 => if n then (0, 0) else (f32.infBits false, 0)
      | 5 => if n then (0x7FC00000, 1) else (f32.infBits false, 0)
      | 6 => (0x7FC00000, 1)
      | 7 => (0x7FC00000, 1)
      | _ => (f32.signBit n + 0x3F800000, 0))) ∧
  (∀ fn ∈ [2, 3, 4, 5, 6, 7, 8], ∀ (w : Word) (fzi : Bool), 2 ^ 23 * 255 < w.toNat % 2 ^ 31 →
    fSpecial fn fzi false w = (0x7FC00000, if w.toNat / 2 ^ 22 % 2 = 0 then 1 else 0))

/-- R129: `fcmp`; its flags and its predicate are readable after 4 cycles; a poisoned source is consumed (R110). -/
def Claims.FloatCompare : Prop := ∀ (s : State) (ct : Ctl) (q : BitVec 4) (c : BitVec 3) (a b : BitVec 7),
  let x := Claims.single s ct a
  let y := Claims.single s ct b
  let i : Instr := .fcmp ct q c a b
  let nan : Prop := x.isNan = true ∨ y.isNan = true
  let sig : Fl := if x.isSig = true ∨ y.isSig = true then 1 else 0
  let any : Fl := if nan then 1 else 0
  let ext (v : FVal) : EReal := match v with
    | .inf true => ⊥
    | .inf false => ⊤
    | _ => ((Claims.real v : ℝ) : EReal)
  let t : Prop := match c.toNat with
    | 0 => ¬nan ∧ ext x = ext y
    | 1 => nan ∨ ext x ≠ ext y
    | 2 => ¬nan ∧ ext x < ext y
    | 3 => ¬nan ∧ ext x ≤ ext y
    | 4 => ¬nan ∧ ext x > ext y
    | 5 => ¬nan ∧ ext x ≥ ext y
    | 6 => nan
    | _ => ¬nan
  let fl := if 2 ≤ c.toNat ∧ c.toNat ≤ 5 then any else sig
  issues i s = true →
    ((s.flushed.readF a.toNat).p = false → (s.flushed.readF b.toNat).p = false → ∀ r : Bool, (r = true ↔ t) →
      Completes i s (s.withPred 4 q.toNat r (Claims.flags ct fl) (Claims.may ct))) ∧
    ((s.flushed.readF a.toNat).p = true ∨ (s.flushed.readF b.toNat).p = true → Claims.Consumes i s)

/-! ### Memory accesses (R171-R192, R239-R253, R263-R269, R308-R312) -/

/-- Nothing but a core's views and translation buffers, a cluster's, and what reads of a table had brought has changed: what a read that is
answered at once does. -/
def Claims.Kept (s s1 : State) : Prop := { s1 with cores := s.cores, clusters := s.clusters, syncBuf := s.syncBuf } = s

/-- R178, R192, R242, R310 to R312: translating an address, and reading bytes for an instruction where they can be read at once, changes
nothing but translation buffers, what the core has seen (its views) and what its walk had read: no byte of memory, no thread, no access. A
fetch may bring a free value (log entry 33). -/
def Claims.ReadsChangeNothing : Prop := ∀ (s s1 : State) (va n kind k fa : Nat) (need : BitVec 3) (bs : List (Byte × Bool)),
  (s.xlate s.space va need = .ok s1 fa → Claims.Kept s s1) ∧
  (s.readPiece va n kind need = .ok s1 bs → bs.length = n ∧
    (need.getLsbD 2 = false → Claims.Kept s s1) ∧ (need.getLsbD 2 = true → Claims.Kept s { s1 with freeCtr := s.freeCtr })) ∧
  (State.readVA k s va = .ok s1 bs → Claims.Kept s s1 ∧ bs.length = 16 * k)

/-- R309, R310: translation through a translation-buffer entry, whose page is 2^size bytes, and its permission check: bit 0 of `need`
read, 1 write, 2 fetch, and permission bit 3 for system mode alone. What the permissions forbid raises protection (0x0D). -/
def Claims.TranslationByEntry : Prop := ∀ (s : State) (va : Nat) (need : BitVec 3) (e : TlbE),
  s.vaultMap s.space va = none → tlbHit (s.core (coreOf s.cur)).tlb s.myGrp.ctx va = some e →
  let allowed : Prop := (∀ b, b < 3 → need.getLsbD b = true → e.perm.getLsbD b = true) ∧ (e.perm.getLsbD 3 = true → s.myGrp.sys = true)
  (allowed → s.xlate s.space va need = .ok s (e.fa + va % 2 ^ e.size)) ∧
  (¬allowed → s.xlate s.space va need = .fault 0x0D) ∧
  (e.ctx = s.myGrp.ctx ∧ e.va = va / 2 ^ e.size * 2 ^ e.size)

/-- R309 to R311: a walk of three levels through tables that can be read at once: each entry at the table's base plus 8 times the
index of its level, the leaf's address bits and the low 16 bits of the address giving the fabric address; an entry that is not valid is a
miss at its level, a poisoned one, or one whose read is lost, poison, a malformed one protection. A walk that has ended keeps nothing it has
read. -/
def Claims.PageWalk : Prop := ∀ (s s0 s1 s2 : State) (sp : Space) (va base e0 e1 e2 : Nat) (r0 r1 r2 : Route) (b0 b1 b2 : List (Byte × Bool)),
  let q : Space := { sp with path := 0 }
  let i (lo : Nat) : Nat := va / 2 ^ lo % 2 ^ 13
  let table (e : Nat) : Nat := e / 2 ^ 16 % 2 ^ 48 * 2 ^ 16
  let good (e : Nat) : Prop := e % 2 = 1 ∧ e / 2 ^ 9 % 2 ^ 7 = 0 ∧ e / 2 ^ 2 % 2 ^ 3 = 0
  let inner (e : Nat) : Prop := good e ∧ e / 2 % 2 = 0 ∧ e / 2 ^ 5 % 2 ^ 4 = 0
  let leaf (e : Nat) : Prop := good e ∧ e / 2 % 2 = 1
  let a0 := base + 8 * i 42
  let a1 := table e0 + 8 * i 29
  let a2 := table e1 + 8 * i 16
  let o := sp.owner
  (s.homeRoute sp.core.die a0 = some r0 → ∀ c, s.syncRead q r0 a0 8 = .fault c →
    State.walk sp va 3 s base = if c = 0x11 then .poison else .fault c) ∧
  (s.homeRoute sp.core.die a0 = some r0 → s.syncRead q r0 a0 8 = .ok s0 b0 → leNat (b0.map (·.1)) = e0 →
    (b0.any (·.2) = true → State.walk sp va 3 s base = .poison) ∧
    (b0.any (·.2) = false → e0 % 2 = 0 → State.walk sp va 3 s base = .miss (s0.dropWalk o a0) 0) ∧
    (b0.any (·.2) = false → e0 % 4 = 3 → State.walk sp va 3 s base = .fault 0x0D) ∧
    (b0.any (·.2) = false → inner e0 → s0.homeRoute sp.core.die a1 = some r1 → s0.syncRead q r1 a1 8 = .ok s1 b1 →
      leNat (b1.map (·.1)) = e1 → b1.any (·.2) = false →
      (e1 % 2 = 0 → State.walk sp va 3 s base = .miss ((s1.dropWalk o a1).dropWalk o a0) 1) ∧
      (leaf e1 → e1 / 2 ^ 16 % 2 ^ 13 = 0 → State.walk sp va 3 s base = .leaf ((s1.dropWalk o a1).dropWalk o a0)
        { ctx := sp.ctx, va := va / 2 ^ 29 * 2 ^ 29, size := 29, fa := table e1, perm := BitVec.ofNat 4 (e1 / 2 ^ 5 % 2 ^ 4) }) ∧
      (inner e1 → s1.homeRoute sp.core.die a2 = some r2 → s1.syncRead q r2 a2 8 = .ok s2 b2 → leNat (b2.map (·.1)) = e2 →
        b2.any (·.2) = false →
        (e2 % 2 = 0 → State.walk sp va 3 s base = .miss (((s2.dropWalk o a2).dropWalk o a1).dropWalk o a0) 2) ∧
        (e2 % 4 = 1 → State.walk sp va 3 s base = .fault 0x0D) ∧
        (leaf e2 → State.walk sp va 3 s base = .leaf (((s2.dropWalk o a2).dropWalk o a1).dropWalk o a0)
          { ctx := sp.ctx, va := va / 2 ^ 16 * 2 ^ 16, size := 16, fa := table e2, perm := BitVec.ofNat 4 (e2 / 2 ^ 5 % 2 ^ 4) })))) ∧
  (s.homeRoute sp.core.die a0 = none → State.walk sp va 3 s base = .fault 0x0E)

/-- The address of format M (R43, R171): base + size × offset, modulo 2^32. -/
def Claims.address (s : State) (ct : Ctl) (a o : BitVec 7) (size : Nat) : Nat :=
  let off : Int := match ct.pfx with
    | some p => p.immext.toInt * 2 ^ 7 + o.toNat
    | none => o.toInt
  (((s.flushed.readF a.toNat).v.toNat + size * off) % 2 ^ 32).toNat

/-- The loads of R173: instruction, size in bytes, sign extension. -/
def Claims.loads (ct : Ctl) (d a o : BitVec 7) : List (Instr × Nat × Bool) :=
  [(.lb ct d a o, 1, true), (.lbu ct d a o, 1, false), (.lh ct d a o, 2, true), (.lhu ct d a o, 2, false), (.lw ct d a o, 4, false),
   (.ld ct d a o, 8, false), (.lq ct d a o, 16, false)]

/-- The stores of R173. -/
def Claims.stores (ct : Ctl) (d a o : BitVec 7) : List (Instr × Nat) :=
  [(.sb ct d a o, 1), (.sh ct d a o, 2), (.sw ct d a o, 4), (.sd ct d a o, 8), (.sq ct d a o, 16)]

/-- The access `a` has been formed for the glean, between `s` and `t` (R175): its packet leaves when the glean's lanes have issued; no packet
has left yet, and no byte of memory, no poison mark and no other thread has changed. -/
def Claims.Formed (s s1 t : State) (a : Acc) : Prop :=
  AMap.find t.accs s1.nextId = some a ∧ t.stage = s1.stage ++ [s1.nextId] ∧ t.nextId = s1.nextId + 1 ∧
    t.net = s.net ∧ t.mem = s.mem ∧ t.poison = s.poison ∧ OthersSame s t

/-- The instruction parks the access on a miss at a level (R314): its thread is parked, and the core's fault buffer, which has room and no
entry of the thread yet, takes the entry. -/
def Claims.Parks (i : Instr) (s s1 : State) (va level kind : Nat) : Prop :=
  let c := coreOf s.cur
  (s1.core c).fbuf.length < 256 → (∀ p ∈ (s1.core c).fbuf, p.owner ≠ .thread s.cur) →
    ∃ t, exec i s = .next t ∧ t.me.status = .parked ∧ t.mem = s.mem ∧ t.net = s.net ∧ t.accs = s.accs ∧
      (t.core c).fbuf = (s1.core c).fbuf ++ [{ owner := .thread s.cur, ctx := s.myGrp.ctx, va, level, kind, tag := s.flushed.me.tag
                                               group := s.myGrp.num, at_ := s.time }]

/-- R172 to R175, R179, R189, R314: a load from an address. It raises misaligned access where the address is no multiple of the size,
protection from 2^55 on, and waits with 63 loads and atomics outstanding, while an acquire holds it back (R253), and for an earlier access of its own to
its bytes that nothing else keeps in order (R180, R255). Else, with its address translated and a route for it, a read of the bytes is
formed for its holder, its destination registers are scoreboarded, and the thread goes on. Memory and every register stay. A miss
parks it; an address with no translation allowed, or no route, raises protection or no route. -/
def Claims.LoadsFrom (i : Instr) (s : State) (va size : Nat) (sgn : Bool) (d : BitVec 7) (hint : Nat) : Prop :=
  ∀ (s1 : State) (fa : Nat) (r : Route),
  let th := s.flushed.me
  let dest := dests th d.toNat ((size + 3) / 4)
  (va % size ≠ 0 → Claims.Raises i s 0x0B th.pc (BitVec.ofNat 64 va)) ∧
  (va % size = 0 → 63 ≤ s.outLoads s.cur → Claims.Waits i s .limit) ∧
  (va % size = 0 → s.outLoads s.cur < 63 → 2 ^ 55 ≤ va → Claims.Raises i s 0x0D th.pc (BitVec.ofNat 64 va)) ∧
  (va % size = 0 → s.outLoads s.cur < 63 → va < 2 ^ 55 →
    (s.heldBack = true → Claims.Waits i s .acquire) ∧
    (s.heldBack = false → s.flushed.xlate s.flushed.space va 1 = .fault 0x0D → Claims.Raises i s 0x0D th.pc (BitVec.ofNat 64 va)) ∧
    (s.heldBack = false → ∀ level, s.flushed.xlate s.flushed.space va 1 = .miss s1 level → Claims.Parks i s s1 va level 0) ∧
    (s.heldBack = false → s.flushed.xlate s.flushed.space va 1 = .ok s1 fa → th.held = [] →
      let way := if th.homeRead.getLsbD 0 then s1.homeRoute s.cur.die fa else s1.loadRoute s.cur.die fa
      let line := s1.cacheable s.cur.die fa r && !th.homeRead.getLsbD 0
      (s1.ownPending va size = true → exec i s = .next (s1.setMe (Claims.waiting s .order))) ∧
      (s1.ownPending va size = false → way = none → Claims.RaisesAt i s s1 0x0E th.pc (BitVec.ofNat 64 va)) ∧
      (s1.ownPending va size = false → way = some r → s1.loadBefore va size (fun a => line || a.home != r.origin) = true →
        exec i s = .next (s1.setMe (Claims.waiting s .order))) ∧
      (s1.ownPending va size = false → way = some r → s1.loadBefore va size (fun a => line || a.home != r.origin) = false →
        ∃ (t : State) (acc : Acc), exec i s = .next t ∧ Claims.Formed s s1 t acc ∧
          t.me = s.goesOn i { th with busy := th.busy ++ dest.map .reg } ∧
          acc.kind = .load ∧ acc.owner = .thread s.cur ∧ acc.core = coreOf s.cur ∧ acc.path = 0 ∧ acc.va = va ∧ acc.fa = fa ∧ acc.len = size ∧
          acc.dest = dest ∧ acc.signed = sgn ∧ acc.hint = hint ∧ acc.cache = line ∧ acc.counted = true ∧ acc.tag = th.tag ∧
          acc.home = r.origin ∧ acc.plen = r.len)))

/-- R171, R173, R192: the loads. A poisoned base is consumed. -/
def Claims.Loads : Prop := ∀ (s : State) (ct : Ctl) (d a o : BitVec 7) (i : Instr) (size : Nat) (sgn : Bool),
  (i, size, sgn) ∈ Claims.loads ct d a o → issues i s = true → s.cur.sh = false →
  ((s.flushed.readF a.toNat).p = true → Claims.Consumes i s) ∧
  ((s.flushed.readF a.toNat).p = false → Claims.LoadsFrom i s (Claims.address s ct a o size) size sgn d ct.h.toNat)

/-- The bytes a store takes, little-endian, each with its register's poison (R2, R173, R192). -/
def Claims.stored (s : State) (d : BitVec 7) (size : Nat) : List (Byte × Bool) :=
  let rs := s.flushed.readN d.toNat ((size + 3) / 4)
  let p := rs.any (·.p)
  (List.range size).map fun k => (BitVec.ofNat 8 ((rs.getD (k / 4) {}).v.toNat / 2 ^ (8 * (k % 4))), p)

/-- R172 to R175, R179, R189, R192: a store to an address, outside the shadow modes: with room in its core's store buffer (a store while another of the core
is outstanding finds it full or not: log entry 73), its address translated and a route to its home, a write of exactly its bytes, marked
poisoned where the register is, is formed for the home; the thread goes on; memory is written when the packet is performed. With no
route the store is lost, and store unrouted (0x1A) waits to be delivered (R90). A miss parks it. -/
def Claims.StoresTo (i : Instr) (s : State) (va size : Nat) (d : BitVec 7) : Prop := ∀ (s1 : State) (fa : Nat),
  let th := s.flushed.me
  let bs := Claims.stored s d size
  let others : Bool := s.accs.any fun e => e.2.core == coreOf s.cur && e.2.kind == .store
  let s0 : State := if others then { s.flushed with storeFull := s.storeFull.drop 1 } else s.flushed
  let full : Prop := others = true ∧ s.storeFull.headD false = true
  (va % size ≠ 0 → Claims.Raises i s 0x0B th.pc (BitVec.ofNat 64 va)) ∧
  (va % size = 0 → full → exec i s = .next (s0.setMe (Claims.waiting s .limit))) ∧
  (va % size = 0 → ¬full → 2 ^ 55 ≤ va → Claims.RaisesAt i s s0 0x0D th.pc (BitVec.ofNat 64 va)) ∧
  (va % size = 0 → ¬full → va < 2 ^ 55 → s.heldBack = true → exec i s = .next (s0.setMe (Claims.waiting s .acquire))) ∧
  (va % size = 0 → ¬full → va < 2 ^ 55 → s.heldBack = false → s0.xlate s0.space va 2 = .fault 0x0D →
    Claims.RaisesAt i s s0 0x0D th.pc (BitVec.ofNat 64 va)) ∧
  (va % size = 0 → ¬full → va < 2 ^ 55 → s.heldBack = false → ∀ level, s0.xlate s0.space va 2 = .miss s1 level →
    Claims.Parks i s s1 va level 1) ∧
  (va % size = 0 → ¬full → va < 2 ^ 55 → s.heldBack = false → s0.xlate s0.space va 2 = .ok s1 fa →
    (∀ r, s1.homeRoute s.cur.die fa = some r → ∃ (t : State) (acc : Acc), exec i s = .next t ∧ Claims.Formed s s1 t acc ∧
      t.me = s.goesOn i th ∧ acc.kind = .store ∧ acc.owner = .thread s.cur ∧ acc.core = coreOf s.cur ∧ acc.path = 0 ∧ acc.va = va ∧
      acc.fa = fa ∧ acc.len = size ∧ acc.tag = th.tag ∧ acc.acked = false ∧ acc.home = r.origin ∧ acc.plen = r.len ∧
      acc.cells = (bs.zipIdx.map fun b => (fa + b.2, b.1.1)) ∧
      (∀ w, w ∈ acc.pois ↔ ∃ k, k < size ∧ (bs.getD k (0, false)).2 = true ∧ w = (fa + k) / 4 * 4)) ∧
    (s1.homeRoute s.cur.die fa = none → ∃ t, exec i s = .next t ∧ t.me = s.goesOn i { th with impr := th.impr ++ [(0x1A, BitVec.ofNat 64 va)] } ∧
      t.mem = s.mem ∧ t.net = s.net ∧ t.accs = s.accs ∧ OthersSame s t))

/-- R171, R173, R192: the stores. A poisoned base is consumed, a poisoned source stored with its poison. -/
def Claims.Stores : Prop := ∀ (s : State) (ct : Ctl) (d a o : BitVec 7) (i : Instr) (size : Nat),
  (i, size) ∈ Claims.stores ct d a o → issues i s = true → s.cur.sh = false → s.myGrp.shadow = 0 →
  ((s.flushed.readF a.toNat).p = true → Claims.Consumes i s) ∧
  ((s.flushed.readF a.toNat).p = false → Claims.StoresTo i s (Claims.address s ct a o size) size d)

/-- The atomics of R182 with their numbers, opcode less 0x68. -/
def Claims.atomics (ct : Ctl) (d a b : BitVec 7) : List (Instr × Nat) :=
  [(.aadd ct d a b, 0), (.aand ct d a b, 1), (.aor ct d a b, 2), (.axor ct d a b, 3), (.amin ct d a b, 4), (.amax ct d a b, 5),
   (.aminu ct d a b, 6), (.amaxu ct d a b, 7), (.aswp ct d a b, 8), (.acas ct d a b, 9), (.afadd ct d a b, 10), (.amaxp ct d a b, 11),
   (.aincm ct d a b, 12)]

/-- The scope of an atomic: 1 sheaf, 2 group, 3 core, 4 die, 5 package, 6 stand, 7 system (R43, R186). -/
def Claims.scope (ct : Ctl) : Nat :=
  let p := match ct.pfx with | some p => p.scope.toNat | none => 0
  if p ≠ 0 then p else match ct.sc.toNat with | 0 => 2 | 1 => 4 | 2 => 6 | _ => 7

/-- R179, R181, R186, R189, R245: an atomic outside the shadow modes, whose order lets it leave (a release waits for the thread's earlier
loads, at system scope also for its writes' acknowledgements; an sc waits for its scope's sequencer): an access with the operation, its
operands and its order is formed for the home of the word; the destination is scoreboarded; an acquire or sc holds the thread until
the response. Nothing is written yet, in memory or in registers. A miss parks it. -/
def Claims.Atomics : Prop := ∀ (s s1 : State) (ct : Ctl) (d a b : BitVec 7) (i : Instr) (op fa : Nat) (r : Route),
  (i, op) ∈ Claims.atomics ct d a b → issues i s = true → s.cur.sh = false → s.myGrp.shadow = 0 →
  let th := s.flushed.me
  let x := s.flushed.readF a.toNat
  let w := if op = 11 || (match ct.pfx with | some p => p.w64 | none => false) then 8 else 4
  let val (f : BitVec 7) : Nat := if w = 8 then (s.flushed.readD f.toNat).1.toNat else (s.flushed.readF f.toNat).v.toNat
  let poisoned (f : BitVec 7) : Prop := if w = 8 then (s.flushed.readD f.toNat).2 = true else (s.flushed.readF f.toNat).p = true
  let bad : Prop := x.p = true ∨ poisoned b ∨ (op = 9 ∧ poisoned d)
  let va := x.v.toNat
  let ord := ct.ord.toNat
  let scope := Claims.scope ct
  let dest := dests th d.toNat (w / 4)
  (bad → Claims.Consumes i s) ∧
  (¬bad → va % w ≠ 0 → Claims.Raises i s 0x0B th.pc (BitVec.ofNat 64 va)) ∧
  (¬bad → va % w = 0 → 63 ≤ s.outLoads s.cur → Claims.Waits i s .limit) ∧
  (¬bad → va % w = 0 → s.outLoads s.cur < 63 → s.heldBack = true → Claims.Waits i s .acquire) ∧
  (¬bad → va % w = 0 → s.outLoads s.cur < 63 → s.heldBack = false → s.flushed.xlate s.flushed.space va 3 = .fault 0x0D →
    Claims.Raises i s 0x0D th.pc (BitVec.ofNat 64 va)) ∧
  (¬bad → va % w = 0 → s.outLoads s.cur < 63 → s.heldBack = false → ∀ level, s.flushed.xlate s.flushed.space va 3 = .miss s1 level →
    Claims.Parks i s s1 va level 2) ∧
  (¬bad → va % w = 0 → s.outLoads s.cur < 63 → s.heldBack = false → s.flushed.xlate s.flushed.space va 3 = .ok s1 fa →
    s1.homeRoute s.cur.die fa = none → Claims.RaisesAt i s s1 0x0E th.pc (BitVec.ofNat 64 va)) ∧
  (¬bad → va % w = 0 → s.outLoads s.cur < 63 → s.heldBack = false → s.flushed.xlate s.flushed.space va 3 = .ok s1 fa →
    s1.homeRoute s.cur.die fa = some r →
    let early : Prop := (2 ≤ ord ∧ (0 < s1.outLoads s.cur ∨ (scope = 7 ∧ s1.unacked s.cur [0] = true))) ∨
      (ord = 3 ∧ AMap.find s1.seqHold (s1.instanceOf scope) ≠ none)
    (early → exec i s = .next (s1.setMe (Claims.waiting s .order))) ∧
    (¬early → ∃ (t : State) (acc : Acc), exec i s = .next t ∧ Claims.Formed s s1 t acc ∧
      (ord = 0 ∨ ord = 2 → t.me = s.goesOn i { th with busy := th.busy ++ dest.map .reg }) ∧
      (ord = 1 ∨ ord = 3 → t.me = { (s.goesOn i { th with busy := th.busy ++ dest.map .reg }) with
        status := .waiting (.resp s1.nextId), port := th.port, mwaitBy := th.mwaitBy, issued := th.issued }) ∧
      acc.kind = .atomic ∧ acc.owner = .thread s.cur ∧ acc.core = coreOf s.cur ∧ acc.path = 0 ∧ acc.va = va ∧ acc.fa = fa ∧ acc.len = w ∧
      acc.dest = dest ∧ acc.counted = true ∧ acc.tag = th.tag ∧ acc.home = r.origin ∧ acc.plen = r.len ∧
      acc.aop = some ⟨op, w, ord, scope, val b, if op = 9 then val d else 0, 1⟩ ∧
      (ord = 3 → AMap.find t.seqHold (s1.instanceOf scope) = some s1.nextId)))

/-- Two accesses of a glean travel in one packet (R176): lanes of one instruction, on one segment of 128 bytes at one holder. -/
def Claims.oneVector (a b : Acc) : Prop :=
  a.glean = b.glean ∧ a.kind = b.kind ∧ a.core = b.core ∧ a.path = b.path ∧ a.home = b.home ∧ a.plen = b.plen ∧ a.fa / 128 = b.fa / 128 ∧
    a.fa / 2 ^ (64 - a.plen) = b.fa / 2 ^ (64 - b.plen) ∧ a.len = b.len ∧ a.hint = b.hint ∧ a.cache = b.cache ∧
    (a.aop.map fun o => (o.op, o.w, o.ord, o.scope)) = b.aop.map fun o => (o.op, o.w, o.ord, o.scope)

/-- R175, R176, R194, R242: accesses that travel together leave as one packet to their holder: the first to leave gives it its address, each
has a lane in it, a read asks for the bytes of all, a later store's bytes replace an earlier one's; lanes of different tags travel under
tag 0 with the mixed bit (log entry 6). A write takes one stamp, a read none of its own, and nothing of memory changes. -/
def Claims.PacketsLeave : Prop := ∀ (s : State) (l : List (Nat × Acc)) (n : Nat) (a : Acc) (rest : List (Nat × Acc)),
  l = (n, a) :: rest → s.stage = l.map (·.1) → (∀ e ∈ l, AMap.find s.accs e.1 = some e.2) → (∀ e ∈ rest, Claims.oneVector a e.2) →
  (a.kind = .load ∨ a.kind = .store ∨ a.kind = .atomic) → (a.kind = .load → a.cache = true → s.l1Hit a.core a.fa = none) →
  ∃ p : Pkt, s.coalesce.net = AMap.set s.net s.nextId p ∧ s.coalesce.nextId = s.nextId + 1 ∧ s.coalesce.stage = [] ∧
    s.coalesce.mem = s.mem ∧ s.coalesce.poison = s.poison ∧ s.coalesce.threads = s.threads ∧
    p.kind = (match a.kind with | .load => 0 | .store => 16 | _ => 2) ∧ p.at_ = a.core.die ∧ p.src = s.dieNo a.core.die ∧ p.dst = a.home ∧
    p.plen = a.plen ∧ p.fa = a.fa ∧ p.acc = n ∧ p.aop = a.aop ∧ p.lanes.map (·.acc) = l.map (·.1) ∧
    p.lanes.map (·.off) = l.map (fun e => e.2.fa % 128) ∧
    (a.kind = .atomic → p.lanes.map (fun z => (z.v, z.n, z.incs)) = l.map fun e => ((e.2.aop.map (·.v)).getD 0, (e.2.aop.map (·.n)).getD 0, 1)) ∧
    ((∀ e ∈ l, e.2.tag = a.tag) → p.tag = a.tag ∧ p.mixed = false) ∧ ((∃ e ∈ l, e.2.tag ≠ a.tag) → p.tag = 0 ∧ p.mixed = true) ∧
    (a.kind = .load → ∀ e ∈ l, e.2.fa % 128 + e.2.len ≤ 128 → ∀ k, k < e.2.len → e.2.fa + k ∈ p.want) ∧
    (a.kind = .store → ∀ x, (p.cells.find? fun c => c.1 == x) = (l.reverse.findSome? fun e => e.2.cells.find? fun c => c.1 == x)) ∧
    (a.kind ≠ .load → s.inStand a.home = true → a.path ≤ 5 → p.stamped = true ∧ p.origin = s.dieNo a.core.die ∧
      p.count = AMap.getD (s.die a.core.die).issued a.home 0 + 1 ∧ AMap.getD (s.coalesce.die a.core.die).issued a.home 0 = p.count)

/-- R182 to R185: what each atomic makes of the old value; `m` is 2^32 or 2^64. `aincm` steps once per request combined. -/
def Claims.AtomicResults : Prop := ∀ (w old v n : Nat), w = 4 ∨ w = 8 →
  let m := 2 ^ (8 * w)
  let sg (x : Nat) : Int := if x < m / 2 then x else (x : Int) - m
  old < m → v < m → n < m →
  atomicOp 0 w old v n 1 = (old + v) % m ∧
  (∀ k, (atomicOp 1 w old v n 1).testBit k = (old.testBit k && v.testBit k)) ∧
  (∀ k, (atomicOp 2 w old v n 1).testBit k = (old.testBit k || v.testBit k)) ∧
  (∀ k, (atomicOp 3 w old v n 1).testBit k = (old.testBit k ^^ v.testBit k)) ∧
  sg (atomicOp 4 w old v n 1) = min (sg old) (sg v) ∧ atomicOp 4 w old v n 1 < m ∧
  sg (atomicOp 5 w old v n 1) = max (sg old) (sg v) ∧ atomicOp 5 w old v n 1 < m ∧
  atomicOp 6 w old v n 1 = min old v ∧
  atomicOp 7 w old v n 1 = max old v ∧
  atomicOp 8 w old v n 1 = v ∧
  atomicOp 9 w old v n 1 = (if old = v then n else old) ∧
  (w = 4 → atomicOp 10 w old v n 1 = (fAdd f32 0 false (f32.decode false old) (f32.decode false v)).1) ∧
  (w = 8 → atomicOp 10 w old v n 1 = (fAdd f64 0 false (f64.decode false old) (f64.decode false v)).1) ∧
  (w = 8 → let k (x : Nat) : Nat := x / 2 ^ 32
    (k v < k old → atomicOp 11 w old v n 1 = old) ∧ (k old < k v → atomicOp 11 w old v n 1 = v) ∧
    (k old = k v → atomicOp 11 w old v n 1 = min old v)) ∧
  atomicOp 12 w old v n 1 = (if v ≠ 0 ∧ v ≤ old + 1 then 0 else (old + 1) % m) ∧
  (∀ j, atomicOp 12 w old v n (j + 1) = atomicOp 12 w (atomicOp 12 w old v n 1) v n j)

/-- R250, R251: `fence` outside a block pair. Once the earlier loads on its source paths have returned (and, for a release at system
scope, the writes have been acknowledged; for an sc, its sequencer is free), every destination path's view takes the maximum of
the source paths' views, and the thread goes on; HomeRead is set, for the destination paths, by an acquire at system scope that names the
host path, and lines homed outside the stand are dropped by every acquire at system scope (R244, R248). -/
def Claims.Fences : Prop := ∀ (s : State) (ct : Ctl) (d a : BitVec 6) (w : BitVec 3) (k : BitVec 2),
  let i : Instr := .fence ct d a w k
  let c := coreOf s.cur
  let src := pathsOf a.toNat
  let dst := pathsOf d.toNat
  issues i s = true → s.cur.sh = false → s.myGrp.shadow ≠ 2 →
  let early : Prop := s.loadsOn s.cur a.toNat = true ∨ (k ≠ 0 ∧ w = 7 ∧ s.writesOn s.cur a.toNat = true) ∨
    (k = 3 ∧ AMap.find s.seqHold (s.instanceOf w.toNat) ≠ none)
  (early → Claims.Waits i s .order) ∧
  (¬early →
    ∃ t, exec i s = .next t ∧ OthersSame s t ∧ t.mem = s.mem ∧ t.net = s.net ∧ t.accs = s.accs ∧
      t.me = s.goesOn i { s.flushed.me with homeRead := if k ≠ 1 ∧ w = 7 ∧ a.getLsbD 5 = true then d else 0 } ∧
      (k ≠ 1 → w = 7 → ∀ l ∈ (t.core c).l1, l.home ≠ none) ∧
      ∀ o x, (∀ p ∈ dst, ∀ q ∈ src, View.get (s.view c q) o x ≤ View.get (t.view c p) o x) ∧
        (∀ p, View.get (s.view c p) o x ≤ View.get (t.view c p) o x) ∧
        (k ≠ 3 → ∀ p, p ∉ dst → t.view c p = s.view c p))

/-- A thread when its barrier completes (R264). -/
def Claims.released (now n : Nat) (x : Thread) : Thread :=
  let y : Thread := { x with bpend := x.bpend &&& ~~~BitVec.ofNat 32 (2 ^ n) }
  if x.status = .barrier n then { y with status := .ready, notBefore := max x.notBefore now, since := max x.notBefore now } else y

/-- R263 to R266: the named barriers, outside the shadow modes. A barrier the group does not have, a wrong E or count and an arrival that is
not allowed raise register mapping (0x02); a poisoned operand is consumed. An arrival and `bar.wait` wait for the thread's loads and
atomics outstanding (R253). An arrival adds its count; when the count reaches E the barrier completes: E loses those that left, the count
starts again, the generation rises and every thread of the group is released. `bar.sync` waits for completion, `bar.wait` for the
pending arrival's. `bar.test` never waits; where it finds the pending bit clear after an arrival of the thread, later accesses wait for the
loads outstanding now. -/
def Claims.Barriers : Prop := ∀ (s : State) (ct : Ctl) (n : BitVec 5) (d : BitVec 7) (i : Instr) (k : Nat) (leave waits : Bool),
  let th := s.flushed.me
  let g := gidOf s.cur
  let b := s.bar g n.toNat
  let x := s.flushed.readF d.toNat
  let bit : BitVec 32 := BitVec.ofNat 32 (2 ^ n.toNat)
  let arriving (k : Nat) (leave waits : Bool) : Prop := (i = .barArrive ct n ∧ k = 1 ∧ leave = false ∧ waits = false) ∨ (i = .barSync ct n ∧ k = 1 ∧ leave = false ∧ waits = true) ∨
    (i = .barArrivec ct d n ∧ x.p = false ∧ x.v.toNat = k ∧ k ≠ 0 ∧ leave = false ∧ waits = false) ∨
    (i = .barLeave ct n ∧ k = 1 ∧ leave = true ∧ waits = false)
  let came : Thread := { th with arrived := th.arrived ||| bit }
  let mine : Thread := if leave then { came with bleft := th.bleft ||| bit } else { came with bpend := th.bpend ||| bit }
  let allowed : Prop := th.bleft.getLsbD n.toNat = false ∧ th.bpend.getLsbD n.toNat = false ∧ b.c + k ≤ b.e
  s.myGrp.shadow = 0 → s.cur.sh = false →
  (s.myGrp.nbar ≤ n.toNat → issues i s = true → (∃ k leave waits, arriving k leave waits) ∨ i = .barInit ct d n ∨ i = .barWait ct n ∨
      i = .barTest ct d n ∨ i = .barArrivec ct d n → Claims.Raises i s 0x02 th.pc (BitVec.ofNat 64 n.toNat)) ∧
  (n.toNat < s.myGrp.nbar → issues (.barTest ct d n) s = true → Completes (.barTest ct d n) s { s.withResult 0 d.toNat
    [⟨BitVec.ofNat 32 ((if th.bpend.getLsbD n.toNat then 2 ^ 31 else 0) + (if th.bleft.getLsbD n.toNat then 2 ^ 30 else 0) +
      b.c % 2 ^ 11 * 2 ^ 16 + b.g.toNat), false⟩] 0 with
    after := if th.bpend.getLsbD n.toNat = false ∧ th.arrived.getLsbD n.toNat = true then
        (s.accs.filter fun e => e.2.owner == .thread s.cur && e.2.counted).map (·.1) else th.after }) ∧
  (n.toNat < s.myGrp.nbar → issues (.barInit ct d n) s = true →
    (x.p = true → Claims.Consumes (.barInit ct d n) s) ∧
    (x.p = false → (b.c ≠ 0 ∨ x.v.toNat = 0 ∨ 1024 < x.v.toNat) → Claims.RaisesSome (.barInit ct d n) s 0x02)) ∧
  (n.toNat < s.myGrp.nbar → issues (.barArrivec ct d n) s = true →
    (x.p = true → Claims.Consumes (.barArrivec ct d n) s) ∧ (x.p = false → x.v = 0 → Claims.RaisesSome (.barArrivec ct d n) s 0x02)) ∧
  (n.toNat < s.myGrp.nbar → 0 < s.outLoads s.cur → issues i s = true → arriving k leave waits ∨ i = .barWait ct n → Claims.Waits i s .order) ∧
  (n.toNat < s.myGrp.nbar → s.outLoads s.cur = 0 →
  (issues (.barInit ct d n) s = true → x.p = false → b.c = 0 → 1 ≤ x.v.toNat → x.v.toNat ≤ 1024 →
    Claims.EndsIn (.barInit ct d n) s (s.flushed.setBar g n.toNat { b with e := x.v.toNat, lv := 0 })
      (th.flowTo (th.pc.toNat + sizeIn (.barInit ct d n)))) ∧
  (arriving k leave waits → issues i s = true → ¬allowed → Claims.Raises i s 0x02 th.pc (BitVec.ofNat 64 n.toNat)) ∧
  (arriving k leave waits → issues i s = true → allowed → b.c + k < b.e →
    ∃ t, exec i s = .next t ∧ OthersSame s t ∧ t.mem = s.mem ∧ t.bar g n.toNat = { b with c := b.c + k, lv := b.lv + if leave then 1 else 0 } ∧
      t.me = (if waits then { s.goesOn i mine with status := .barrier n.toNat } else s.goesOn i mine)) ∧
  (arriving k leave waits → issues i s = true → allowed → b.c + k = b.e →
    ∃ t, exec i s = .next t ∧ t.mem = s.mem ∧
      t.bar g n.toNat = { e := b.e - (b.lv + if leave then 1 else 0), c := 0, lv := 0, g := b.g + 1 } ∧
      t.me = s.goesOn i { mine with bpend := mine.bpend &&& ~~~bit } ∧
      (∀ u, u ≠ s.cur → u.sh = false → gidOf u = g → t.thr u = Claims.released s.time n.toNat (s.thr u)) ∧
      ∀ u, gidOf u ≠ g → t.thr u = s.thr u) ∧
  (issues (.barWait ct n) s = true → th.bpend.getLsbD n.toNat = false → Completes (.barWait ct n) s th) ∧
  (issues (.barWait ct n) s = true → th.bpend.getLsbD n.toNat = true →
    Ends (.barWait ct n) s { s.goesOn (.barWait ct n) th with status := .barrier n.toNat }))

/-! ### Closures and frame references (R156-R170) -/

/-- The event, or the instruction, leads to a next state of which `P` holds. -/
def Claims.Goes (i : Instr) (s : State) (P : State → Prop) : Prop := ∃ t, exec i s = .next t ∧ P t

/-- Two registers as one number, low first. -/
def Claims.two (u v : Reg) : Nat := u.v.toNat + 2 ^ 32 * v.v.toNat

/-- The scaled offset of `frl` and `frs` (R43). -/
def Claims.offset (ct : Ctl) (o : BitVec 7) : Int :=
  4 * match ct.pfx with
    | some p => p.immext.toInt * 2 ^ 7 + o.toNat
    | none => o.toInt

/-- The instructions that act on a slot named by a handle: instruction, handle, whether the operand that holds it is poisoned where
that matters. -/
noncomputable def Claims.byHandle (s : State) (ct : Ctl) (d a o : BitVec 7) (p k : BitVec 4) : List (Instr × Nat × Bool) :=
  let c := s.flushed.me.closReg k.toNat
  let x := s.flushed.readD a.toNat
  [(.apply ct k, c.v.toNat, c.p), (.cpin ct k, c.v.toNat, false), (.cdrop ct k, c.v.toNat, false), (.cenv ct d k, c.v.toNat, false),
   (.clive ct p k, c.v.toNat, false), (.frl ct d a o, x.1.toNat, x.2), (.frs ct d a o, x.1.toNat, x.2)]

/-- What each of these instructions asks of environment ports, as its registers stand at its issue (R162, R163, R166, R168, R170). -/
def Claims.request (s : State) (i : Instr) (handles : List Nat) : EnvReq :=
  let g := s.myGrp
  match i with
  | .cap _ _ n a e => { i, handles, ent := (s.flushed.readD e.toNat).1, words := (List.range n.toNat).map fun j => s.flushed.readF (a.toNat + j)
                        region := g.region }
  | .fref _ _ a => { i, handles, ent := s.flushed.me.tsp, words := [s.flushed.readF a.toNat], region := g.region, level := s.flushed.me.level
                     link := s.flushed.me.anchor }
  | _ => { i, handles }

/-- The references a `cap.ref` captures (R162). -/
def Claims.references (s : State) (n : BitVec 4) (a : BitVec 7) : List Nat :=
  (List.range (n.toNat / 2)).map fun j => (s.flushed.readD (a.toNat + 2 * j)).1.toNat

/-- No slot can make the handle live for the instruction: its F bit names the other kind, a reserved bit is set, or its generation is 0
(R156, R157). -/
def Claims.never (i : Instr) (h : Nat) : Prop :=
  (match i with
    | .frl _ _ _ _ => h / 2 ^ 15 % 2 = 0
    | .frs _ _ _ _ => h / 2 ^ 15 % 2 = 0
    | .clive _ _ _ => False
    | _ => h / 2 ^ 15 % 2 = 1) ∨ h / 2 ^ 5 % 2 ^ 10 ≠ 0 ∨ h / 2 ^ 48 % 2 ^ 16 = 0

/-- The cause and the trapval of a stale handle (R157, R166, R170). -/
def Claims.staleCause : Instr → Nat
  | .frl _ _ _ _ => 0x08
  | .frs _ _ _ _ => 0x08
  | _ => 0x07

/-- R161: outside the shadow modes, an instruction of these families that has no answer yet puts one operation on an environment port
and waits: a capture and an `fref` on their own core's, the others, and a capture of references for its first reference, on that of the
core the handle names, where it is in this package. A poisoned handle is consumed by those that use its slot's words. Where the home lies
outside, a handle that nothing can make live is stale at once; a handle of a die that no route reaches raises no route, and gives `clive` 0. -/
def Claims.PortOperations : Prop := ∀ (s : State) (ct : Ctl) (d a o e : BitVec 7) (p k n : BitVec 4) (i : Instr) (h : Nat) (q : Bool) (g : Group),
  let th := s.flushed.me
  let asks (c : CoreId) (hs : List Nat) : Prop :=
    exec i s = .next ((s.flushed.askPort c (.instr s.cur g.num (Claims.request s i hs) 0)).setMe (Claims.waiting s .port))
  let z := (s.flushed.readF a.toNat).v.toNat
  let die := h / 2 ^ 32 % 2 ^ 16
  let far : Prop := die / 4 ≠ s.pkg
  let reached : Prop := s.inStand die = true ∧ s.homeRoute s.cur.die (dramBase die) ≠ none
  let refused (cause : Nat) : Prop := Claims.RaisesAt i s
    (s.flushed.setMe { th with port := some (.bad cause (BitVec.ofNat 64 h)) }) cause th.pc (BitVec.ofNat 64 h)
  AMap.find s.groups (gidOf s.cur) = some g → g.st ≠ .retired → g.shadow = 0 → g.twin = none → s.cur.sh = false → th.port = none →
  th.status = .ready → s.asked i = false → issues i s = true →
  (i = .cap k 0 n a e → (s.flushed.readD e.toNat).2 = false → (s.flushed.readD e.toNat).1.toNat % 4 = 0 → asks (coreOf s.cur) []) ∧
  (i = .cap k 1 n a e → (s.flushed.readD e.toNat).2 = false → (s.flushed.readD e.toNat).1.toNat % 4 = 0 →
    (n.toNat < 2 → asks (coreOf s.cur) []) ∧
    (2 ≤ n.toNat → h = (s.flushed.readD a.toNat).1.toNat → die / 4 = s.pkg → asks ⟨die % 4, h / 2 ^ 26 % 2 ^ 6⟩ (Claims.references s n a))) ∧
  (i = .fref ct d a → z ≠ 0 → z % 4 = 0 → z ≤ 2 ^ 20 → th.tsp.toNat + z ≤ 2 ^ 55 → asks (coreOf s.cur) []) ∧
  ((i, h, q) ∈ Claims.byHandle s ct d a o p k → q = true → Claims.Consumes i s) ∧
  ((i, h, q) ∈ Claims.byHandle s ct d a o p k → q = false → die / 4 = s.pkg → asks ⟨die % 4, h / 2 ^ 26 % 2 ^ 6⟩ [h]) ∧
  ((i, h, q) ∈ Claims.byHandle s ct d a o p k → q = false → far → i ≠ .clive ct p k →
    (Claims.never i h → refused (Claims.staleCause i)) ∧ (¬Claims.never i h → ¬reached → refused 0x0E)) ∧
  (i = .clive ct p k → h = (th.closReg k.toNat).v.toNat → far → Claims.never i h ∨ ¬reached → Completes i s (s.withPred 1 p.toNat false 0))

/-- R162 to R170: what these instructions do with the port's answer, outside the shadow modes. `cap` puts the handle in a closure
register; `apply` writes the captured words to the window's first registers and calls the entry; `cenv` gives the words, `clive` a
predicate, `fref` the frame's handle; `frl` and `frs` load from and store to base + 4 × offset inside the frame; `cmov`, `cst` and `cld`
need no port. A refusal of the port is raised. -/
def Claims.ClosureInstructions : Prop := ∀ (s s1 : State) (ct : Ctl) (d a o e : BitVec 7) (p k c n : BitVec 4) (r : BitVec 1)
    (u v w : Reg) (ws : List Reg) (cause : Nat) (val : DWord),
  let th := s.flushed.me
  let x := s.flushed.readD a.toNat
  let ent := s.flushed.readD e.toNat
  let z := (s.flushed.readF a.toNat).v.toNat
  let off := Claims.offset ct o
  let at_ := Claims.two u v + off.toNat
  let inside : Prop := 0 ≤ off ∧ off + 4 ≤ w.v.toNat
  let room : Prop := d.toNat + ws.length ≤ 120 ∧ ∀ m ∈ dests th d.toNat ws.length, m < s.myGrp.count
  let made (i : Instr) : Prop := i = .cap k r n a e ∧ ent.2 = false ∧ ent.1.toNat % 4 = 0
  let framed (i : Instr) : Prop := i = .fref ct d a ∧ z ≠ 0 ∧ z % 4 = 0 ∧ z ≤ 2 ^ 20 ∧ th.tsp.toNat + z ≤ 2 ^ 55
  s.myGrp.shadow = 0 → s.cur.sh = false →
  (issues (.cmov ct k c) s = true → Completes (.cmov ct k c) s (th.setClos k.toNat (th.closReg c.toNat))) ∧
  (issues (.cst ct d k) s = true → Completes (.cst ct d k) s (s.withResult 0 d.toNat
    [⟨(th.closReg k.toNat).v.setWidth 32, (th.closReg k.toNat).p⟩, ⟨((th.closReg k.toNat).v >>> 32).setWidth 32, (th.closReg k.toNat).p⟩] 0)) ∧
  (issues (.cld ct k a) s = true → x.2 = false → Completes (.cld ct k a) s (th.setClos k.toNat { v := x.1, p := false })) ∧
  (issues (.cld ct k a) s = true → x.2 = true → Claims.Consumes (.cld ct k a) s) ∧
  (issues (.cap k r n a e) s = true → ent.2 = true → Claims.Consumes (.cap k r n a e) s) ∧
  (issues (.cap k r n a e) s = true → ent.2 = false → ent.1.toNat % 4 ≠ 0 → Claims.Raises (.cap k r n a e) s 0x0B th.pc ent.1) ∧
  (issues (.fref ct d a) s = true → (z = 0 ∨ z % 4 ≠ 0 ∨ 2 ^ 20 < z ∨ 2 ^ 55 < th.tsp.toNat + z) → Claims.RaisesSome (.fref ct d a) s 0x02) ∧
  (th.port = some (.ok [u, v]) → ∀ i, issues i s = true →
    (made i → Completes i s (th.setClos k.toNat { v := BitVec.ofNat 64 (Claims.two u v), p := u.p || v.p })) ∧
    (framed i → Completes i s (s.withResult 1 d.toNat [u, v] 0))) ∧
  (th.port = some (.ok ws) →
    (issues (.cpin ct k) s = true → Completes (.cpin ct k) s th) ∧
    (issues (.cdrop ct k) s = true → Completes (.cdrop ct k) s th) ∧
    (issues (.clive ct p k) s = true → Completes (.clive ct p k) s (s.withPred 1 p.toNat (ws.any fun y => y.v == 1) 0)) ∧
    (issues (.cenv ct d k) s = true → ¬room → Claims.RaisesSome (.cenv ct d k) s 0x02) ∧
    (issues (.cenv ct d k) s = true → room → (∃ m ∈ dests th d.toNat ws.length, .reg m ∈ th.busy) → Claims.Waits (.cenv ct d k) s .score) ∧
    (issues (.cenv ct d k) s = true → room → (∀ m ∈ dests th d.toNat ws.length, .reg m ∉ th.busy) →
      Completes (.cenv ct d k) s (s.withResult 1 d.toNat ws 0))) ∧
  (th.port = some (.ok (u :: v :: ws)) → issues (.apply ct k) s = true → (th.closReg k.toNat).p = false →
    (s.myGrp.count < th.wb + ws.length → Claims.RaisesSome (.apply ct k) s 0x02) ∧
    (th.wb + ws.length ≤ s.myGrp.count → (∀ m ∈ dests th 0 ws.length, .reg m ∉ th.busy) → th.tsp.toNat % 16 = 0 →
      s.flushed.storePiece (th.tsp - 16).toNat ((Claims.record th (th.pc.toNat + if ct.pfx.isSome then 8 else 4)).map fun b => (b, false)) = .next s1 →
      let called : Thread := { s1.me with tsp := th.tsp - 16, level := s1.me.level + 1 }
      Claims.EndsIn (.apply ct k) s s1
        { called.result s.time 1 { regs := (dests called 0 ws.length).zip ws } with pc := BitVec.ofNat 64 (Claims.two u v) })) ∧
  (th.port = some (.ok [u, v, w]) → x.2 = false →
    (issues (.frl ct d a o) s = true → ¬inside → Claims.RaisesSome (.frl ct d a o) s 0x02) ∧
    (issues (.frs ct d a o) s = true → ¬inside → Claims.RaisesSome (.frs ct d a o) s 0x02) ∧
    (issues (.frl ct d a o) s = true → inside → Claims.LoadsFrom (.frl ct d a o) s at_ 4 false d 0) ∧
    (issues (.frs ct d a o) s = true → inside → Claims.StoresTo (.frs ct d a o) s at_ 4 d)) ∧
  (th.port = some (.bad cause val) → ∀ i, issues i s = true →
    (∃ h, (i, h, false) ∈ Claims.byHandle s ct d a o p k) ∨ made i ∨ framed i → Claims.Raises i s cause th.pc val) ∧
  (th.port = some (.badFree cause) → ∀ i, issues i s = true → (∃ h, (i, h, false) ∈ Claims.byHandle s ct d a o p k) → Claims.RaisesSome i s cause)

/-- R157: the slot is in the state the F bit names and holds the handle's generation; the handle's reserved bits are 0. No generation is 0. -/
def Claims.live (x : EnvSlot) (h : Nat) : Prop :=
  h / 2 ^ 5 % 2 ^ 10 = 0 ∧ x.st = (if h / 2 ^ 15 % 2 = 1 then .anchor else .closure) ∧ x.gen = h / 2 ^ 48 % 2 ^ 16 ∧ x.gen ≠ 0

/-- A slot after its release (R157): free, its generation advanced past 65,535 to 1. -/
def Claims.freed (x : EnvSlot) : EnvSlot := { gen := if x.gen = 65535 then 1 else x.gen + 1 }

/-- A thread whose wait has ended. -/
def Claims.woken (now : Nat) (x : Thread) : Thread := { x with status := .ready, notBefore := max x.notBefore now, since := max x.notBefore now }

/-- The operation at a port ends with this slot and this thread, and nothing else changes but the queue and that a thread woken. -/
def Claims.Answered (s : State) (c : CoreId) (q : List EnvOp) (t : ThreadId) (k : Nat) (x : EnvSlot) (th : Thread) (r : PortRes) : Prop :=
  Claims.Goes (.environmentPortOperation c) s fun u =>
    (u.core c).envq = q ∧ u.slot c k = x ∧ (∀ j, j ≠ k → u.slot c j = s.slot c j) ∧
      u.thr t = Claims.woken (s.now t.die) { th with port := some r } ∧ (∀ w, w ≠ t → u.thr w = s.thr w) ∧ u.mem = s.mem

/-- R159, R160, R162 to R169: the operation at the head of a port's queue, performed with what its instruction found at its issue. A live
slot gives its entry and words (`apply`), its words (`cenv`), 1 (`clive`), base and size (`frl`, `frs`); `cpin` raises its count and
refuses at 65,535; `cdrop` lowers it and frees the slot with the last; a stale handle raises 0x07, a stale frame handle 0x08, and gives
`clive` 0. A `cap.ref` goes on to its next reference's port, at last to its own core's. `cap` and `fref` take the lowest free slot of
their core, or raise 0x09. A release frees every slot it names, and the thread goes on when none of its releases is left. -/
def Claims.EnvironmentPort : Prop := ∀ (s : State) (c : CoreId) (t : ThreadId) (g : Group) (q : List EnvOp) (r : EnvReq) (h n k j : Nat)
    (ct : Ctl) (d a o e : BitVec 7) (p kc m : BitVec 4) (f : BitVec 1),
  let th := s.thr t
  let word (v : Nat) : Reg := ⟨BitVec.ofNat 32 v, false⟩
  let pair (v : Nat) : List Reg := [word v, word (v / 2 ^ 32)]
  let slotOf (h : Nat) : Nat := h / 2 ^ 16 % 2 ^ 10
  let x := s.slot c (slotOf h)
  let isFrame (h : Nat) : Prop := h / 2 ^ 15 % 2 = 1
  let head : Prop := (s.core c).envq = .instr t g.num r n :: q
  let ans (i : Instr) (x : EnvSlot) (b : PortRes) : Prop := r.i = i → Claims.Answered s c q t (slotOf h) x th b
  let lowest : Prop := k < 1024 ∧ (s.slot c k).st = .free ∧ ∀ j, j < k → (s.slot c j).st ≠ .free
  let number (bits : Nat) : Nat := (s.slot c k).gen * 2 ^ 48 + s.dieNo c.die * 2 ^ 32 + c.core * 2 ^ 26 + k * 2 ^ 16 + bits
  th.status = .waiting .port → AMap.find s.groups (gidOf t) = some g → g.st ≠ .retired → g.shadow = 0 → g.twin = none → t.sh = false →
  (head → r.handles[n]? = some h →
    (Claims.live x h → ¬isFrame h →
      ans (.apply ct kc) x (.ok (pair x.base.toNat ++ x.words)) ∧ ans (.cenv ct d kc) x (.ok x.words) ∧
      (x.count < 65535 → ans (.cpin ct kc) { x with count := x.count + 1 } (.ok [])) ∧
      (x.count = 65535 → ans (.cpin ct kc) x (.badFree 0x02)) ∧
      (1 < x.count → ans (.cdrop ct kc) { x with count := x.count - 1 } (.ok [])) ∧
      (x.count ≤ 1 → ans (.cdrop ct kc) (Claims.freed x) (.ok []))) ∧
    (Claims.live x h → ans (.clive ct p kc) x (.ok [word 1])) ∧
    (¬Claims.live x h → ans (.clive ct p kc) x (.ok [word 0])) ∧
    ((¬Claims.live x h ∨ isFrame h) → let stale : PortRes := .bad 0x07 (BitVec.ofNat 64 h)
      ans (.apply ct kc) x stale ∧ ans (.cenv ct d kc) x stale ∧ ans (.cpin ct kc) x stale ∧ ans (.cdrop ct kc) x stale) ∧
    (Claims.live x h → isFrame h → ans (.frl ct d a o) x (.ok (pair x.base.toNat ++ x.words)) ∧ ans (.frs ct d a o) x (.ok (pair x.base.toNat ++ x.words))) ∧
    ((¬Claims.live x h ∨ ¬isFrame h) → let stale : PortRes := .bad 0x08 (BitVec.ofNat 64 h)
      ans (.frl ct d a o) x stale ∧ ans (.frs ct d a o) x stale ∧ ans (.cap kc f m a e) x stale) ∧
    (Claims.live x h → isFrame h → r.i = .cap kc f m a e →
      let goesTo (c2 : CoreId) : Prop := Claims.Goes (.environmentPortOperation c) s fun u =>
        (u.core c2).envq = (if c2 = c then q else (s.core c2).envq) ++ [.instr t g.num r (n + 1)] ∧ (c2 ≠ c → (u.core c).envq = q) ∧
          (∀ c3 j, u.slot c3 j = s.slot c3 j) ∧ u.threads = s.threads ∧ u.mem = s.mem
      (r.handles[n + 1]? = none → goesTo (coreOf t)) ∧
      (∀ h2, r.handles[n + 1]? = some h2 → h2 / 2 ^ 34 % 2 ^ 14 = s.pkg → goesTo ⟨h2 / 2 ^ 32 % 4, h2 / 2 ^ 26 % 2 ^ 6⟩))) ∧
  (head → r.handles[n]? = none → c = coreOf t →
    let made : EnvSlot := { s.slot c k with region := r.region, base := r.ent, words := r.words }
    (lowest → r.i = .cap kc f m a e → Claims.Answered s c q t k { made with st := .closure, count := 1, n := m.toNat, ref := f == 1 } th
      (.ok (pair (number (f.toNat * 16 + m.toNat))))) ∧
    (lowest → r.i = .fref ct d a → Claims.Answered s c q t k { made with st := .anchor, n := 0, ref := false, owner := some t, level := r.level, link := r.link }
      { th with anchor := some ((c.die * 64 + c.core) * 1024 + k) } (.ok (pair (number (2 ^ 15))))) ∧
    ((∀ j, j < 1024 → (s.slot c j).st ≠ .free) → r.i = .cap kc f m a e ∨ r.i = .fref ct d a →
      Claims.Answered s c q t 0 (s.slot c 0) th (.bad 0x09 0))) ∧
  (∀ l : List Nat, (s.core c).envq = .release t g.num l :: q → l.Nodup → (∀ b ∈ l, b / 2 ^ 16 = c.die ∧ b / 2 ^ 10 % 2 ^ 6 = c.core) →
    let more : Prop := ∃ y ∈ (s.setCore c { s.core c with envq := q }).cores, ∃ l2, .release t g.num l2 ∈ y.2.envq
    Claims.Goes (.environmentPortOperation c) s fun u => (u.core c).envq = q ∧
      (more → u.threads = s.threads) ∧ (¬more → u.thr t = Claims.woken (s.now t.die) th) ∧
      (∀ b ∈ l, u.slot c (b % 1024) = Claims.freed (s.slot c (b % 1024))) ∧ (∀ j, (∀ b ∈ l, b % 1024 ≠ j) → u.slot c j = s.slot c j))

/-! ### Engines, the matrix unit, counters, the dependency table (R202-R238) -/

/-- The engine commands of R45: instruction, function, registers of the tuple. -/
noncomputable def Claims.engines (ct : Ctl) (d a : BitVec 7) : List (Instr × Nat × Nat) :=
  [(.cpy ct d a, 0, 8), (.cpym ct d a, 1, 16), (.chain ct d a, 2, 16), (.psum ct d a, 3, 7), (.rsort ct d a, 4, 12), (.walk ct d a, 5, 8)]

/-- The engine of a core that performs a function (R202): its copy engine, or one of its cluster's. -/
def Claims.engine (fn : Nat) (c : CoreId) : EngineId :=
  if fn = 2 then .chain c.die (c.core / 8) else if fn = 3 then .psum c.die (c.core / 8) else if fn = 5 then .walk c.die (c.core / 8)
  else .copy c.die c.core

/-- The command that an instruction hands over: its function, its tuple (of a `cpym` the first 8 registers, the rest being its follow-on's),
and for whom it works. -/
def Claims.isCommand (s : State) (fn : Nat) (tup : List Word) (n : Nat) (k : Cmd) : Prop :=
  k.fn = fn ∧ k.tup = tup.take n ∧ k.extra = tup.drop n ∧ k.owner = s.cur ∧ k.gnum = s.myGrp.num ∧ k.core = coreOf s.cur ∧
    k.part = (s.partOf s.cur).part ∧ k.tag = s.flushed.me.tag ∧ k.region = s.myGrp.region ∧ k.ctx = s.myGrp.ctx ∧ k.sys = s.myGrp.sys ∧
    k.launch = s.myGrp.launch ∧ k.sattrap = s.myGrp.sattrap ∧ k.homeRead = s.flushed.me.homeRead ∧ k.born = s.time ∧
    k.started = false ∧ k.done = false ∧ k.stopped = false ∧ k.outs = []

/-- R202, R203, R205, R206: an engine command. It consumes a poisoned tuple register and raises engine fault (0x18) with the number of the
first register whose limit is broken. A full queue (64 commands; for a cluster's engine also 8 of this core) makes it wait. Else the
command stands last in its engine's queue and the thread goes on: its destination gets, by the scoreboard, the count of the commands
the engine has accepted from this core. No memory changes: the tuple is not looked at again. -/
def Claims.EngineCommands : Prop := ∀ (s : State) (ct : Ctl) (d a : BitVec 7) (i : Instr) (fn len : Nat),
  (i, fn, len) ∈ Claims.engines ct d a → issues i s = true → s.cur.sh = false → s.myGrp.shadow = 0 →
  let rs := (List.range len).map fun k => s.flushed.readF (a.toNat + k)
  let tup := rs.map (·.v)
  let limits := engineLimits fn tup
  let e := Claims.engine fn (coreOf s.cur)
  let x := s.engine e
  let mine := (x.q.filter fun k => k.core == coreOf s.cur).length
  let full : Prop := 64 ≤ x.q.length ∨ (e ≠ .copy s.cur.die s.cur.core ∧ 8 ≤ mine)
  let key := s.cur.die * 64 + s.cur.core
  let n := AMap.getD x.accepted key 0 + 1
  (rs.any (·.p) = true → Claims.Consumes i s) ∧
  (rs.any (·.p) = false → ∀ p b, (limits.1 ++ limits.2).find? (fun y => !y.2) = some (p, b) → Claims.Raises i s 0x18 s.flushed.me.pc (BitVec.ofNat 64 p)) ∧
  (rs.any (·.p) = false → (∀ y ∈ limits.1 ++ limits.2, y.2 = true) →
    (full → Claims.Waits i s (.engine e)) ∧
    (¬full → ∃ k : Cmd, Claims.isCommand s fn tup (if fn = 1 then 8 else len) k ∧ k.num = s.nextId ∧ Claims.Goes i s fun t =>
      (t.engine e).q = x.q ++ [k] ∧ (t.engine e).fly = x.fly ∧ AMap.getD (t.engine e).accepted key 0 = n ∧
        (∀ f, f ≠ e → t.engine f = s.engine f) ∧ t.me = s.goesOn i (s.withResult 0 d.toNat [⟨BitVec.ofNat 32 n, false⟩] 0) ∧
        OthersSame s t ∧ t.mem = s.mem ∧ t.poison = s.poison ∧ t.net = s.net ∧ t.accs = s.accs))

/-- R209: the limits of `cpy`, register by register. -/
def Claims.CopyLimits : Prop := ∀ (t : List Word), t.length = 8 →
  let w (k : Nat) : Nat := (t.getD k 0).toNat
  let i (k : Nat) : Int := (t.getD k 0).toInt
  let src := w 0 + 2 ^ 32 * w 1
  let dst := w 2 + 2 ^ 32 * w 3
  let rows := w 7 % 2 ^ 16 + 1
  let first (p : Nat) (st : Int) : Int := min (p : Int) (p + ((rows - 1 : Nat) : Int) * st)
  let last (p : Nat) (st : Int) : Int := max (p : Int) (p + ((rows - 1 : Nat) : Int) * st) + w 4
  checkLimits (engineLimits 0 t) = none ↔
    src % 4 = 0 ∧ src < 2 ^ 55 ∧ dst % 4 = 0 ∧ dst < 2 ^ 55 ∧ 4 ≤ w 4 ∧ w 4 ≤ 2 ^ 20 ∧ w 4 % 4 = 0 ∧ w 5 % 4 = 0 ∧ w 6 % 4 = 0 ∧
      w 7 / 2 ^ 21 % 2 ^ 2 ≠ 3 ∧ w 7 / 2 ^ 16 % 2 ^ 5 = 0 ∧
      (last src (i 5) ≤ first dst (i 6) ∨ last dst (i 6) ≤ first src (i 5))

/-- R217, R218: `drain` outside the shadow modes goes on at once where nothing of its set is outstanding; else it waits, past the
instruction, for exactly the transfers outstanding now, and nothing else changes. The set: on the lsu path the accesses of the core's threads
and their held stores; on the others the core's commands, of a `cpym` that waits for its unit only the follow-on, and no `tstat`; each issued
before, or by this thread in this cycle, and touching the memory named. -/
def Claims.Drains : Prop := ∀ (s : State) (ct : Ctl) (a b : BitVec 7),
  let i : Instr := .drain ct a b
  let th := s.flushed.me
  let c := coreOf s.cur
  let l := s.drainSet a.toNat b.toNat
  let old (k : Cmd) : Prop := k.born < s.time ∨ k.owner = s.cur
  let touches (o : Owner) (k : Cmd) : Prop := b = 3 ∨ s.cmdIn o b.toNat k = true
  let at_ (e : EngineId) (n : Nat) : Prop :=
    ∃ k ∈ (s.engine e).q ++ (s.engine e).fly, k.core = c ∧ k.waiting = false ∧ old k ∧ touches (.engine e 0) k ∧ k.num = n
  issues i s = true → s.cur.sh = false → s.myGrp.shadow = 0 →
  (l = [] → Completes i s th) ∧
  (l ≠ [] → exec i s = .next (s.flushed.setMe { th.flowTo (th.pc.toNat + sizeIn i) with
    status := .waiting (.drain l), notBefore := s.time + 1 + stallOf i, since := s.time + 1 + stallOf i })) ∧
  (a = 0 → ∀ n, n ∈ l ↔
    (∃ x, (n, x) ∈ s.accs ∧ x.core = c ∧ x.path = 0 ∧ (x.kind = .load ∨ x.kind = .store ∨ x.kind = .atomic ∨ x.kind = .sync) ∧
      (∃ t, x.owner = .thread t) ∧ (b = 3 ∨ x.touches = b.toNat) ∧ (x.born < s.time ∨ x.owner = .thread s.cur)) ∨
    ∃ e ∈ s.threads, coreOf e.1 = c ∧ e.1.sh = false ∧ ∃ h ∈ e.2.held, h.num = n ∧ (h.born < s.time ∨ e.1 = s.cur) ∧
      (b = 3 ∨ s.heldIn c.die b.toNat h = true)) ∧
  (a = 1 → ∀ n, n ∈ l ↔ at_ (.copy c.die c.core) n) ∧
  (a = 2 → ∀ n, n ∈ l ↔
    (∃ k p, p ∈ partsOf c ∧ k ∈ (s.part p).unit.q ∧ k.fn ≠ 5 ∧ old k ∧ touches (.unit p 0) k ∧ k.num = n) ∨
    ∃ k, k ∈ (s.engine (.copy c.die c.core)).q ++ (s.engine (.copy c.die c.core)).fly ∧ k.core = c ∧ k.fn = 1 ∧ old k ∧
      touches (.unit ⟨c.die, c.core, k.part⟩ 0) (followOn k) ∧ k.num + 1 = n) ∧
  (a = 3 → ∀ n, n ∈ l ↔ at_ (.chain c.die (c.core / 8)) n ∨ at_ (.psum c.die (c.core / 8)) n) ∧
  (a = 4 → ∀ n, n ∈ l ↔ at_ (.walk c.die (c.core / 8)) n)

/-- The commands of a matrix unit: instruction, function, registers of the tuple, destination. -/
noncomputable def Claims.units (ct : Ctl) (d a : BitVec 7) : List (Instr × Nat × Nat × Nat) :=
  [(.wload ct d a, 0, 3, d.toNat), (.mma ct d a, 1, 4, d.toNat), (.accx ct d a, 2, 4, d.toNat), (.tclr ct a, 3, 1, 120), (.quant2 ct d a, 4, 7, d.toNat)]

/-- R221 to R223, R232: a matrix command, handed to the unit of the thread's partition. It waits while the unit is bound to another group
or holds 8 commands; else the unit is bound to the group, the command stands last, and the destination gets the count of commands
accepted (`tclr` has none). `tstat` instead scoreboards its destination until the unit performs it. -/
def Claims.MatrixCommands : Prop := ∀ (s : State) (ct : Ctl) (d a : BitVec 7) (i : Instr) (fn len dst : Nat),
  s.cur.sh = false → s.myGrp.shadow = 0 →
  let th := s.flushed.me
  let rs := (List.range len).map fun k => s.flushed.readF (a.toNat + k)
  let tup := rs.map (·.v)
  let limits := unitLimits fn tup
  let p := s.partOf s.cur
  let u := (s.part p).unit
  let busy : Prop := (∃ g, u.bound = some g ∧ g ≠ s.myGrp.num) ∨ 8 ≤ u.q.length
  let accepted (fn : Nat) (tup : List Word) (dest : List Nat) (j : Instr) (y : Thread) : Prop :=
    ∃ k : Cmd, Claims.isCommand s fn tup tup.length k ∧ k.num = s.nextId ∧ k.dest = dest ∧ Claims.Goes j s fun t =>
      (t.part p).unit = { u with bound := some s.myGrp.num, q := u.q ++ [k], accepted := u.accepted + 1 } ∧
        (∀ r, r ≠ p → t.part r = s.part r) ∧ t.me = s.goesOn j y ∧ OthersSame s t ∧ t.mem = s.mem ∧ t.poison = s.poison ∧ t.net = s.net
  ((i, fn, len, dst) ∈ Claims.units ct d a → issues i s = true →
    (rs.any (·.p) = true → Claims.Consumes i s) ∧
    (rs.any (·.p) = false → ∀ p b, (limits.1 ++ limits.2).find? (fun y => !y.2) = some (p, b) → Claims.Raises i s 0x18 th.pc (BitVec.ofNat 64 p)) ∧
    (rs.any (·.p) = false → (∀ y ∈ limits.1 ++ limits.2, y.2 = true) →
      (busy → Claims.Waits i s .unit) ∧
      (¬busy → accepted fn tup [] i (s.withResult 0 dst [⟨BitVec.ofNat 32 (u.accepted + 1), false⟩] 0)))) ∧
  (issues (.tstat ct d) s = true →
    (busy → Claims.Waits (.tstat ct d) s .unit) ∧
    (¬busy → accepted 5 [] (dests th d.toNat 1) (.tstat ct d) { th with busy := th.busy ++ (dests th d.toNat 1).map .reg }))

/-- R234, R235: `tarv` adds to an arrival counter of its core, modulo 2^31, and sets the closed bit where either word has it; `tarm`
writes the word. Both give the counter's old word. Number 512 and above is an illegal operand; an earlier store or atomic of the thread not
yet applied makes it wait. -/
def Claims.ArrivalCounters : Prop := ∀ (s : State) (g : Group) (ct : Ctl) (d a : BitVec 7) (i : Instr) (new : Word),
  let c := coreOf s.cur
  let x := s.flushed.readF a.toNat
  let v := s.flushed.readF (a.toNat + 1)
  let n := x.v.toNat
  let old := s.ctr c n
  let out : Prop := ∃ e ∈ s.accs, e.2.owner = .thread s.cur ∧ e.2.path = 0 ∧ ((e.2.kind = .store ∧ e.2.acked = false) ∨ e.2.kind = .atomic)
  (i = .tarm ct d a ∧ new = v.v) ∨
    (i = .tarv ct d a ∧ new.msb = (old.msb || v.v.msb) ∧ new.toNat % 2 ^ 31 = (old.toNat + v.v.toNat) % 2 ^ 31) →
  AMap.find s.groups (gidOf s.cur) = some g → g.st ≠ .retired → g.shadow = 0 → g.twin = none → issues i s = true → s.cur.sh = false →
  (x.p = true ∨ v.p = true → Claims.Consumes i s) ∧
  (x.p = false → v.p = false → 512 ≤ n → Claims.RaisesSome i s 0x02) ∧
  (x.p = false → v.p = false → n < 512 → out → Claims.Waits i s .order) ∧
  (x.p = false → v.p = false → n < 512 → ¬out → Claims.Goes i s fun t =>
    t.ctr c n = new ∧ (∀ b m, (b, m) ≠ (c, n) → t.ctr b m = s.ctr b m) ∧
      t.me = s.goesOn i (s.withResult 0 d.toNat [⟨old, false⟩] 0) ∧ OthersSame s t ∧ t.mem = s.mem ∧ t.net = s.net)

/-- R237: `tdep` registers a tile task: its tuple's words are read from memory, both tuples are checked (a limit of the command's own
tuple by its number plus 7), and the task takes the lowest free entry of the core's table of 256, whose number is the result; with none
free, and where the read has expired or has met the redirect limit, the result is all ones and nothing is registered. A poisoned tuple is
consumed; the read raises what it meets, and waits. -/
def Claims.TaskRegistration : Prop := ∀ (s s1 : State) (g : Group) (ct : Ctl) (d a : BitVec 7) (bs : List (Byte × Bool)) (e : Nat),
  let i : Instr := .tdep ct d a
  let rs := (List.range 7).map fun k => s.flushed.readF (a.toNat + k)
  let t := rs.map (·.v)
  let w := (t.getD 0 0).toNat
  let target := w / 2 ^ 26 % 4
  let fn := w / 2 ^ 21 % 32
  let n := taskLen target fn
  let va := (t.getD 5 0).toNat + 2 ^ 32 * (t.getD 6 0).toNat
  let tup := (List.range n).map fun k => BitVec.ofNat 32 (leNat (((bs.drop (4 * k)).take 4).map (·.1)))
  let own := tdepLimits t
  let limits := taskLimits target fn tup
  let c := coreOf s.cur
  let tasks := (s1.core c).tasks
  let gives (x : Thread) (v : Nat) (u : State) : Prop :=
    u.me = s.goesOn i (x.result s.time 0 { regs := (dests x d.toNat 1).zip [⟨BitVec.ofNat 32 v, false⟩] }) ∧ u.mem = s1.mem ∧ u.net = s1.net
  let sound : Prop := rs.any (·.p) = false ∧ ∀ y ∈ own.1 ++ own.2, y.2 = true
  let read := State.readWords n s.flushed va
  AMap.find s.groups (gidOf s.cur) = some g → g.st ≠ .retired → g.shadow = 0 → g.twin = none → issues i s = true → s.cur.sh = false →
  (rs.any (·.p) = true → Claims.Consumes i s) ∧
  (rs.any (·.p) = false → ∀ p b, (own.1 ++ own.2).find? (fun y => !y.2) = some (p, b) → Claims.Raises i s 0x18 s.flushed.me.pc (BitVec.ofNat 64 p)) ∧
  (sound → ∀ w, read = .stop (.wait s1 w) → exec i s = .next (settle i (.wait s1 w)).endIssue) ∧
  (sound → ∀ cause v, cause ≠ 0x0F → read = .stop (.trap s1 cause v false) → Claims.RaisesAt i s s1 cause s1.me.pc v) ∧
  (sound → ∀ v, read = .stop (.trap s1 0x0F v false) → Claims.Goes i s fun u =>
    gives { s1.me with impr := s1.me.impr ++ [(0x0F, v)] } (2 ^ 32 - 1) u ∧ (u.core c).tasks = tasks) ∧
  (sound → read = .lost s1 → Claims.Goes i s fun u => gives s1.me (2 ^ 32 - 1) u ∧ (u.core c).tasks = tasks) ∧
  (sound → read = .ok s1 bs → bs.any (·.2) = true → exec i s = .next (s1.consume s1.cur 0x10).endIssue) ∧
  (sound → read = .ok s1 bs → bs.any (·.2) = false → ∀ p b, (limits.1 ++ limits.2).find? (fun y => !y.2) = some (p, b) →
    Claims.RaisesAt i s s1 0x18 s1.me.pc (BitVec.ofNat 64 (p + 7))) ∧
  (sound → read = .ok s1 bs → bs.any (·.2) = false → (∀ y ∈ limits.1 ++ limits.2, y.2 = true) →
    ((∀ k, k < 256 → (AMap.find tasks k).isSome = true) → Claims.Goes i s fun u => gives s1.me (2 ^ 32 - 1) u ∧ (u.core c).tasks = tasks) ∧
    (e < 256 → AMap.find tasks e = none → (∀ k, k < e → (AMap.find tasks k).isSome = true) → Claims.Goes i s fun u => gives s1.me e u ∧
      ∃ k : Task, AMap.find (u.core c).tasks e = some k ∧ (∀ j, j ≠ e → AMap.find (u.core c).tasks j = AMap.find tasks j) ∧
        k.high = (w / 2 ^ 31 == 1) ∧ k.target = target ∧ k.fn = fn ∧ k.tup = tup ∧ k.num = (s1.core c).taskSeq ∧
        Claims.isCommand s1 fn tup (if target = 0 ∧ fn = 1 then 8 else n) k.cmd ∧
        k.inputs = (List.range (w / 2 ^ 28 % 8)).map (fun j => ((t.getD (1 + j) 0).toNat / 2 ^ 23 % 2 ^ 9, (t.getD (1 + j) 0).toNat % 2 ^ 23)) ∧
        (k.ready = true ↔ ∀ q ∈ k.inputs, q.2 ≤ (s1.ctr c q.1).toNat % 2 ^ 31)))

/-! ### Queue instructions (R290-R295) -/

/-- The sixteen words a queue instruction pushes: a record of the registers' words, with the thread's tag in place of the record's own
outside system mode (R294), or the closure-task record of R295. -/
def Claims.pushed (s : State) (b : BitVec 7) (spawn : Bool) : List Word :=
  let r (k : Nat) : Word := (s.flushed.readF (b.toNat + k)).v
  let th := s.flushed.me
  let h := (th.closReg ((r 3).toNat % 2 ^ 4)).v
  let ws : List Word := if spawn then
      [0x01010000, BitVec.ofNat 32 ((r 3).toNat / 2 ^ 8 % 2 ^ 3 * 256), r 0, r 1, h.setWidth 32, (h >>> 32).setWidth 32, 1, r 2, 0, 0, r 4, r 5, 0, 0, 0,
       BitVec.ofNat 32 s.myGrp.region]
    else (List.range 16).map r
  if s.myGrp.sys then ws else ws.set 1 ((ws.getD 1 0 &&& 0xFFFF) ||| (th.tag.setWidth 32 <<< 16))

/-- The access `a` has been made and has left by itself as the packet `p`, between `s` and `t`; no byte of memory, no poison mark and no
other thread has changed. -/
def Claims.Sent (s s1 t : State) (a : Acc) (p : Pkt) : Prop :=
  AMap.find t.accs s1.nextId = some a ∧ AMap.find t.net (s1.nextId + 1) = some p ∧ t.nextId = s1.nextId + 2 ∧ p.acc = s1.nextId ∧
    p.lanes.map (·.acc) = [s1.nextId] ∧ p.fa = a.fa ∧ p.dst = a.home ∧ p.plen = a.plen ∧ p.src = s.dieNo s.cur.die ∧ p.tag = a.tag ∧
    a.owner = .thread s.cur ∧ a.core = coreOf s.cur ∧ a.path = 0 ∧ a.tag = s.flushed.me.tag ∧ a.gnum = s.myGrp.num ∧
    t.mem = s.mem ∧ t.poison = s.poison ∧ OthersSame s t

/-- R290 to R295: `qpush`, `qtry`, `qspawn` and `qlen` outside the shadow modes. They consume poison and raise misaligned access where the
push address is no multiple of 64, protection where it is not below 2^55; a `qspawn` with a reserved bit is illegal. A push waits for the
thread's loads and for its stores' acknowledgements, then leaves for the queue's home as one write of 64 bytes, a `qlen` as a read of it,
and the thread waits for the answer; with no route they raise store unrouted (0x1A; for `qlen` log entry 78), at a home of another package
that is no queue invalid record (0x1C). A miss parks them. With the answer the destination gets the record's number, or the queue's length. -/
def Obligations.QueueInstructions : Prop := ∀ (s s1 : State) (ct : Ctl) (d a b : BitVec 7) (i : Instr) (n fa : Nat) (r : Route) (rs : List Reg)
    (cause : Nat) (val : DWord),
  let th := s.flushed.me
  let x := s.flushed.readD a.toNat
  let va := x.1.toNat
  let v := BitVec.ofNat 64 va
  let spawn : Bool := match i with
    | .qspawn _ _ _ _ => true
    | _ => false
  let len : Bool := match i with
    | .qlen _ _ _ => true
    | _ => false
  let ops := (List.range n).map fun k => s.flushed.readF (b.toNat + k)
  let w3 := (ops.getD 3 {}).v.toNat
  let reserved : Prop := spawn = true ∧ (w3 / 2 ^ 11 ≠ 0 ∨ w3 / 2 ^ 4 % 2 ^ 4 ≠ 0)
  let bad : Prop := x.2 = true ∨ ops.any (·.p) = true
  let badClosure : Prop := spawn = true ∧ (th.closReg (w3 % 2 ^ 4)).p = true
  let ready : Prop := ¬bad ∧ va % 64 = 0 ∧ ¬reserved ∧ ¬badClosure
  let early : Prop := len = false ∧ (0 < s.outLoads s.cur ∨ s.unacked s.cur [0] = true)
  let need : BitVec 3 := if len then 1 else 2
  let found := s.flushed.xlate s.flushed.space va need
  let other : Prop := r.origin / 4 ≠ s.pkg ∧ r.cls ≠ 2
  (i = .qpush ct d a b ∧ n = 16) ∨ (i = .qtry ct d a b ∧ n = 16) ∨ (i = .qspawn ct d a b ∧ n = 6) ∨ (i = .qlen ct d a ∧ n = 0) →
  s.cur.sh = false → s.myGrp.shadow = 0 → issues i s = true →
  (bad → Claims.Consumes i s) ∧
  (¬bad → va % 64 ≠ 0 → Claims.Raises i s 0x0B th.pc v) ∧
  (¬bad → va % 64 = 0 → reserved → Claims.Raises i s 0x01 th.pc (BitVec.ofNat 64 s.ir.word)) ∧
  (¬bad → va % 64 = 0 → ¬reserved → badClosure → Claims.Consumes i s) ∧
  (ready → 2 ^ 55 ≤ va → Claims.Raises i s 0x0D th.pc v) ∧
  (ready → va < 2 ^ 55 →
    (th.port = some (.ok rs) → Completes i s (s.withResult 1 d.toNat rs 0)) ∧
    (th.port = some (.bad cause val) → Claims.Raises i s cause th.pc val) ∧
    (th.port = none → s.heldBack = true → Claims.Waits i s .acquire) ∧
    (th.port = none → s.heldBack = false → early → Claims.Waits i s .order) ∧
    (th.port = none → s.heldBack = false → ¬early →
      (found = .fault 0x0D → Claims.Raises i s 0x0D th.pc v) ∧
      (∀ level, found = .miss s1 level → Claims.Parks i s s1 va level (if len then 0 else 1)) ∧
      (found = .ok s1 fa → s1.homeRoute s.cur.die fa = none → Claims.RaisesAt i s s1 0x1A th.pc v) ∧
      (found = .ok s1 fa → s1.homeRoute s.cur.die fa = some r → other → Claims.RaisesAt i s s1 0x1C th.pc v) ∧
      (found = .ok s1 fa → s1.homeRoute s.cur.die fa = some r → ¬other → Claims.Goes i s fun t => ∃ (acc : Acc) (p : Pkt),
        Claims.Sent s s1 t acc p ∧ t.me = Claims.waiting s (.push s1.nextId) ∧ acc.va = va ∧ acc.fa = fa ∧ acc.len = 64 ∧
          acc.home = r.origin ∧ acc.plen = r.len ∧ p.push = true ∧
          (len = false → acc.kind = .push ∧ p.kind = 1 ∧ p.val = (if i = .qtry ct d a b then 1 else 0) ∧
            p.cells = (((Claims.pushed s b spawn).flatMap fun w => leBytes 4 w.toNat).zipIdx.map fun y => (fa + y.2, y.1)) ∧
            (s.inStand r.origin = true → p.stamped = true)) ∧
          (len = true → acc.kind = .qlen ∧ p.kind = 0 ∧ p.want = [fa] ∧ p.cells = []))))

/-! ### Functions of system mode: routes, links, the semaphore, purges (R333-R338, R355, R363, R382, R383) -/

/-- The lane issuing stands in a slot, in no shadow mode. -/
def Claims.placed (s : State) : Prop :=
  s.cur.sh = false ∧ ∃ g, AMap.find s.groups (gidOf s.cur) = some g ∧ g.st ≠ .retired ∧ g.shadow = 0 ∧ g.twin = none

/-- The function ends at once with these words. -/
def Claims.Says (i : Instr) (s : State) (d : BitVec 7) (ws : List Nat) : Prop :=
  Completes i s (s.withResult 0 d.toNat (ws.map fun n => ⟨BitVec.ofNat 32 n, false⟩) 0)

/-- The function is out: its thread waits for the answer. -/
def Claims.Out (i : Instr) (s : State) (P : State → Prop) : Prop :=
  Claims.Goes i s fun t => t.me = Claims.waiting s .dev ∧ t.mem = s.mem ∧ P t

/-- R333 to R336: `ann` and `wdr`: the limits of the tuple, the statuses given at once, in their order, and what an accepted one does: a home
of a prefix that has no other entry is installed in the die's table (status 0); a replica of an installed home is installed, and waits for
its listing; one with orphan-hold that finds no home stands as an orphan (1); a withdrawal takes the die's own entry out of the table and
waits for the acknowledgements. An entry the die has lost or is withdrawing counts as none. An answer that has come is the result. -/
def Claims.AnnounceAndWithdraw : Prop := ∀ (s : State) (ct : Ctl) (d a b : BitVec 7) (i : Instr) (r : Route) (rs : List Reg),
  let ops := (List.range 4).map fun k => s.flushed.readF (a.toNat + k)
  let w (k : Nat) : Nat := (ops.getD k {}).v.toNat
  let pre := w 0 + 2 ^ 32 * w 1
  let len := w 2 % 2 ^ 8
  let cls := w 2 / 2 ^ 8 % 2 ^ 8
  let good : Prop := 1 ≤ len ∧ len ≤ 60 ∧ cls < 3 ∧ w 2 / 2 ^ 18 = 0 ∧ pre % 2 ^ (64 - len) = 0
  let xs := if b.toNat < 120 then [s.flushed.readF b.toNat, s.flushed.readF (b.toNat + 1)] else []
  let size := 2 ^ (64 - len)
  let back := match xs with
    | [u, v] => Claims.two u v
    | _ => pre
  let k := s.cur.die
  let me := s.dieNo k
  let own := (s.entry k pre len me).filter fun q => !q.gone
  let here := s.entriesOf k pre len
  let homed : Prop := ∃ q ∈ here, q.cls = 0 ∧ q.st = .installed
  let hold := w 2 / 2 ^ 17 % 2
  let fits : Prop := back % size = 0 ∧ back / 2 ^ 48 = me ∧ (back % 2 ^ 48 + size ≤ 0x1800000000 ∨
    (0xF00000000000 ≤ back % 2 ^ 48 ∧ back % 2 ^ 48 + size ≤ 0xF00000000000 + 2 ^ 28))
  Claims.placed s → s.flushed.me.port = none ∨ s.flushed.me.port = some (.ok rs) → i = .ann ct d a b ∨ i = .wdr ct d a → issues i s = true →
  ((ops.any (·.p) = true ∨ (i = .ann ct d a b ∧ xs.any (·.p) = true)) → Claims.Consumes i s) ∧
  (ops.any (·.p) = false → (i = .ann ct d a b → xs.any (·.p) = false) →
    (¬good → Claims.RaisesSome i s 0x02) ∧
    (good → s.flushed.me.port = some (.ok rs) → Completes i s (s.withResult 0 d.toNat rs 0)) ∧
    (good → s.flushed.me.port = none → i = .ann ct d a b →
      let newer : Prop := ∃ q, own = some q ∧ w 3 < q.ver
      let refused : Prop := cls = 1 ∧ ((∃ q ∈ here, q.cls = 2 ∧ q.st = .installed) ∨ ∃ q, own = some q ∧ q.cls = 0)
      let homeless : Prop := cls = 1 ∧ ¬homed ∧ hold = 0
      let full : Prop := s.entry k pre len me = none ∧ 16384 ≤ s.tableSize k
      let same : Prop := ∃ q, own = some q ∧ q.ver = w 3 ∧ q.cls = cls
      let goes : Prop := cls ≠ 2 ∧ fits ∧ ¬newer ∧ ¬refused
      let placed (t : State) (st : RState) : Prop := ∃ q, t.entry k pre len me = some q ∧ q.cls = cls ∧ q.st = st ∧ q.ver = w 3 ∧ q.origin = me ∧
        q.cost = 0 ∧ q.backing = back ∧ q.ready = (w 2 / 2 ^ 16 % 2 == 1) ∧ q.hold = (hold == 1) ∧ q.region = some s.myGrp.region ∧ q.gone = false
      let tells (n : Nat) (t : State) : Prop := t.me = s.goesOn i (s.withResult 0 d.toNat [⟨BitVec.ofNat 32 n, false⟩] 0) ∧ t.mem = s.mem
      (cls = 2 ∨ ¬fits → Claims.Says i s d [5]) ∧
      (cls ≠ 2 → fits → newer → Claims.Says i s d [6]) ∧
      (cls ≠ 2 → fits → ¬newer → refused → Claims.Says i s d [5]) ∧
      (goes → homeless → Claims.Says i s d [3]) ∧
      (goes → ¬homeless → full → Claims.Says i s d [4]) ∧
      (goes → ¬homeless → ¬full → same → Claims.Says i s d [0]) ∧
      (goes → ¬full → cls = 0 → here = [] → Claims.Goes i s fun t => placed t .installed ∧ tells 0 t) ∧
      (goes → ¬full → cls = 1 → hold = 1 → here = [] → Claims.Goes i s fun t => placed t .orphan ∧ tells 1 t) ∧
      (goes → ¬full → cls = 1 → here = [r] → r.cls = 0 → r.st = .installed → r.gone = false → r.origin ≠ me →
        Claims.Out i s fun t => placed t .installed ∧ ∃ o : RouteOp, (t.die k).rops = (s.die k).rops ++ [o] ∧ o.t = some s.cur ∧
          o.gnum = s.myGrp.num ∧ o.fn = 0 ∧ o.pre = pre ∧ o.len = len ∧ o.ver = w 3 ∧ o.born = s.time)) ∧
    (good → s.flushed.me.port = none → i = .wdr ct d a →
      ((∀ q, own = some q → q.cls ≠ cls ∨ q.ver ≠ w 3) → Claims.Says i s d [5]) ∧
      (here = [r] → r.origin = me → r.gone = false → r.cls = cls → r.ver = w 3 → Claims.Out i s fun t => t.entry k pre len me = none ∧
        ∃ o : RouteOp, (t.die k).rops = (s.die k).rops ++ [o] ∧ o.t = some s.cur ∧ o.fn = 1 ∧ o.pre = pre ∧ o.len = len ∧ o.ver = r.ver ∧
          o.gnum = s.myGrp.num ∧ o.old = some r ∧ o.acks = [] ∧ o.born = s.time)))

/-- R331, R337, R338: `promo` of a prefix whose replica this die does not hold ready, or of another version than the home's, ends with
status 5; else its request goes out and the thread waits. `rqry` gives the holder and the home of an address as the die's table has them. -/
def Claims.PromoteAndQuery : Prop := ∀ (s : State) (ct : Ctl) (d a : BitVec 7) (h : Route),
  let ops := (List.range 4).map fun k => s.flushed.readF (a.toNat + k)
  let w (k : Nat) : Nat := (ops.getD k {}).v.toNat
  let pre := w 0 + 2 ^ 32 * w 1
  let len := w 2 % 2 ^ 8
  let good : Prop := 1 ≤ len ∧ len ≤ 60 ∧ w 2 / 2 ^ 8 % 2 ^ 8 < 3 ∧ w 2 / 2 ^ 18 = 0 ∧ pre % 2 ^ (64 - len) = 0
  let k := s.cur.die
  let ready : Prop := ∃ q, s.entry k pre len (s.dieNo k) = some q ∧ q.cls = 1 ∧ q.ready = true ∧ q.st = .installed
  let home := (s.entriesOf k pre len).find? fun r => r.cls == 0 && r.st == .installed
  let x := s.flushed.readD a.toNat
  let ld := s.loadRoute k x.1.toNat
  let hm := s.homeRoute k x.1.toNat
  let of (o : Option Route) (f : Route → Nat) : Nat := match o with
    | some r => f r
    | none => 0
  let orphan : Bool := (s.matching k x.1.toNat).any fun r => r.st == .orphan && decide (of ld (·.len) ≤ r.len)
  Claims.placed s →
  (issues (.promo ct d a) s = true → s.flushed.me.port = none → ops.any (·.p) = false → good →
    (home = none ∨ ¬ready ∨ (home = some h ∧ h.ver ≠ w 3) → Claims.Says (.promo ct d a) s d [5]) ∧
    (home = some h → ready → h.ver = w 3 → Claims.Out (.promo ct d a) s fun t =>
      ∃ o : RouteOp, (t.die k).rops = (s.die k).rops ++ [o] ∧ o.t = some s.cur ∧ o.fn = 2 ∧ o.pre = pre ∧ o.len = len ∧ o.phase = 0 ∧ o.born = s.time)) ∧
  (issues (.rqry ct d a) s = true → x.2 = true → Claims.Consumes (.rqry ct d a) s) ∧
  (issues (.rqry ct d a) s = true → x.2 = false → Claims.Says (.rqry ct d a) s d
    [of ld (·.origin) * 2 ^ 16 + of ld (·.cls) * 2 ^ 8 + of ld (·.len), of ld (·.cost) * 2 ^ 16 + of hm (·.origin), of hm (·.ver),
     (if orphan then 2 ^ 10 else 0) + (if hm.isSome then 2 ^ 9 else 0) + (if ld.isSome then 2 ^ 8 else 0) + of hm (·.len)])

/-- R355, R399: the link functions. They consume poison; their operand limits raise illegal operand (0x02); within them the function joins the
queue of the die's port complex and the thread waits, until the answer, its status, has come. `lnksched` reads its table first: what the read
meets is raised, a poisoned table consumed; a read that has expired or met the redirect limit leaves everything as it is. `lnkstat` gives the first 16 bytes of a port's
status block, and takes no port of another die. -/
def Claims.LinkFunctions : Prop := ∀ (s s1 : State) (ct : Ctl) (d a : BitVec 7) (i : Instr) (fn n : Nat) (limit : Nat → Prop) (rs : List Reg)
    (bs : List (Byte × Bool)),
  let w (k : Nat) : Nat := (s.flushed.readF (a.toNat + k)).v.toNat
  let bad : Prop := ∃ k, k < n ∧ (s.flushed.readF (a.toNat + k)).p = true
  let th := s.flushed.me
  let q := w 0
  let isFn : Prop := (i = .lnkpark ct d a ∧ fn = 0 ∧ n = 2 ∧ limit = fun v => v / 2 ^ 8 % 2 ^ 8 = 0 ∧ v % 2 ^ 8 ≠ 0) ∨
    (i = .lnkwake ct d a ∧ fn = 1 ∧ n = 2 ∧ limit = fun v => v / 2 ^ 8 = 0 ∧ v % 2 ^ 8 ≠ 0) ∨
    (i = .lnkdrain ct d a ∧ fn = 3 ∧ n = 1 ∧ limit = fun _ => True)
  let sched : Instr := .lnksched ct d a
  let va := w 2 + 2 ^ 32 * w 3
  let queued (f : Nat) (t : State) (P : LinkOp → Prop) : Prop :=
    ∃ o : LinkOp, (t.die s.cur.die).linkq = (s.die s.cur.die).linkq ++ [o] ∧ o.t = s.cur ∧ o.gnum = s.myGrp.num ∧ o.fn = f ∧ o.port = q ∧
      o.born = s.time ∧ P o
  Claims.placed s →
  (isFn → issues i s = true →
    (bad → Claims.Consumes i s) ∧
    (¬bad → (15 < q ∨ (2 ≤ n ∧ ¬limit (w 1))) → Claims.RaisesSome i s 0x02) ∧
    (¬bad → q ≤ 15 → (2 ≤ n → limit (w 1)) →
      (th.port = some (.ok rs) → Completes i s (s.withResult 0 d.toNat rs 0)) ∧
      (th.port = none → Claims.Out i s fun t => queued fn t fun o => 2 ≤ n → o.mask = w 1 % 2 ^ 8 ∧ o.thresh = w 1 / 2 ^ 16))) ∧
  (n = 4 → issues sched s = true → bad → Claims.Consumes sched s) ∧
  (n = 4 → issues sched s = true → ¬bad → q ≤ 15 → w 1 < 64 → va % 4 = 0 →
    (th.port = some (.ok rs) → Completes sched s (s.withResult 0 d.toNat rs 0)) ∧
    (th.port = none → ∀ v, State.readWords (w 1 + 1) s.flushed va = .stop (.wait s1 v) → exec sched s = .next (settle sched (.wait s1 v)).endIssue) ∧
    (th.port = none → ∀ cause v, cause ≠ 0x0F → State.readWords (w 1 + 1) s.flushed va = .stop (.trap s1 cause v false) →
      Claims.RaisesAt sched s s1 cause s1.me.pc v) ∧
    (th.port = none → ∀ v, State.readWords (w 1 + 1) s.flushed va = .stop (.trap s1 0x0F v false) →
      let x : Thread := { s1.me with impr := s1.me.impr ++ [(0x0F, v)] }
      Claims.EndsIn sched s s1 (x.flowTo (x.pc.toNat + sizeIn sched))) ∧
    (th.port = none → State.readWords (w 1 + 1) s.flushed va = .lost s1 → Claims.EndsIn sched s s1 (s1.me.flowTo (s1.me.pc.toNat + sizeIn sched))) ∧
    (th.port = none → State.readWords (w 1 + 1) s.flushed va = .ok s1 bs → bs.any (·.2) = true → exec sched s = .next (s1.consume s1.cur 0x10).endIssue) ∧
    (th.port = none → State.readWords (w 1 + 1) s.flushed va = .ok s1 bs → bs.any (·.2) = false →
      let ws := (List.range (w 1 + 1)).map fun k => leNat (((bs.drop (4 * k)).take 4).map (·.1))
      ∃ t, exec sched s = .next t ∧ t.me.status = .waiting .dev ∧ t.mem = s1.mem ∧
        queued 4 t fun o => o.slots = ws.map (· % 2 ^ 16) ∧ (o.badTable = true ↔ ∃ v ∈ ws, 2 ^ 16 ≤ v))) ∧
  (n = 4 → issues sched s = true → ¬bad → (15 < q ∨ 64 ≤ w 1 ∨ va % 4 ≠ 0) → Claims.RaisesSome sched s 0x02) ∧
  (n = 1 → issues (.lnkstat ct d a) s = true → bad → Claims.Consumes (.lnkstat ct d a) s) ∧
  (n = 1 → issues (.lnkstat ct d a) s = true → ¬bad →
    (15 < q → Claims.RaisesSome (.lnkstat ct d a) s 0x02) ∧
    (q ≤ 15 → q / 4 ≠ s.cur.die → Claims.Raises (.lnkstat ct d a) s 0x02 th.pc (BitVec.ofNat 64 q)) ∧
    (q / 4 = s.cur.die → q ≤ 15 → th.port = none → Claims.Says (.lnkstat ct d a) s d
      ((List.range 4).map fun k => leNat (((s.port q).status.drop (4 * k)).take 4))))

/-- R363, R382, R383: `semacq` takes the package semaphore for its die where it is free (0), keeps one it has (1) and else names the
holder; `semrel` gives up what its die holds. `purge` of a tag of the caller's range starts a purge: a packet to every die of the
stand; its thread waits. -/
def Claims.SemaphoreAndPurge : Prop := ∀ (s : State) (ct : Ctl) (d a : BitVec 7) (rs : List Reg),
  let code := 0x10 + s.cur.die
  let x := s.flushed.readF a.toNat
  let v := x.v.toNat
  let range := s.effTag treeDepth s.myGrp.region
  let th := s.flushed.me
  let gives (i : Instr) (sem n : Nat) : Prop := Claims.Goes i s fun t => t.sem = sem ∧ t.mem = s.mem ∧ OthersSame s t ∧
    t.me = s.goesOn i (s.withResult 0 d.toNat [⟨BitVec.ofNat 32 n, false⟩] 0)
  Claims.placed s → th.port = none ∨ th.port = some (.ok rs) →
  (issues (.semacq ct d) s = true → th.port = none →
    (s.sem = 0 → gives (.semacq ct d) code 0) ∧ (s.sem = code → gives (.semacq ct d) s.sem 1) ∧
    (s.sem ≠ 0 → s.sem ≠ code → gives (.semacq ct d) s.sem (s.sem * 2 ^ 8 + 2))) ∧
  (issues (.semrel ct d) s = true → th.port = none →
    (s.sem = code → gives (.semrel ct d) 0 0) ∧ (s.sem ≠ code → gives (.semrel ct d) s.sem (s.sem * 2 ^ 8 + 2))) ∧
  (issues (.purge ct d a) s = true → x.p = true → Claims.Consumes (.purge ct d a) s) ∧
  (issues (.purge ct d a) s = true → x.p = false → 2 ^ 16 ≤ v → Claims.RaisesSome (.purge ct d a) s 0x02) ∧
  (issues (.purge ct d a) s = true → x.p = false → v < 2 ^ 16 → (v < range.1 ∨ range.2 < v) →
    Claims.Raises (.purge ct d a) s 0x02 th.pc (BitVec.ofNat 64 v)) ∧
  (issues (.purge ct d a) s = true → x.p = false → v < 2 ^ 16 → range.1 ≤ v → v ≤ range.2 →
    (th.port = some (.ok rs) → Completes (.purge ct d a) s (s.withResult 0 d.toNat rs 0)) ∧
    (th.port = none → Claims.Out (.purge ct d a) s fun t =>
      (∃ o : PurgeOp, (t.die s.cur.die).purges = (s.die s.cur.die).purges ++ [o] ∧ o.tag = BitVec.ofNat 16 v ∧ o.acks = [] ∧ o.released = false ∧
        o.t = some (s.cur, s.myGrp.num.toNat)) ∧
      ∀ p ∈ s.flash.pkgs, ∀ j, j < 4 → ∃ k pk, AMap.find t.net k = some pk ∧ pk.kind = 13 ∧ pk.val2 = 0 ∧ pk.dst = 4 * p + j ∧
        pk.tag = BitVec.ofNat 16 v ∧ pk.origin = s.dieNo s.cur.die))

/-! ### Events of threads and partitions (R39, R40, R85, R90, R99, R103, R272, R360-R362) -/

/-- An event that changes one thread only. -/
def Claims.Moves (i : Instr) (s : State) (t : ThreadId) (x : Thread) : Prop :=
  Claims.Goes i s fun u => u.thr t = x ∧ (∀ w, w ≠ t → u.thr w = s.thr w) ∧ { u with threads := s.threads } = s

/-- R39, R40, R81, R99: results that are due are written; the oldest result of variable latency is written, with its flags, and its registers
are scoreboarded no longer; nothing else of the thread changes (a wait for them ends with the cycle); a yield ends after its 16 picks. -/
def Claims.ResultEvents : Prop := ∀ (s : State) (t : ThreadId) (p : Pend) (ps : List Pend) (till : Nat),
  let th := s.thr t
  let now := s.now t.die
  ((AMap.find s.threads t).isSome = true → Claims.Moves (.fixedLatencyWriteback t) s t (th.flush now)) ∧
  (th.vpend = p :: ps → Claims.Goes (.variableLatencyCompletion t) s fun u =>
    let y := u.thr t
    y.vpend = ps ∧ y.status = th.status ∧ y.fsr = th.fsr ||| p.flags.setWidth 32 ∧
      (∀ n r, p.regs = [(n, r)] → y.reg n = r ∧ (∀ m, m ≠ n → y.reg m = th.reg m) ∧ ((∀ q ∈ ps, .reg n ∉ Pend.busy q) → .reg n ∉ y.busy)) ∧
      (∀ d, d ∈ th.busy → d ∉ Pend.busy p → d ∈ y.busy) ∧ y.pc = th.pc ∧ y.pend = th.pend ∧
      (∀ w, w ≠ t → u.thr w = s.thr w) ∧ { u with threads := s.threads } = s) ∧
  (th.status = .yielding till → till ≤ now → Claims.Moves (.yieldExpiry t) s t (Claims.woken now th))

/-- R103: a waiting `mwait` reads its word again after a write to it, on pre-emption of its group, and at its limit. A value that
differs, and any value once the wait has ended, is the result, and the thread goes on; else it waits on, watching the word where its home
now is. A read that is parked parks the thread, and the limit stands. -/
def Claims.MwaitEvents : Prop := ∀ (s s1 s3 : State) (t : ThreadId) (m : MWait) (bs : List (Byte × Bool)) (fa : Nat),
  let th := s.thr t
  let now := s.now t.die
  let v : Reg := ⟨BitVec.ofNat 32 (leNat (bs.map (·.1))), bs.any (·.2)⟩
  let pre : Prop := (s.grp (gidOf t)).st = .preempting
  let read := State.readPiece { s with cur := t } m.va 4 0 1
  let s2 : State := { s1 with syncBuf := s1.syncBuf.filter fun e => e.1 != .thread t }
  let looks : Prop := (m.hit = true ∧ m.near = true) ∨ pre
  let turns (i : Instr) (u : State) (x : Thread) : Prop := Claims.Goes i s fun w => w.mem = u.mem ∧ w.cur = s.cur ∧ w.thr t = x
  let ends (i : Instr) : Prop := turns i s1 (Claims.woken (now + 1) (((s1.thr t).receive now m.dest [v]).flowTo ((s1.thr t).pc.toNat + m.size)))
  th.status = .mwait m → (s.grp (gidOf t)).shadow = 0 →
  (read = .ok s1 bs → looks → v.p = true ∨ v.v ≠ m.last.v ∨ pre → ends (.mwaitWake t)) ∧
  (read = .ok s1 bs → looks → v.p = false → v.v = m.last.v → ¬pre → s2.xlate s2.space m.va 1 = .ok s3 fa →
    turns (.mwaitWake t) s3 { s3.thr t with status := .mwait { m with last := v, hit := false, fa := (s3.watchAt fa).1, near := (s3.watchAt fa).2 } }) ∧
  (read = .ok s1 bs → m.limit ≤ now → ends (.mwaitLimit t)) ∧
  (read = .stop (.stay s1) → (∀ i, (i = .mwaitWake t ∧ looks) ∨ (i = .mwaitLimit t ∧ m.limit ≤ now) →
    turns i s1 { s1.thr t with status := .parked, mwaitBy := some m.limit, issued := some m.start })) ∧
  (¬looks → exec (.mwaitWake t) s = .next s) ∧ (now < m.limit → exec (.mwaitLimit t) s = .next s)

/-- R87, R90, R207: an imprecise fault's report reaches its thread, wherever its group is, and the thread takes it at its next issue; of a
thread that has exited or runs a handler it leaves an event in the fault record; of a group that has retired, one of its region. -/
def Claims.ImpreciseFaults : Prop := ∀ (s : State) (n : Nat) (r : Report) (g : GroupId) (o : OutGroup),
  s.reports[n]? = some r →
  let i : Instr := .impreciseFaultReport n
  let s0 : State := { s with reports := s.reports.eraseIdx n }
  let t : ThreadId := ⟨g.die, g.core, g.slot, r.t.t, false⟩
  let th := s.thr t
  let past (x : Thread) : Prop := x.handler = true ∨ x.status = .exited ∨ x.status = .draining
  let away := AMap.getD o.thr (r.t.t, false) {}
  (s.slotOf (gidOf r.t) r.gnum = some g → ¬past th → Claims.Goes i s fun u => u.reports = s0.reports ∧
    u.thr t = { th with impr := th.impr ++ [(r.cause, r.va)] } ∧ u.net = s.net ∧ u.mem = s.mem) ∧
  (s.slotOf (gidOf r.t) r.gnum = some g → past th → exec i s = .next (s0.groupEvent t r.cause.toNat r.va)) ∧
  (s.slotOf (gidOf r.t) r.gnum = none → (s.outs.find? fun x => x.g.num == r.gnum) = some o →
    (past away → exec i s = .next (s0.outEvent o r.t.t r.cause.toNat r.va)) ∧
    (¬past away → r.t.sh = false → Claims.Goes i s fun u => u.reports = s0.reports ∧ u.threads = s.threads ∧ u.mem = s.mem ∧
      u.outs = s.outs.map fun x => if x.g.num = r.gnum then { x with thr := x.thr.map fun e =>
        if e.1 = (r.t.t, false) then (e.1, { e.2 with impr := e.2.impr ++ [(r.cause, r.va)] }) else e } else x)) ∧
  (s.slotOf (gidOf r.t) r.gnum = none → (s.outs.find? fun x => x.g.num == r.gnum) = none →
    exec i s = .next (s0.record r.t.die
      { kind := 1, cause := r.cause.toNat, region := r.region, tag := r.tag.toNat, group := r.gnum.toNat % 2 ^ 32, cno := s.cno (coreOf r.t)
        trapval := r.va.toNat }))

/-- A sheaf of a group is active or pending. -/
def Claims.active (s : State) (g : GroupId) (k : Nat) : Bool := (AMap.getD (s.grp g).sheaves k {}).active

/-- R85: with 64 program counters tracked and the oldest of the pool 64 picks old, that one takes the place of the tracked one that issued
most recently, which goes to the pool's end. -/
def Claims.PoolEviction : Prop := ∀ (s : State) (p : PartId) (pc entered : Nat) (rest : List (Nat × Nat)) (e : Nat × Nat),
  let x := s.part p
  let now := s.now p.die
  x.pool = (pc, entered) :: rest → entered + 64 ≤ now → 64 ≤ x.tracked.length → (x.tracked.map (·.1)).Nodup →
  e ∈ x.tracked → (∀ f ∈ x.tracked, f ≠ e → f.2 < e.2) →
  Claims.Goes (.poolEviction p) s fun u => (u.part p).pool = rest ++ [(e.1, now)] ∧
    (∀ f, f ∈ (u.part p).tracked ↔ f = (pc, 0) ∨ (f ∈ x.tracked ∧ f ≠ e)) ∧ (u.part p).unit = x.unit ∧ { u with parts := s.parts } = s

/-- R10, R272: a pending sheaf with a ready thread, the one that has waited longest of those that fit, enters its partition's active set;
where the set has no room, it changes places with an active sheaf all of whose threads may be swapped, where the set's registers and the
image in the core's vault then fit. -/
def Claims.SheafEvents : Prop := ∀ (s : State) (p : PartId) (g h : GroupId) (x y : Group) (k j : Nat) (n : Nat),
  let used := ((s.activeOn p).map fun e => 32 * e.2.1.count).sum
  ((s.pendingReady p).find? (fun e => s.activeRoom p e.2.1.count) = some (g, x, k, n) →
    Claims.Goes (.pendingSheafEntry p) s fun u => Claims.active u g k = true ∧
      (∀ f l, (f, l) ≠ (g, k) → Claims.active u f l = Claims.active s f l) ∧ u.threads = s.threads ∧ u.mem = s.mem) ∧
  let vault := s.vaultUsed ⟨p.die, p.core⟩
  let leaves : List (GroupId × Group × Nat) := (s.activeOn p).filter fun e => (s.sheafThreads e.1 e.2.1 e.2.2).all fun t => s.swappable t.1 t.2
  let fit (e : GroupId × Group × Nat × Nat) (a : GroupId × Group × Nat) : Bool :=
    decide (used + 32 * e.2.1.count ≤ 32768 + 32 * a.2.1.count) && decide (vault + imageBytes a.2.1.count ≤ 4194304 + imageBytes e.2.1.count)
  ((s.pendingReady p).findSome? (fun e => (leaves.find? (fit e)).map fun a => (a, e)) = some ((h, y, j), (g, x, k, n)) → (h, j) ≠ (g, k) →
    Claims.Goes (.sheafExchange p) s fun u => Claims.active u g k = true ∧ Claims.active u h j = false ∧
      (∀ f l, (f, l) ≠ (g, k) → (f, l) ≠ (h, j) → Claims.active u f l = Claims.active s f l) ∧ u.threads = s.threads ∧ u.mem = s.mem)

/-- R360, R362: twin threads at their commit points. With equal signatures, counts and poison the stores held leave in order, the commands
held are accepted, and both go on; while a command has no room they wait; a copy stopped only by a full buffer goes on alone until it has
made as many stores as its twin; anything else is a signature mismatch (0x13): both return to their retry points where retry is on, both
have one and the group has not retried; else both stop and their tag is purged. -/
def Claims.SignatureCompare : Prop := ∀ (s s1 : State) (t u : ThreadId) (e f : EngineId) (c c2 : Cmd) (n : Nat),
  let g := s.grp (gidOf t)
  let a := s.thr t
  let b := s.thr u
  let i : Instr := .signatureCompare t
  let now := s.now t.die
  let agree : Prop := a.sig = b.sig ∧ a.nstores = b.nstores ∧ a.held.map (·.pois) = b.held.map (·.pois)
  let alone : Prop := (a.nstores < b.nstores ∧ a.atCommit = 3) ∨ (b.nstores < a.nstores ∧ b.atCommit = 3)
  let goes (x : Thread) : Thread := { Claims.woken now x with held := [], cmds := [], sig := 0, nstores := 0, atCommit := 2 }
  let number : Reg := ⟨BitVec.ofNat 32 n, false⟩
  let one : Prop := a.cmds = [(.engine e 0, c)] ∧ b.cmds = [(.engine f 0, c2)] ∧ c.dest ≠ [] ∧ c2.dest ≠ []
  g.twin = some (gidOf u) → u.t = t.t → u.sh = false → u ≠ t → g.shadow = 2 → g.isShadow = false →
  a.status = .waiting .twin → b.status = .waiting .twin →
  (a.nstores < b.nstores → a.atCommit = 3 → Claims.Moves i s t (Claims.woken now { a with atCommit := 2 })) ∧
  (b.nstores < a.nstores → b.atCommit = 3 → Claims.Moves i s u (Claims.woken (s.now u.die) { b with atCommit := 2 })) ∧
  (agree → a.cmds = [] → b.cmds = [] → Claims.Goes i s fun w => w.thr t = goes a ∧ w.thr u = goes b ∧ w.mem = s.mem ∧
    (a.held = [] → w.net = s.net) ∧ ((a.held.map (·.num)).Nodup → ∀ h r, h ∈ a.held → s.homeRoute t.die h.fa = some r →
      ∃ acc, AMap.find w.accs h.num = some acc ∧ acc.kind = .store ∧ acc.owner = .thread t ∧ acc.core = coreOf t ∧ acc.va = h.va ∧ acc.fa = h.fa ∧
        acc.home = r.origin ∧ acc.tag = a.tag ∧ acc.cells = h.cells.map fun x => (x.1 - h.va + h.fa, x.2))) ∧
  (agree → a.held = [] → one → s.accept (.engine e 0) { c with dest := [] } = none → exec i s = .next s) ∧
  (agree → a.held = [] → one → s.accept (.engine e 0) { c with dest := [] } = some (s1, n) → Claims.Goes i s fun w => w.engine e = s1.engine e ∧
    w.thr t = goes (a.receive now c.dest [number]) ∧ w.thr u = goes (b.receive now c2.dest [number]) ∧ w.mem = s.mem ∧ w.net = s.net) ∧
  (¬agree → ¬alone →
    (∀ c d : Thread, s.effRetry treeDepth g.region = true → g.retried = false → s.retryPoint t = some c → s.retryPoint u = some d →
      Claims.Goes i s fun w => (w.thr t).pc = c.pc ∧ (w.thr t).regs = c.regs ∧ (w.thr t).status = .ready ∧ (w.thr u).pc = d.pc ∧
        (w.thr u).regs = d.regs ∧ (w.thr u).status = .ready ∧ (w.grp (gidOf t)).retried = true ∧ w.net = s.net ∧ w.mem = s.mem) ∧
    ((s.effRetry treeDepth g.region = false ∨ g.retried = true ∨ s.retryPoint t = none ∨ s.retryPoint u = none) →
      Claims.Goes i s fun w => (w.thr t).status = .stopped ∧ (w.thr u).status = .stopped ∧ w.mem = s.mem ∧
        ∃ o ∈ (w.die t.die).purges, o.tag = a.tag ∧ o.cause = 0x13))

/-! ### Events of the network: requests (R187, R193-R200, R242, R243, R290, R291, R318, R319, R324-R331, R344, R364) -/

/-- A packet of a kind, the only one of its number, at a die whose purge filter lets it pass; it has come to the die's router, not only to
the relay point of a port. -/
def Claims.come (s : State) (n kind : Nat) (p : Pkt) : Prop :=
  s.net.filter (fun e => e.1 == n) = [(n, p)] ∧ n < s.nextId ∧ p.kind = kind ∧ p.relay = false ∧ s.purged p.at_ p = false

/-- The packet is gone and one packet has left, of which `P` holds. -/
def Claims.replied (s u : State) (n : Nat) (P : Pkt → Prop) : Prop :=
  AMap.find u.net n = none ∧ (∃ r, AMap.find u.net s.nextId = some r ∧ P r) ∧ ∀ k, k ≠ n → k ≠ s.nextId → AMap.find u.net k = AMap.find s.net k

/-- The packet is gone, nothing else of the network has changed. -/
def Claims.taken (s u : State) (n : Nat) : Prop := AMap.find u.net n = none ∧ ∀ k, k ≠ n → AMap.find u.net k = AMap.find s.net k

/-- The packet has crossed a direct link of the package to die `j`. -/
def Claims.crossed (s u : State) (n : Nat) (p : Pkt) (j : Nat) : Prop :=
  ∃ r, AMap.find u.net n = some r ∧ r.at_ = j ∧ r.hop = p.hop + 1 ∧ r.sw = 0 ∧ r.came = s.now j ∧
    { r with at_ := p.at_, hop := p.hop, sw := p.sw, came := p.came, inp := p.inp, back := p.back } = p

/-- Bytes by fabric address, at the addresses where a holder keeps them. -/
def Claims.placedAt (q : Route) (cells : List Host.Cell) : List Host.Cell := cells.map fun c => (q.backing + c.1 % 2 ^ (64 - q.len), c.2)

/-- A response to `p` from die `i`, of a kind. -/
def Claims.answers (i kind : Nat) (p r : Pkt) : Prop :=
  r.kind = kind ∧ r.dst = p.src ∧ r.acc = p.acc ∧ r.at_ = i ∧ r.back = p.back ∧ r.trail = p.trail ∧ r.tag = p.tag ∧ r.mixed = p.mixed

/-- A read's response: the bytes asked for, their poison, and the counts applied at the holder. -/
def Claims.bytes (s : State) (i : Nat) (q : Route) (p r : Pkt) : Prop :=
  Claims.answers i 3 p r ∧ r.lanes = p.lanes ∧ r.cells = p.want.map (fun a => (a, (s.byteAt (Route.physical q a)).1)) ∧
    (∀ w, w ∈ r.pois ↔ ∃ a ∈ p.want, (s.byteAt (Route.physical q a)).2 = true ∧ w = a / 4 * 4) ∧
    r.stamped = p.stamped ∧ r.view = (if p.stamped then s.appliedAt i q else [])

/-- R175, R242, R243, R294, R318, R324, R329, R364: a read request at the die it has come to. The holder serves it once the counts of its
stamp have been applied there: a response with the bytes asked for, their poison and the holder's counts leaves for the requester. Before that
it is held, or, with the buffer full, answered with a hold retry. A cacheable read of a host is recorded with its line; where the line has
four holders, or the directory has no room, the line, or the one recorded first, is recalled and the read waits. A die that does not serve a
read passes it one hop on, or redirects it to its own best holder. A `qlen` is answered with the entries its queue holds. Memory never
changes. -/
def Claims.ReadRequests : Prop := ∀ (s : State) (n : Nat) (p : Pkt) (q h : Route) (no : Bool) (l : HostLine) (ls : List HostLine),
  let i := p.at_
  let d := s.die i
  let run (P : State → Prop) : Prop := Claims.Goes (.readRequest n) s fun u => u.mem = s.mem ∧ u.poison = s.poison ∧ P u
  let ready : Prop := s.spot n p = .serve q ∧ s.behind p = false
  let serves : Prop := ready ∧ p.push = false ∧ s.readAdmits i q p = true
  let here (x : HostLine) : Bool := x.line == p.fa / 128
  let others := d.hostDir.filter fun x => !here x
  let recorded (x : HostLine) : Prop := run fun u => Claims.replied s u n (Claims.bytes s i q p) ∧ (u.die i).hostDir = others ++ [x]
  let recalls (x : HostLine) : Prop := run fun u => AMap.find u.net n = some p ∧
    { x with holders := [], waiting := x.waiting ++ x.holders.map fun y => (y, s.now i) } ∈ (u.die i).hostDir
  let best := if p.push then s.homeRoute i p.fa else s.loadRoute i p.fa
  Claims.come s n 0 p →
  (serves → p.cacheable = false → run fun u => Claims.replied s u n (Claims.bytes s i q p) ∧ (u.die i).hostDir = d.hostDir) ∧
  (serves → p.cacheable = true → d.hostDir.find? here = some l →
    (p.src ∈ l.holders → recorded l) ∧
    (p.src ∉ l.holders → l.holders.length + l.waiting.length < 4 → recorded { l with holders := l.holders ++ [p.src] }) ∧
    (p.src ∉ l.holders → 4 ≤ l.holders.length + l.waiting.length → 0x10000 ∉ l.holders → l.holders ≠ [] → recalls l)) ∧
  (serves → p.cacheable = true → d.hostDir.find? here = none →
    (d.hostDir.length < 32768 → recorded { line := p.fa / 128, holders := [p.src] }) ∧
    (32768 ≤ d.hostDir.length → d.hostDir = l :: ls → 0x10000 ∉ l.holders → l.holders ≠ [] → recalls l)) ∧
  (ready → s.readAdmits i q p = true → p.push = true →
    (∀ k y, s.queueAt i p.fa = some (k, y) → run fun u => Claims.replied s u n fun r => Claims.answers i 3 p r ∧ r.val = y.entries.length) ∧
    (s.queueAt i p.fa = none → run fun u => Claims.replied s u n fun r => Claims.answers i 8 p r ∧ r.val2 = 0x1C)) ∧
  (ready → s.readAdmits i q p = false →
    (d.holdL.length < 1024 → run fun u => Claims.taken s u n ∧ (u.die i).holdL = d.holdL ++ [p]) ∧
    (1024 ≤ d.holdL.length → run fun u => Claims.replied s u n (Claims.answers i 14 p))) ∧
  (s.spot n p = .serve q → s.behind p = true → exec (.readRequest n) s = .next s) ∧
  (s.routeFor p = some h → p.dst ≠ s.dieNo i → h.origin ≠ s.dieNo i → p.hop < 16 → 4 ≤ h.next → run fun u => Claims.crossed s u n p (h.next - 4)) ∧
  (s.spot n p = .redirect no → run fun u => Claims.replied s u n fun r => Claims.answers i 6 p r ∧
    (∀ b, no = false → best = some b → r.val = b.origin ∧ r.val2 = b.len) ∧ ((no = true ∨ best = none) → r.val = 0xFFFF))

/-- Every count of a request has been taken at its home, or waits there for its turn. -/
def Claims.counted (u : State) (i h : Nat) (p : Pkt) : Prop :=
  p.stamped = true → ∀ e ∈ p.turns, e.2 ≤ View.get (u.die i).applied e.1 h ∨ e ∈ (u.die i).skips

/-- A write has been applied at die `i`: its bytes and poison marks stand in memory, and its counts have been taken. Stores of one or two
bytes mark poisoned words and clear no mark. -/
def Claims.written (s u : State) (i : Nat) (q : Route) (p : Pkt) : Prop :=
  u.mem = Memory.writeAll s.mem (Claims.placedAt q p.cells) ∧
    u.poison = (if p.sub then (p.pois.map (Route.physical q)).foldl insertNat s.poison
      else poisonAfter s.poison (Claims.placedAt q p.cells) (p.pois.map (Route.physical q))) ∧
    Claims.counted u i (s.dieNo i) p

/-- A write that its home may apply now, where the part's own rules do not turn it away. -/
def Claims.applies (s : State) (i : Nat) (q : Route) (p : Pkt) : Prop :=
  s.writeAdmits i p = true ∧ s.moving i p.fa = none ∧ s.movedIn i p.fa = none ∧ s.closed i q p = false ∧
    ∀ c ∈ Claims.placedAt q p.cells, s.marked i c.1 = false

/-- A request parked by a move, last of those of its prefix. -/
def Claims.parkedIn (s u : State) (i : Nat) (m : Move) (p : Pkt) : Prop :=
  u.mem = s.mem ∧ (u.die i).moves = (s.die i).moves.map fun x => if x = m then { x with parked := x.parked ++ [p] } else x

/-- R187, R192, R242, R243, R248, R319, R329, R331, R352: a write, whole or masked, at its home. Once its stamp, or its mark, lets it be
applied, its bytes and poison marks stand in memory, its counts have been taken, and its acknowledgement leaves; where other hosts hold its
line, that waits until the line has been recalled from them. One taken already is discarded; one that must wait is held; one of a prefix
being moved is parked; one to a queue or a status block is refused with 0x0D. A die that is not the home passes it on, or redirects it and
has its count skipped at the home it was stamped for. -/
def Claims.WriteRequests : Prop := ∀ (s : State) (n kind : Nat) (e : Instr) (p : Pkt) (q h : Route) (m : Move) (l : HostLine) (no : Bool),
  let i := p.at_
  let d := s.die i
  let ready : Prop := s.spot n p = .serve q ∧ s.behind p = false
  let fresh : Prop := ready ∧ s.stale i p = false
  let bounced (r : Pkt) : Prop := Claims.answers i (if s.lostHome i p.fa then 7 else 6) p r ∧
    (∀ b, no = false → s.homeRoute i p.fa = some b → r.val = b.origin ∧ r.val2 = b.len) ∧ ((no = true ∨ s.homeRoute i p.fa = none) → r.val = 0xFFFF)
  (kind = 1 ∧ e = .writeRequest n) ∨ (kind = 16 ∧ e = .maskedWrite n) → Claims.come s n kind p → p.push = false → p.fwd = false →
  (fresh → Claims.applies s i q p → Claims.Goes e s fun u => Claims.written s u i q p ∧
    (d.fwd = [] → d.hostDir = [] → Claims.replied s u n (Claims.answers i 4 p)) ∧
    (d.fwd = [] → d.hostDir = [l] → (∃ c ∈ p.cells, c.1 / 128 = l.line) → (∃ y ∈ l.holders, y ≠ p.src) → Claims.taken s u n ∧
      ∃ r, Claims.answers i 4 p r ∧ (u.die i).hostDir = [{ l with holders := [], writes := l.writes ++ [r]
                                                                  waiting := l.waiting ++ (l.holders.filter (· ≠ p.src)).map fun y => (y, s.now i) }])) ∧
  (ready → s.stale i p = true → Claims.Goes e s fun u => Claims.taken s u n ∧ u.mem = s.mem) ∧
  (fresh → s.writeAdmits i p = false ∨ (s.moving i p.fa = none ∧ (s.movedIn i p.fa).isSome = true) →
    (d.holdW.length < 2048 → Claims.Goes e s fun u => Claims.taken s u n ∧ (u.die i).holdW = d.holdW ++ [p] ∧ u.mem = s.mem) ∧
    (2048 ≤ d.holdW.length → Claims.Goes e s fun u => u.mem = s.mem ∧ Claims.replied s u n (Claims.answers i 14 p))) ∧
  (fresh → s.writeAdmits i p = true → s.moving i p.fa = some m → Claims.Goes e s fun u => Claims.taken s u n ∧ Claims.parkedIn s u i m p) ∧
  (fresh → s.writeAdmits i p = true → s.moving i p.fa = none → s.movedIn i p.fa = none → s.closed i q p = true → Claims.Goes e s fun u =>
    u.mem = s.mem ∧ Claims.counted u i (s.dieNo i) p ∧ Claims.replied s u n fun r => Claims.answers i 8 p r ∧ r.val2 = 0x0D) ∧
  (s.spot n p = .serve q → s.behind p = true → exec e s = .next s) ∧
  (s.routeFor p = some h → p.dst ≠ s.dieNo i → h.origin ≠ s.dieNo i → p.hop < 16 → 4 ≤ h.next → Claims.Goes e s fun u =>
    Claims.crossed s u n p (h.next - 4) ∧ u.mem = s.mem) ∧
  (s.spot n p = .redirect no → (p.stamped = false → Claims.Goes e s fun u => u.mem = s.mem ∧ Claims.replied s u n bounced) ∧
    (p.stamped = true → p.also = [] → s.local? p.dst ≠ some i → Claims.Goes e s fun u => u.mem = s.mem ∧
      AMap.find u.net n = none ∧ (∃ r, AMap.find u.net (s.nextId + 1) = some r ∧ bounced r) ∧
      ∃ k, AMap.find u.net s.nextId = some k ∧ k.kind = 12 ∧ k.dst = p.dst ∧ k.origin = p.origin ∧ k.count = p.count))

/-- R176, R181, R182, R192 to R200: an atomic request at its home. A merged one is one operation on its location; of another, each lane in
turn gets the value it finds at its own location and leaves its result. The response carries the old values. A poisoned location stays as it
is, and its lane's value is poisoned. Two requests that may pair, queued in one switch (the router or a port's relay point), become one, with an
entry of that switch's wait buffer: the one that entered the switch first is the earlier, the counts of both come along, and
different tags leave the pair under tag 0. A request alone at a relay point goes on to the router. -/
def Obligations.AtomicRequests : Prop := ∀ (s : State) (n m a b e : Nat) (p k x y : Pkt) (o : AOp) (q : Route) (l l2 : Lane) (v : Move),
  let i := p.at_
  let seg := p.fa / 128 * 128
  let look (t : State) (off : Nat) := (List.range o.w).map fun j => t.byteAt (Route.physical q (seg + off + j))
  let old (t : State) (off : Nat) := leNat ((look t off).map (·.1))
  let bad (t : State) (off : Nat) := (look t off).any (·.2)
  let cells (off new : Nat) : List Host.Cell := Claims.placedAt q ((List.range o.w).map fun j => (seg + off + j, BitVec.ofNat 8 (new / 2 ^ (8 * j))))
  let after (t : State) (l : Lane) : State :=
    let cs := cells l.off (atomicOp o.op o.w (old t l.off) l.v (if p.comb then 0 else l.n) l.incs)
    { t with mem := Memory.writeAll t.mem cs, poison := poisonAfter t.poison cs [] }
  let fresh : Prop := s.spot n p = .serve q ∧ s.behind p = false ∧ s.stale i p = false
  let quiet : Prop := s.writeAdmits i p = true ∧ s.movedIn i p.fa = none ∧ s.moving i p.fa = none ∧ s.closed i q p = false ∧
    (s.die i).fwd = [] ∧ (s.die i).hostDir = []
  let run (P : State → Prop) : Prop := Claims.Goes (.atomicRequest n none) s P
  let answer (u : State) (P : Pkt → Prop) : Prop := Claims.replied s u n fun r => Claims.answers i 5 p r ∧ r.stamped = p.stamped ∧
    (p.stamped = true → r.view = (u.die i).applied) ∧ P r
  s.net.filter (fun c => c.1 == n) = [(n, p)] → n < s.nextId → p.kind = 2 → s.purged i p = false → p.aop = some o →
  (p.relay = false → p.sw = 0 → fresh → quiet → p.lanes = [l] → p.fa = seg + l.off →
    (bad s l.off = false → run fun u => u.mem = (after s l).mem ∧ u.poison = (after s l).poison ∧ Claims.counted u i (s.dieNo i) p ∧
      answer u fun r => r.val = old s l.off ∧ r.lanes = [if p.comb then l else { l with v := old s l.off, bad := false }] ∧ r.poisoned = false) ∧
    (bad s l.off = true → run fun u => u.mem = s.mem ∧ u.poison = s.poison ∧ Claims.counted u i (s.dieNo i) p ∧ answer u fun r => r.poisoned = true)) ∧
  (p.relay = false → p.sw = 0 → fresh → quiet → p.comb = false → p.lanes = [l, l2] → bad s l.off = false → bad (after s l) l2.off = false → run fun u =>
    u.mem = (after (after s l) l2).mem ∧ answer u fun r => r.lanes = [{ l with v := old s l.off, bad := false },
      { l2 with v := old (after s l) l2.off, bad := false }] ∧ r.poisoned = false) ∧
  (p.relay = false → p.sw = 0 → fresh → s.writeAdmits i p = false ∨ (s.movedIn i p.fa).isSome = true →
    (((s.die i).holdW.length < 2048 → run fun u => Claims.taken s u n ∧ (u.die i).holdW = (s.die i).holdW ++ [p] ∧ u.mem = s.mem) ∧
      (2048 ≤ (s.die i).holdW.length → run fun u => u.mem = s.mem ∧ Claims.replied s u n (Claims.answers i 14 p)))) ∧
  (p.relay = false → p.sw = 0 → fresh → s.writeAdmits i p = true → s.movedIn i p.fa = none → s.moving i p.fa = some v → run fun u =>
    Claims.taken s u n ∧ Claims.parkedIn s u i v p) ∧
  (p.relay = false → p.sw = 0 → s.spot n p = .serve q → s.behind p = false → s.stale i p = true → run fun u => Claims.taken s u n ∧ u.mem = s.mem) ∧
  (p.relay = false → p.sw ≠ 0 → run fun u => u.mem = s.mem ∧ AMap.find u.net n = some { p with sw := 0, came := s.now i, inp := 67 + p.sw }) ∧
  (p.relay = true → exec (.atomicRequest n none) s = .next s) ∧
  (AMap.find s.net m = some k → m ≠ n → k.kind = 2 → e < 128 → AMap.find (s.die i).pairs (128 * p.sw + e) = none →
    (∀ j, j < e → (AMap.find (s.die i).pairs (128 * p.sw + j)).isSome = true) →
    (if [p.came, p.inp, n] < [k.came, k.inp, m] then (x, a, y, b) = (p, n, k, m) else (x, a, y, b) = (k, m, p, n)) →
    pairable p k = true → apart x y = true → s.behind p = false → s.behind k = false → s.purged k.at_ k = false → x.trail.length < 16 →
    Claims.Goes (.atomicRequest n (some m)) s fun u => u.mem = s.mem ∧ AMap.find u.net b = none ∧
      (∃ z, AMap.find (u.die i).pairs (128 * p.sw + e) = some z ∧ z.early = x ∧ z.late = y ∧ z.born = s.now i) ∧
      ∃ r, AMap.find u.net a = some r ∧ r.kind = 2 ∧ r.fa = p.fa ∧ r.aop = x.aop ∧ r.acc = x.acc ∧ r.src = x.src ∧ r.dst = p.dst ∧ r.comb = true ∧
        r.trail = x.trail ++ [(s.dieNo i, x.sw, e)] ∧ r.stamped = x.stamped ∧
        r.lanes.map (fun c => (c.acc, c.v, c.incs)) = [(x.acc, combined o x.operand.1 y.operand.1, x.operand.2 + y.operand.2)] ∧
        (x.stamped = true → r.turns = x.turns ++ y.turns ∧ (∀ z h, View.get x.view z h ≤ View.get r.view z h) ∧
          ∀ z h, (h = x.dst → ∀ c ∈ x.turns, c.1 ≠ z) → View.get y.view z h ≤ View.get r.view z h) ∧
        (x.tag = y.tag → x.mixed = false → y.mixed = false → r.tag = x.tag ∧ r.mixed = false) ∧
        (x.tag ≠ y.tag ∨ x.mixed = true ∨ y.mixed = true → r.tag = 0 ∧ r.mixed = true))

/-- R194, R195, R196: combining is exact: for every operation that may be combined, performing the combined operand, and giving the later
party the value made from what came back, is the same as performing the two in turn. (`afadd` is combined as R195 allows: not exact.) -/
def Obligations.CombiningIsExact : Prop := ∀ (o : AOp) (old a b ca cb : Nat), o.w = 4 ∨ o.w = 8 → o.op < 13 → o.op ≠ 9 → o.op ≠ 10 →
  (o.op = 11 → o.w = 8) → old < 2 ^ (8 * o.w) → a < 2 ^ (8 * o.w) → b < 2 ^ (8 * o.w) → (o.op = 12 → a = b) → (o.op ≠ 12 → ca = 1 ∧ cb = 1) →
  let mid := atomicOp o.op o.w old a 0 ca
  laterGets o old a ca = mid ∧
    atomicOp o.op o.w old (combined o a b) 0 (if o.op = 12 then ca + cb else 1) = atomicOp o.op o.w mid b 0 cb

/-- A queue's control block follows it: pushes accepted and refused, and entries held, in bytes 32 to 47 (R289). -/
def Claims.blockOf (y : Queue) (m : List Host.Cell) : List Host.Cell :=
  if y.block = 0 then m
  else Memory.writeAll m (cellsAt (y.block + 32) (leBytes 8 y.accepted ++ leBytes 4 y.refused ++ leBytes 4 y.entries.length))

/-- R289 to R294, R377: a push at its queue's home takes the next entry, its record stands in the queue's storage, and its number is
acknowledged; with the queue full it is counted and refused; a home that is no queue refuses it with 0x1C; from another package it is a plain
write there. The queue's control block follows (where it stands in the package's own memory). A push that waits is sent again when its queue
has room and its group's threads may issue. -/
def Claims.Pushes : Prop := ∀ (s : State) (n k : Nat) (p : Pkt) (q : Route) (y : Queue) (a : Acc) (j : Nat),
  let i := p.at_
  let fresh : Prop := Claims.come s n 1 p ∧ p.push = true ∧ s.spot n p = .serve q ∧ s.stale i p = false
  let ready : Prop := fresh ∧ s.writeAdmits i p = true ∧ (q.cls = 2 ∨ p.src / 4 = s.pkg)
  let answer (kind : Nat) (P : State → Pkt → Prop) : Prop := Claims.Goes (.queuePush n) s fun u =>
    Claims.counted u i (s.dieNo i) p ∧ Claims.replied s u n fun r => Claims.answers i kind p r ∧ P u r
  let near : Prop := y.block = 0 ∨ (y.block / 2 ^ 48 / 4 = s.pkg ∧ ownMem y.block = true)
  let byte (k : Nat) : Byte := ((p.cells.find? fun c => c.1 == p.fa + k).map (·.2)).getD 0
  (ready → q.cls = 2 → s.queueAt i p.fa = some (k, y) → near →
    (y.entries.length < y.cap → answer 4 fun u r => r.val = y.accepted ∧ ∃ (z : Queue) (e : Entry), AMap.find u.queues k = some z ∧
      z.accepted = y.accepted + 1 ∧ z.refused = y.refused ∧ z.entries = y.entries ++ [e] ∧ e.num = y.accepted ∧ e.launch = none ∧
      ((∀ f ∈ y.entries, f.slot ≠ y.accepted % y.cap) → e.slot = y.accepted % y.cap) ∧
      (y.call = false → u.mem = Claims.blockOf z (Memory.writeAll s.mem ((List.range 64).map fun b => (y.storage + 64 * e.slot + b, byte b))))) ∧
    (y.cap ≤ y.entries.length → answer 8 fun u r => r.val2 = 0 ∧ ∃ z : Queue, AMap.find u.queues k = some z ∧
      z.refused = y.refused + 1 ∧ z.accepted = y.accepted ∧ z.entries = y.entries ∧ u.mem = Claims.blockOf z s.mem)) ∧
  (ready → q.cls ≠ 2 → answer 8 fun u r => r.val2 = 0x1C ∧ u.queues = s.queues ∧ u.mem = s.mem) ∧
  (fresh → q.cls ≠ 2 → p.src / 4 ≠ s.pkg → Claims.Goes (.queuePush n) s fun u => AMap.find u.net n = some { p with push := false } ∧ u.mem = s.mem) ∧
  (fresh → (q.cls = 2 ∨ p.src / 4 = s.pkg) → s.writeAdmits i p = false → (s.die i).holdW.length < 2048 → Claims.Goes (.queuePush n) s fun u =>
    Claims.taken s u n ∧ (u.die i).holdW = (s.die i).holdW ++ [p] ∧ u.queues = s.queues ∧ u.mem = s.mem) ∧
  (AMap.find s.accs n = some a → a.kind = .push → a.acked = true → s.local? a.home = some j → s.queueAt j a.fa = some (k, y) →
    (s.issuing a = false ∨ y.cap ≤ y.entries.length → exec (.pushRetry n) s = .next s) ∧
    (s.issuing a = true → y.entries.length < y.cap → Claims.Goes (.pushRetry n) s fun u =>
      (∃ b, AMap.find u.accs n = some b ∧ b.acked = false ∧ b.kind = .push ∧ b.fa = a.fa ∧ b.owner = a.owner) ∧ u.mem = s.mem ∧
      ∃ r, AMap.find u.net s.nextId = some r ∧ r.kind = 1 ∧ r.push = true ∧ r.acc = n ∧ r.dst = a.home ∧ r.cells = a.cells))

/-- R241, R242, R243, R326 to R328, R331: a forwarded write changes a replica's memory, marks its words while the replica fills, and raises
the counts its home's stream has carried; what another home sends before the end of that stream waits. A write parked during a move is
applied at the new home. A stamp extension is kept for its write, and raises the counts that travel with it, or raises those of a replica's
stream; a skip notice takes its count at its turn, and waits for it otherwise. Each crosses a direct link towards its die. -/
def Claims.StreamEvents : Prop := ∀ (s : State) (n : Nat) (p : Pkt) (q : Route) (h j : Nat),
  let i := p.at_
  let d := s.die i
  let come : Prop := Claims.come s n p.kind p
  let here : Prop := come ∧ s.local? p.dst = some i
  let x : Replica := AMap.getD d.replicas (q.pre, q.len) {}
  let now := View.get d.applied p.origin (s.dieNo i)
  let alone : Prop := (s.net.all fun e => !(decide (e.1 < n) && e.2.fwd && e.2.dst == p.dst)) = true
  let follows : Prop := here ∧ p.fwd = true ∧ p.kind = 16 ∧ p.parkedBy = none ∧ alone ∧
    (s.matching i p.fa).find? (fun r => r.cls == 1 && r.origin == s.dieNo i && r.pre == prefixOf r.len p.fa && (p.plen == 0 || r.len == p.plen)) = some q
  (follows → (x.src = none ∨ x.src = some p.src) → Claims.Goes (.forwardedWrite n) s fun u => Claims.taken s u n ∧ Claims.written s u i q { p with stamped := false } ∧
      ∃ z, AMap.find (u.die i).replicas (q.pre, q.len) = some z ∧ z.src = some p.src ∧ z.waiting = x.waiting ∧ (q.ready = true → z.marks = x.marks) ∧
        (q.ready = false → ∀ c ∈ Claims.placedAt q p.cells, c.1 / 4 * 4 ∈ z.marks) ∧ ∀ o h, View.get p.view o h ≤ View.get z.counts o h) ∧
  (follows → x.src ≠ none → x.src ≠ some p.src → Claims.Goes (.forwardedWrite n) s fun u => Claims.taken s u n ∧ u.mem = s.mem ∧
    AMap.find (u.die i).replicas (q.pre, q.len) = some { x with waiting := x.waiting ++ [p] }) ∧
  (here → p.fwd = true → p.kind = 16 → p.parkedBy = some h → alone → p.aop = none → p.stamped = false → s.servingRoute i p = some q →
    s.closed i q p = false → (∀ c ∈ Claims.placedAt q p.cells, s.marked i c.1 = false) → d.fwd = [] → d.hostDir = [] → Claims.Goes (.forwardedWrite n) s fun u =>
      Claims.written s u i q p ∧ Claims.replied s u n (Claims.answers i 4 p)) ∧
  (here → p.kind = 15 → p.fwd = false → Claims.Goes (.stampExtension n) s fun u => Claims.taken s u n ∧ u.mem = s.mem ∧
    (u.die i).exts = d.exts ++ [p] ∧ ∀ o h, h ≠ s.dieNo i → View.get p.view o h ≤ View.get (u.die i).applied o h) ∧
  (here → p.kind = 15 → p.fwd = true → (s.matching i p.fa).find? (fun r => r.cls == 1 && r.origin == s.dieNo i) = some q →
    Claims.Goes (.stampExtension n) s fun u => Claims.taken s u n ∧ u.mem = s.mem ∧
      ∃ z, AMap.find (u.die i).replicas (q.pre, q.len) = some z ∧ z.marks = x.marks ∧ ∀ o h, View.get p.view o h ≤ View.get z.counts o h) ∧
  (here → p.kind = 12 → (p.count ≤ now → Claims.Goes (.skipNotice n) s fun u => Claims.taken s u n ∧ u.mem = s.mem ∧ (u.die i).applied = d.applied) ∧
    (p.count = now + 1 → Claims.Goes (.skipNotice n) s fun u => Claims.taken s u n ∧ u.mem = s.mem ∧
      p.count ≤ View.get (u.die i).applied p.origin (s.dieNo i)) ∧
    (now + 1 < p.count → Claims.Goes (.skipNotice n) s fun u => Claims.taken s u n ∧ u.mem = s.mem ∧ (u.die i).applied = d.applied ∧
      (u.die i).skips = if (p.origin, p.count) ∈ d.skips then d.skips else d.skips ++ [(p.origin, p.count)])) ∧
  (∀ e, (e = .skipNotice n ∧ p.kind = 12) ∨ (e = .stampExtension n ∧ p.kind = 15) ∨ (e = .recallAcknowledgement n ∧ p.kind = 11) ∨
      (e = .forwardedWrite n ∧ p.kind = 16 ∧ p.fwd = true) → come → s.local? p.dst = some j → j ≠ i →
    Claims.Goes e s fun u => Claims.crossed s u n p j ∧ u.mem = s.mem)

/-- R200, R241, R242, R243, R318, R319, R328: a request in a hold buffer whose hold now admits it is served or applied; a combine entry is
freed 4,194,304 cycles after it was made; a home tells each listed replica the counts that have changed; the last acknowledgement of a recall,
or its limit, ends it: the line leaves the directory, unless a read has recorded it since, and the answers that waited leave. -/
def Claims.HomeEvents : Prop := ∀ (s : State) (n i e : Nat) (p : Pkt) (q : Route) (x : Pair) (l : HostLine) (pre len dst : Nat) (c : Nat),
  let d := s.die i
  let out := s.setDie i { d with holdW := d.holdW.filter (fun y => y != p), holdL := d.holdL.filter fun y => y != p }
  let new := d.applied.filter fun c => View.get (AMap.getD d.fwdSent (pre, len, dst) []) c.1.1 c.1.2 != c.2
  let ended (u : State) : Prop := (if l.holders = [] then ∀ h ∈ (u.die i).hostDir, h.line ≠ l.line
      else ∀ h ∈ (u.die i).hostDir, h.line = l.line → h = { l with waiting := [], writes := [] }) ∧ u.mem = s.mem ∧
    ∀ w ∈ l.writes, ∃ k, AMap.find u.net k = some w
  let apart : Prop := ∀ h ∈ d.hostDir, h.line ≠ l.line → ∀ w ∈ l.writes, w ∉ h.writes
  (i < 4 → n % 4 = i → (d.holdW ++ d.holdL)[n / 4]? = some p → out.purged i p = false → out.servingRoute i p = some q → out.behind p = false →
    (p.kind = 0 → p.push = false → p.cacheable = false → out.readAdmits i q p = true → Claims.Goes (.holdBufferAdmit n) s fun u =>
      u.mem = s.mem ∧ (u.die i).holdL = d.holdL.filter (fun y => y != p) ∧ ∃ r, AMap.find u.net s.nextId = some r ∧ Claims.bytes s i q p r) ∧
    (p.kind = 0 → out.readAdmits i q p = false → exec (.holdBufferAdmit n) s = .next s) ∧
    (p.kind = 1 ∨ p.kind = 16 → p.push = false → out.stale i p = false → Claims.applies out i q p → d.fwd = [] → d.hostDir = [] →
      Claims.Goes (.holdBufferAdmit n) s fun u => Claims.written s u i q p ∧ (u.die i).holdW = d.holdW.filter (fun y => y != p) ∧
        ∃ r, AMap.find u.net s.nextId = some r ∧ Claims.answers i 4 p r) ∧
    (p.kind = 1 ∨ p.kind = 16 → p.push = false → out.stale i p = false → out.writeAdmits i p = false → exec (.holdBufferAdmit n) s = .next s) ∧
    (p.kind ≠ 0 → out.stale i p = true → Claims.Goes (.holdBufferAdmit n) s fun u => u.mem = s.mem ∧ u.net = s.net ∧
      (u.die i).holdW = d.holdW.filter fun y => y != p) ∧
    (p.kind = 1 → p.push = true → out.stale i p = false → out.writeAdmits i p = true → Claims.Goes (.holdBufferAdmit n) s fun u =>
      u.mem = s.mem ∧ AMap.find u.net s.nextId = some { p with at_ := i })) ∧
  (AMap.find d.pairs e = some x → (s.now i < x.born + 4194304 → exec (.combineEntryExpiry i e) s = .next s) ∧
    (x.born + 4194304 ≤ s.now i → Claims.Goes (.combineEntryExpiry i e) s fun u =>
      AMap.find (u.die i).pairs e = none ∧ (∀ f, f ≠ e → AMap.find (u.die i).pairs f = AMap.find d.pairs f) ∧ u.net = s.net ∧ u.mem = s.mem)) ∧
  (d.fwdDue.isSome = true → d.fwd = [((pre, len), [dst])] → Claims.Goes (.countUpdateDeadline i) s fun u => (u.die i).fwdDue = none ∧ u.mem = s.mem ∧
    (new = [] → u.net = s.net) ∧ (new ≠ [] → ∃ r, AMap.find u.net s.nextId = some r ∧ r.kind = 15 ∧ r.dst = dst ∧ r.fwd = true ∧ r.view = new)) ∧
  (Claims.come s n 11 p → p.at_ = i → s.local? p.dst = some i → d.hostDir.find? (fun h => h.line == p.fa / 128) = some l →
    (l.waiting = [(p.src, c)] → apart → Claims.Goes (.recallAcknowledgement n) s fun u => ended u ∧ (l.writes = [] → Claims.taken s u n)) ∧
    (∀ a c', a ≠ p.src → l.waiting = [(p.src, c), (a, c')] → Claims.Goes (.recallAcknowledgement n) s fun u =>
      Claims.taken s u n ∧ { l with waiting := [(a, c')] } ∈ (u.die i).hostDir) ∧
    ((∀ w ∈ l.waiting, w.1 ≠ p.src) → Claims.Goes (.recallAcknowledgement n) s fun u => Claims.taken s u n ∧ (u.die i).hostDir = d.hostDir)) ∧
  (∀ h, d.hostDir.find? (fun y => y.line == e && y.waiting.any fun w => decide (w.2 + 4194304 ≤ s.now i)) = some l → l.waiting = [(h, c)] → apart →
    Claims.Goes (.recallTimeout i e) s fun u => ended u ∧ (u.die i).events = (1, e) :: d.events)

/-! ### Events of the network: what comes back (R82, R90, R175, R190, R191, R217, R242, R243, R290, R291, R294, R329, R346) -/

/-- Two threads that differ at most in what they wait for and from when they are ready. -/
def Claims.still (x y : Thread) : Prop := { x with status := y.status, since := y.since, notBefore := y.notBefore } = y

/-- An access of a thread whose group has one copy and stands where it stood when the access was made. -/
def Claims.ours (s : State) (id : Nat) (a : Acc) (t : ThreadId) : Prop :=
  AMap.find s.accs id = some a ∧ a.owner = .thread t ∧ t.sh = false ∧ a.core = coreOf t ∧ a.shadow = false ∧
    s.slotOf (gidOf t) a.gnum = some (gidOf t) ∧ (s.grp (gidOf t)).num = a.gnum ∧ (s.grp (gidOf t)).shadow = 0 ∧ (s.grp (gidOf t)).twin = none ∧
    (s.grp (gidOf t)).st ≠ .restoring ∧ (s.grp (gidOf t)).leaving = none ∧ (s.thr t).status ≠ .draining ∧
    AMap.find (s.die t.die).filter a.tag.toNat = none

/-- A packet has come back to the die of its requester, every step and every switch of its way behind it. -/
def Claims.home (s : State) (n kind : Nat) (p : Pkt) : Prop :=
  Claims.come s n kind p ∧ p.trail = [] ∧ p.back = [] ∧ s.local? p.dst = some p.at_

/-- A packet that answers one access of a thread, at the die that made the access. -/
def Claims.back (s : State) (n kind : Nat) (p : Pkt) (a : Acc) (t : ThreadId) (l : Lane) : Prop :=
  Claims.home s n kind p ∧ p.at_ = t.die ∧ p.lanes = [l] ∧ l.acc = p.acc ∧ Claims.ours s p.acc a t

/-- Nothing waits for the access any longer: it is gone, and so is its response; memory is as it was. -/
def Claims.finished (s u : State) (n id : Nat) : Prop :=
  AMap.find u.net n = none ∧ AMap.find u.accs id = none ∧ (∀ k, k ≠ id → AMap.find u.accs k = AMap.find s.accs k) ∧ u.mem = s.mem

/-- The bytes an access asked for, from the response's, with their poison. -/
def Claims.read (a : Acc) (p : Pkt) : List (Byte × Bool) :=
  (List.range a.len).map fun k => (((p.cells.find? fun c => c.1 == a.fa + k).map (·.2)).getD 0, p.pois.contains ((a.fa + k) / 4 * 4))

/-- R175, R176, R179, R191, R217, R242, R294: data and old values reach the registers that wait for them, of each lane of a vector packet,
and the counts that came with them the view of the access's path; an acknowledgement ends a store, and gives a push its number; the length of a
queue reaches its register; a byte read for the part's own work stands ready for it. A response whose access has gone is discarded. -/
def Claims.ResponsesArrive : Prop := ∀ (s : State) (n : Nat) (p : Pkt) (a b : Acc) (t w : ThreadId) (l l2 : Lane),
  let th := s.thr t
  let seen (u : State) : Prop := p.stamped = true → ∀ o h, View.get p.view o h ≤ View.get (u.view a.core a.path) o h
  let gets (e : Instr) (rs : List Reg) : Prop := Claims.Goes e s fun u => Claims.finished s u n p.acc ∧ seen u ∧
    Claims.still (u.thr t) (th.receive (s.now t.die) a.dest rs) ∧ (th.status = .waiting (.resp p.acc) → (u.thr t).status = .ready) ∧
    ∀ w, w ≠ t → Claims.still (u.thr w) (s.thr w)
  let told (e : Instr) (w : Word) : Prop := Claims.Goes e s fun u => Claims.finished s u n p.acc ∧ (u.thr t).port = some (.ok [{ v := w }]) ∧
    ∀ x, th.status = .waiting x → (u.thr t).status = .ready
  (Claims.back s n 3 p a t l → a.kind = .load → a.cells = [] → gets (.readResponse n) (loadRegs a.len a.signed (Claims.read a p))) ∧
  (Claims.home s n 3 p → p.at_ = t.die → t.die = w.die → t ≠ w → p.lanes = [l, l2] → l.acc ≠ l2.acc → Claims.ours s l.acc a t → Claims.ours s l2.acc b w →
    a.kind = .load → b.kind = .load → a.cells = [] → b.cells = [] → Claims.Goes (.readResponse n) s fun u =>
      AMap.find u.accs l.acc = none ∧ AMap.find u.accs l2.acc = none ∧
      Claims.still (u.thr t) (th.receive (s.now t.die) a.dest (loadRegs a.len a.signed (Claims.read a p))) ∧
      Claims.still (u.thr w) ((s.thr w).receive (s.now w.die) b.dest (loadRegs b.len b.signed (Claims.read b p)))) ∧
  (Claims.back s n 3 p a t l → a.kind = .qlen → told (.readResponse n) (BitVec.ofNat 32 p.val)) ∧
  (Claims.back s n 3 p a t l → a.kind = .sync → a.cells = [] → Claims.Goes (.readResponse n) s fun u => Claims.finished s u n p.acc ∧
    u.syncBuf = s.syncBuf ++ (Claims.read a p).zipIdx.map fun b => (a.owner, a.fa + b.2, b.1)) ∧
  (Claims.back s n 4 p a t l → a.kind = .store → Claims.Goes (.writeAcknowledgement n) s fun u =>
    Claims.finished s u n p.acc ∧ ∀ w, Claims.still (u.thr w) (s.thr w)) ∧
  (Claims.back s n 4 p a t l → a.kind = .push → told (.writeAcknowledgement n) (BitVec.ofNat 32 p.val)) ∧
  (Claims.back s n 5 p a t l → a.kind = .atomic → p.aop.isSome = true → gets (.atomicResponse n)
    (loadRegs a.len false ((leBytes a.len (if p.comb then p.val else l.v)).map fun b => (b, if p.comb then p.poisoned else l.bad)))) ∧
  (∀ e k, (e, k) ∈ [(Instr.readResponse n, 3), (.writeAcknowledgement n, 4), (.atomicResponse n, 5)] → Claims.home s n k p → p.lanes = [l] →
    AMap.find s.accs l.acc = none → exec e s = .next (s.delPkt n))

/-- R195, R196, R199, R200: a response takes its request's steps back, last step first. At a switch that made a pair of requests it
becomes one response to each, which goes on as that party's request came: of an atomic, the earlier party receives the value that came back
and the later one the value made from it; a purged party receives none. The entry is then free; a response whose entry has been freed, or
made again for others, is discarded. -/
def Claims.ResponsesReturn : Prop := ∀ (s : State) (n j sw e : Nat) (p : Pkt) (o : AOp) (x : Pair) (l : List Hop) (tr : List (Nat × Nat × Nat)),
  let i := p.at_
  let kinds : List (Instr × Nat) := [(.readResponse n, 3), (.writeAcknowledgement n, 4), (.atomicResponse n, 5), (.redirect n, 6), (.moved n, 7),
    (.refused n, 8), (.poisonedResponse n, 9), (.holdRetry n, 14)]
  let part (q : Pkt) (v : Nat) (r : Pkt) : Prop := r.kind = p.kind ∧ r.at_ = i ∧ r.acc = q.acc ∧ r.dst = q.src ∧ r.tag = q.tag ∧ r.mixed = q.mixed ∧
    r.trail = q.trail ∧ r.back = q.back ∧ r.lanes = q.lanes ∧ r.comb = q.comb ∧ r.poisoned = p.poisoned ∧ r.view = p.view ∧
    r.val = (if p.kind = 5 then v else p.val)
  let split : Prop := p.back = [] ∧ p.trail = tr ++ [(s.dieNo i, sw, e)] ∧ i < 4
  ∀ ev k, (ev, k) ∈ kinds → Claims.come s n k p →
  (p.back = .die j :: l → exec ev s = .next (s.setPkt n { p with at_ := j, back := l })) ∧
  (split → p.aop = some o → AMap.find (s.die i).pairs (128 * sw + e) = some x → x.early.acc = p.acc → x.early.src = p.dst →
    let late := laterGets o p.val x.early.operand.1 x.early.operand.2
    Claims.Goes ev s fun u => u.mem = s.mem ∧ AMap.find u.net n = none ∧ AMap.find (u.die i).pairs (128 * sw + e) = none ∧
      (x.killE = false → x.killL = false → (∃ r, AMap.find u.net s.nextId = some r ∧ part x.early p.val r) ∧
        ∃ r, AMap.find u.net (s.nextId + 1) = some r ∧ part x.late late r) ∧
      (x.killE = false → x.killL = true → ∃ r, AMap.find u.net s.nextId = some r ∧ part x.early p.val r) ∧
      (x.killE = true → x.killL = false → ∃ r, AMap.find u.net s.nextId = some r ∧ part x.late late r)) ∧
  (split → (∀ x, AMap.find (s.die i).pairs (128 * sw + e) = some x → x.early.acc ≠ p.acc ∨ x.early.src ≠ p.dst) → exec ev s = .next (s.delPkt n))

/-- R180, R190, R243, R255, R294, R329: a redirect or a moved answer sends an access again towards the die it names; the fourth fails it, and
so does one that names none where the die has no route: a load's or an atomic's registers are poisoned and its thread gets 0x0F, a store is
discarded and its thread gets 0x1A, and a queue instruction raises 0x1A. A load waits with that until its thread's earlier loads of its
bytes have returned. A hold retry is no redirect: the access is sent again, as it was, 256 cycles after it. -/
def Claims.Redirects : Prop := ∀ (s : State) (n kind : Nat) (e : Instr) (p : Pkt) (a : Acc) (t : ThreadId) (l : Lane),
  let th := s.thr t
  let report (cause : Nat) : Report :=
    { t, gnum := a.gnum, cause := BitVec.ofNat 8 cause, va := BitVec.ofNat 64 a.va, tag := a.tag, region := (s.grp (gidOf t)).region }
  let first : Prop := ∀ b ∈ s.accs, b.2.owner = a.owner → p.acc ≤ b.1
  let ends : Prop := 3 ≤ a.redirects ∨ (p.val = 0xFFFF ∧ (if a.kind = .load then s.loadRoute t.die a.fa else s.homeRoute t.die a.fa) = none)
  ((e, kind) = (.redirect n, 6) ∨ (e, kind) = (.moved n, 7) → Claims.back s n kind p a t l →
    (first → a.redirects < 3 → p.val ≠ 0xFFFF → Claims.Goes e s fun u => u.mem = s.mem ∧ AMap.find u.net n = none ∧
      (∃ b, AMap.find u.accs p.acc = some b ∧ b.redirects = a.redirects + 1 ∧ b.home = p.val ∧ b.plen = p.val2 ∧ b.kind = a.kind ∧ b.owner = a.owner) ∧
      ∃ r, AMap.find u.net s.nextId = some r ∧ r.dst = p.val ∧ r.plen = p.val2 ∧ r.acc = p.acc ∧ r.retry = true ∧ r.fa = a.fa) ∧
    (first → ends → (a.kind = .load ∨ a.kind = .atomic) → Claims.Goes e s fun u => Claims.finished s u n p.acc ∧ u.reports = s.reports ++ [report 0x0F] ∧
      ∃ rs : List Reg, rs.length = a.dest.length ∧ (∀ r ∈ rs, r.p = true) ∧ Claims.still (u.thr t) (th.receive (s.now t.die) a.dest rs)) ∧
    (ends → a.kind = .store → Claims.Goes e s fun u => Claims.finished s u n p.acc ∧ u.reports = s.reports ++ [report 0x1A] ∧
      Claims.still (u.thr t) th) ∧
    (ends → a.kind = .push ∨ a.kind = .qlen → Claims.Goes e s fun u => Claims.finished s u n p.acc ∧
      (u.thr t).port = some (.bad 0x1A (BitVec.ofNat 64 a.va))) ∧
    (∀ m b, (m, b) ∈ s.accs → m < p.acc → a.kind = .load → b.kind = .load → b.owner = a.owner → b.gnum = a.gnum → b.va < a.va + a.len → a.va < b.va + b.len →
      exec e s = .next s)) ∧
  (Claims.back s n 14 p a t l → Claims.Goes (.holdRetry n) s fun u => Claims.taken s u n ∧ u.mem = s.mem ∧
    AMap.find u.accs p.acc = some { a with resend := some (s.now t.die + 256) }) ∧
  (∀ till, AMap.find s.accs n = some a → a.resend = some till → (s.now a.core.die < till → exec (.holdRetryResend n) s = .next s) ∧
    (till ≤ s.now a.core.die → s.accs.filter (fun b => b.2.lead == a.lead && b.2.core == a.core) = [(n, a)] → Claims.Goes (.holdRetryResend n) s fun u =>
      u.mem = s.mem ∧ AMap.find u.accs n = some { a with resend := none } ∧
      ∃ r, AMap.find u.net s.nextId = some r ∧ r.dst = a.home ∧ r.acc = n ∧ r.count = a.count ∧ r.view = a.view ∧ r.stamped = a.stamped))

/-- R90, R191, R290, R291, R346, R352: a refused `qtry` gets 0xFFFF_FFFF, a refused `qpush` keeps waiting; any other refusal is a fault of
its thread. A poisoned response, and 4,194,304 cycles without one, lose the access: a load's or an atomic's registers are poisoned and its tag
marked, a queue instruction's result is poisoned, a store counts as complete. -/
def Claims.FailedAccesses : Prop := ∀ (s : State) (n : Nat) (p : Pkt) (a : Acc) (t : ThreadId) (l : Lane),
  let th := s.thr t
  let answer (P : State → Prop) : Prop := Claims.Goes (.refused n) s fun u => Claims.finished s u n p.acc ∧ P u
  let report : Report :=
    { t, gnum := a.gnum, cause := 0x0D, va := BitVec.ofNat 64 a.va, tag := a.tag, region := (s.grp (gidOf t)).region }
  let lost (e : Instr) (id : Nat) (P : State → Prop) : Prop := Claims.Goes e s fun u => AMap.find u.accs id = none ∧ P u
  let poisons (m : Bool) (u : State) : Prop := ∃ rs : List Reg, rs.length = a.dest.length ∧ (∀ r ∈ rs, r.p = true) ∧
    Claims.still (u.thr t) { th.receive (s.now t.die) a.dest rs with marked := m }
  let loses (e : Instr) (id : Nat) : Prop :=
    (a.kind = .load ∨ a.kind = .atomic → lost e id (poisons true)) ∧
    (a.kind = .store → lost e id fun u => Claims.still (u.thr t) th) ∧
    (a.kind = .push ∨ a.kind = .qlen → lost e id fun u => ∃ r : Reg, r.p = true ∧ (u.thr t).port = some (.ok [r]))
  (Claims.back s n 8 p a t l → a.kind = .push →
    (p.val2 = 0 → a.hint = 1 → answer fun u => (u.thr t).port = some (.ok [{ v := 0xFFFFFFFF }])) ∧
    (p.val2 = 0 → a.hint ≠ 1 → Claims.Goes (.refused n) s fun u => Claims.taken s u n ∧ AMap.find u.accs p.acc = some { a with acked := true } ∧
      u.threads = s.threads) ∧
    (p.val2 ≠ 0 → answer fun u => (u.thr t).port = some (.bad p.val2 (BitVec.ofNat 64 a.va)))) ∧
  (Claims.back s n 8 p a t l → a.kind = .qlen → answer fun u => (u.thr t).port = some (.bad p.val2 (BitVec.ofNat 64 a.va))) ∧
  (Claims.back s n 8 p a t l → a.kind = .store → answer fun u => Claims.still (u.thr t) th ∧ u.reports = s.reports ++ [report]) ∧
  (Claims.back s n 8 p a t l → a.kind = .atomic → answer fun u => poisons th.marked u ∧ u.reports = s.reports ++ [report]) ∧
  (Claims.back s n 9 p a t l → loses (.poisonedResponse n) p.acc) ∧
  (Claims.ours s n a t → a.home ≠ s.dieNo t.die →
    (s.now t.die < a.born + 4194304 → exec (.accessExpiry n) s = .next s) ∧
    (a.kind = .push → a.acked = true → exec (.accessExpiry n) s = .next s) ∧
    (a.born + 4194304 ≤ s.now t.die → a.acked = false → loses (.accessExpiry n) n))

/-! ### Events of the engines, the matrix units and the dependency table (R69, R202, R204, R206, R210, R211, R218, R222, R227, R231, R233, R238) -/

/-- The commands an engine may have in flight at once (R202). -/
def Claims.room : EngineId → Nat
  | .copy _ _ => 4
  | .chain _ _ => 2
  | .psum _ _ => 1
  | .walk _ _ => 4

/-- R202, R206, R210: an engine starts the oldest command it has queued while it may have more in flight (a `cpym` that only waits for its
unit is none); a copy waits for one of its engine whose destination its own ranges meet, and for an `rsort` that does not know its own yet. -/
def Claims.EngineStart : Prop := ∀ (s : State) (e : EngineId) (c : Cmd) (q : List Cmd),
  let x := s.engine e
  let fly := x.fly.filter fun k => !k.waiting
  let copies : Prop := ∃ d k, e = .copy d k
  let start : Prop := exec (.engineCommandStart e) s = .next ((s.setEngine e { x with q, fly := x.fly ++ [{ c with started := true }] }).go (.engine e c.num))
  let apart (x y : Int × Int) : Prop := ∀ b : Int, ¬((x.1 ≤ b ∧ b < x.2) ∧ y.1 ≤ b ∧ b < y.2)
  x.q = c :: q → (Claims.room e ≤ fly.length → exec (.engineCommandStart e) s = .next s) ∧
    (fly.length < Claims.room e → (fly = [] ∨ ¬copies) → start) ∧
    (fly.length < Claims.room e → (∀ a ∈ fly, (a.fn ≠ 4 ∨ a.j ≠ 0 ∨ a.done = true) ∧ ∀ D ∈ destRanges a, ∀ r ∈ startRanges c, D.2 ≤ r.1 ∨ r.2 ≤ D.1) → start) ∧
    (copies → (∃ a ∈ fly, ∃ D ∈ destRanges a, ∃ r ∈ startRanges c, ¬apart D r) → exec (.engineCommandStart e) s = .next s) ∧
    (copies → (∃ a ∈ fly, a.fn = 4 ∧ a.j = 0 ∧ a.done = false) → exec (.engineCommandStart e) s = .next s)

/-- R204, R211, R217, R218: a command of an engine with nothing left to do completes: it raises the counter its control word names, once,
and leaves every `drain`; the follow-on of a `cpym` goes to its partition's matrix unit, or waits until that can take it, when the copy itself
is complete and others complete beside it; that of a copy that was stopped never goes. -/
def Claims.EngineCompletion : Prop := ∀ (s : State) (e : EngineId) (c k : Cmd) (q : List Cmd),
  let x := s.engine e
  let w := ctlWord (.engine e c.num) c
  let unit (s : State) (c : Cmd) := (s.part ⟨c.core.die, c.core.core, c.part⟩).unit
  let u := unit s c
  let full (c : Cmd) : Prop := 8 ≤ (unit s c).q.length ∨ ∃ o, (unit s c).bound = some o ∧ o ≠ c.gnum
  let ends (P : State → Prop) : Prop := Claims.Goes (.engineCommandComplete e) s fun t => t.mem = s.mem ∧ (t.engine e).q = x.q ∧ P t
  let raised (t : State) : Prop :=
    (ctlMode w = 1 → c.stopped = false → t.ctr c.core (ctlCounter w) = ctrAdd (s.ctr c.core (ctlCounter w)) 1) ∧
    (ctlMode w ≠ 1 ∨ c.stopped = true → t.ctr c.core = s.ctr c.core) ∧
    ∀ v, (s.thr v).status = .waiting (.drain [c.num]) → (t.thr v).status = .ready
  c.done = true → c.outs = [] →
  (x.fly = [c] → c.fn ≠ 1 → ends fun t => (t.engine e).fly = [] ∧ raised t) ∧
  (x.fly = [k, c] → c.fn ≠ 1 → k.num ≠ c.num → k.fn = 1 → k.waiting = true → k.done = true → k.stopped = false → full k → ends fun t =>
    (t.engine e).fly = [k] ∧ raised t) ∧
  (x.fly = [c] → c.fn = 1 → c.stopped = false → q = u.q → u.bound = none ∨ u.bound = some c.gnum → u.q.length < 8 →
    ends fun t => (t.engine e).fly = [] ∧ (c.waiting = false → raised t) ∧
      (unit t c).bound = some c.gnum ∧ (unit t c).accepted = u.accepted + 1 ∧ ∃ f, (unit t c).q = q ++ [f] ∧ f.fn = (c.extra.getD 0 0).toNat ∧
        f.tup = (c.extra.drop 1).take (if f.fn = 0 then 3 else 4) ∧ f.num = c.num + 1 ∧ f.owner = c.owner ∧ f.gnum = c.gnum ∧ f.tag = c.tag) ∧
  (x.fly = [c] → c.fn = 1 → c.stopped = false → full c → (c.waiting = false → ends fun t => (t.engine e).fly = [{ c with waiting := true }] ∧ raised t) ∧
    (c.waiting = true → exec (.engineCommandComplete e) s = .next s)) ∧
  (x.fly = [c] → c.fn = 1 → c.stopped = true → ends fun t => (t.engine e).fly = [] ∧ (t.part ⟨c.core.die, c.core.core, c.part⟩).unit = u ∧
    ∀ v, (s.thr v).status = .waiting (.drain [c.num + 1]) → (t.thr v).status = .ready)

/-- The dot product of a column of weights with a row's elements (R69). -/
def Claims.dot (a w : List Int) : Int := ((a.zip w).map fun p => p.1 * p.2).sum

/-- R69, R204, R221, R222, R227, R231 to R233: a matrix unit performs its commands one at a time, the oldest first, but for a `tstat` behind
an `mma` in a ragged wait; an `mma` of a bank that is not loaded stops before it fills a row; a filled row is added to its accumulators unless a
word of it is poisoned or its exponent is not theirs (the trapval of either stop is a free value); a command that is done leaves the queue and
raises its counter; `tclr` with its release bit, and the last command of a group that has retired, free the unit. -/
def Obligations.MatrixEvents : Prop := ∀ (s : State) (p : PartId) (c k : Cmd) (q r : List Cmd) (e : Nat) (l : List Nat),
  let u := (s.part p).unit
  let o : Owner := .unit p c.num
  let m := mmaOf c.tup
  let w := ctlWord o c
  let row (t : State) : Prop := exec (.mmaRowStep p) s = .next t
  let stops : Prop := ∃ v : BitVec 64, row ({ s with freeCtr := s.freeCtr + 1 }.jobFail o 0x18 v.toNat)
  let agrees : Prop := m.clear = true ∨ (u.row c.j).clear = true ∨ (u.row c.j).e = m.e
  let alive : Prop := s.alive (gidOf c.owner) c.gnum = true
  u.q = c :: q →
  (c.started = false → exec (.matrixCommandStart p) s = .next ((s.setCmd o { c with started := true }).go o)) ∧
  (c.started = true → c.fn ≠ 1 ∨ c.waiting = false → exec (.matrixCommandStart p) s = .next s) ∧
  (c.started = true → c.fn = 1 → c.waiting = true → c.done = false → q = k :: r → k.fn = 5 → k.started = false →
    exec (.matrixCommandStart p) s = .next ((s.setCmd (.unit p k.num) { k with started := true }).go (.unit p k.num))) ∧
  (c.fn = 1 → c.started = true → c.done = false → c.outs = [] → c.hi = 0 → c.aux = e :: l → c.j < e →
    (s.core c.core).fbuf.any (fun f => f.owner == o) = false → (∃ b, b < m.nb ∧ (u.bank (m.b0 + b)).loaded = false) → stops) ∧
  (c.fn = 1 → c.started = true → c.done = false → c.outs = [] → c.hi = 1 →
    (c.buf.any (·.2.2) = true → row (s.jobConsume o)) ∧
    (c.buf.any (·.2.2) = false → ¬agrees → stops) ∧
    (c.buf.any (·.2.2) = false → agrees → (mmaRow u c).2 = false → ctlMode w ≠ 2 →
      row (((s.setUnit p (mmaRow u c).1).setCmd o { c with j := c.j + 1, hi := 0, buf := [] }).go o))) ∧
  (∀ (r : Nat), r ≠ c.j → (mmaRow u c).1.row r = u.row r) ∧ (mmaRow u c).1.q = u.q ∧ (mmaRow u c).1.banks = u.banks ∧
  (∀ n, n < 128 → m.i8 = true → m.nb = 1 → m.clear = true → (∀ g, g < 4 → ((u.bank m.b0).block n g).1 = 133) → m.e = 0 →
    (∀ g, g < 4 → ∀ v ∈ ((u.bank m.b0).block n g).2, -127 ≤ v ∧ v ≤ 127) → m.p = 8 →
    ((mmaRow u c).1.row c.j).accAt n = ((List.range 4).map fun g =>
      Claims.dot ((c.gather (m.x + c.j * 128 + 32 * g) 32).map fun x => x.1.toInt) (((u.bank m.b0).block n g).2)).sum) ∧
  (c.done = true → c.outs = [] → (q.all fun k => k.num != c.num) = true → Claims.Goes (.matrixCommandComplete p) s fun t => let v := (t.part p).unit
    let frees : Prop := c.fn = 3 ∧ (tw c.tup 0).testBit 13 = true ∧ c.stopped = false
    v.q = q ∧ t.mem = s.mem ∧ (ctlMode w = 1 → c.stopped = false → t.ctr c.core (ctlCounter w) = ctrAdd (s.ctr c.core (ctlCounter w)) 1) ∧
    (∀ x, (s.thr x).status = .waiting (.drain [c.num]) → (t.thr x).status = .ready) ∧
    (¬frees → q ≠ [] ∨ alive → v = { u with q }) ∧
    (frees ∨ (q = [] ∧ ¬alive) → v.rows = [] ∧ v.banks = [] ∧ v.bound = (if q = [] then none else some c.gnum)))

/-- R238, R279: the dependency table issues a ready task to a target that accepts it, high class first and then in order of registration; one
its target cannot accept holds back the later ones of its class for that target, no others; one whose group has retired or has been ended
by a fault is discarded; with nothing that can be issued, nothing happens. -/
def Claims.TaskIssue : Prop := ∀ (s t : State) (c : CoreId) (e f : Nat) (k m : Task),
  let ready := (s.core c).tasks.filter (fun e => e.2.ready)
  let live (k : Task) : Prop := s.alive (gidOf k.cmd.owner) k.cmd.gnum = true ∧ ∀ g ∈ s.groups, g.2.num = k.cmd.gnum → g.2.faulted = false
  let issue := exec (.tileTaskIssue c) s
  (ready = [(e, k)] → live k →
    (s.issueTask c k = some t → issue = .next (t.delTask c e)) ∧ (s.issueTask c k = none → issue = .next s) ∧
    (k.target = 2 → s.tagOk k.cmd.region k.cmd.tag.toNat = true → recordOk (taskRecord k) = true →
      Claims.Goes (.tileTaskIssue c) s fun u => AMap.find (u.core c).tasks e = none ∧ u.mem = s.mem ∧ ∃ x, AMap.find u.launches s.nextId = some x ∧
        x.phase = 4 ∧ x.count = 1 ∧ x.core = some c ∧ x.region = k.cmd.region ∧ x.words = taskRecord k ∧ x.invalid = false)) ∧
  (ready = [(e, k)] → ¬live k → Claims.Goes (.tileTaskIssue c) s fun u => AMap.find (u.core c).tasks e = none ∧
    u.copies = s.copies ∧ u.parts = s.parts ∧ u.launches = s.launches) ∧
  (ready = [(e, k), (f, m)] ∨ ready = [(f, m), (e, k)] → live k → live m → (k.high = true ∧ m.high = false) ∨ (k.high = m.high ∧ k.num < m.num) →
    (s.issueTask c k = some t → issue = .next (t.delTask c e)) ∧
    (s.issueTask c k = none → k.high ≠ m.high ∨ targetOf c k ≠ targetOf c m → s.issueTask c m = some t → issue = .next (t.delTask c f)) ∧
    (s.issueTask c k = none → k.high = m.high → targetOf c k = targetOf c m → issue = .next s))

/-! ### Events of groups (R77, R220, R221, R263, R269, R270, R273-R281, R296, R297, R303) -/

/-- A thread that is saved, parked, at a barrier, or waits for something no register holds (R277). -/
def Claims.longWait : Status → Bool
  | .saved => true
  | .parked => true
  | .barrier _ => true
  | .waiting (.engine _) => true
  | .waiting (.push _) => true
  | _ => false

/-- Every live thread of a group is in such a state. -/
def Claims.away (s : State) (g : GroupId) (f : Status → Bool) : Prop :=
  ∀ e ∈ s.threads, gidOf e.1 = g → liveThr e.2 = true → f e.2.status = true

/-- A record that stands for itself: no valid record before it has it as its partner. -/
def Claims.leads (s : State) (die rec : Nat) : Prop := rec = 0 ∨ (s.bind die (rec - 1)).valid = false ∨ (s.bind die (rec - 1)).partner = false

/-- A group stands at a slot as dispatch binds it: its number, region, privilege and tag, and its vault allocation at a multiple of 256 in near
space; its threads at the entry address, with x0 and x1 from the launch or the words of the closure; its barriers expecting every thread; the
views of the core's paths with the launch's. -/
def Claims.boundAt (s u : State) (g : GroupId) (l : Launch) (x : Group) : Prop :=
  (∃ y, AMap.find u.groups g = some y ∧ y.num = x.num ∧ y.region = x.region ∧ y.sys = x.sys ∧ y.tag = x.tag ∧ y.threads = l.threads ∧ y.st = .resident ∧
    y.bound = s.now g.die ∧ y.vbase.toNat % 256 = 0 ∧ y.vbase.toNat < 2 ^ 32 ∧ y.block = x.block ∧ y.faulted = false) ∧
  (∀ t, t < l.threads → let th := u.thr ⟨g.die, g.core, g.slot, t, false⟩
    th.status = .ready ∧ th.tag = x.tag ∧ th.preds = (({} : Thread)).preds ∧ (l.env = none → th.pc = BitVec.ofNat 64 (x.header + hdr l.header 8 4) ∧
      th.reg 0 = { v := l.words.getD 4 0 } ∧ th.reg 1 = { v := l.words.getD 5 0 } ∧ ∀ k, 2 ≤ k → th.reg k = {}) ∧
    (∀ a ws, l.env = some (a, ws) → th.pc = a ∧ ∀ k, k < ws.length → th.reg k = ws.getD k {})) ∧
  (∀ n, n < x.nbar → (u.bar g n).e = l.threads ∧ (u.bar g n).c = 0) ∧
  ∀ path, path < 6 → ∀ o h, View.get l.view o h ≤ View.get (u.view ⟨g.die, g.core⟩ path) o h

/-- R270, R281, R282, R293, R296, R301, R306: dispatch binds the group of a valid record at its slot when every condition of R270 is met; the
first condition that is not met stands in the status of a record refused. For the first group of a launch it reads the kernel header first. A
block pair is bound from its first record, both copies with one vault address, the second copy's block directly after the first's. A record
whose launch a purge has ended is given up, and none of a stopped domain is acted on. -/
def Claims.GroupBinding : Prop := ∀ (s s1 : State) (die rec : Nat) (l k : Launch) (bs : List (Byte × Bool)) (e : DWord × List Reg) (s2 : State),
  let r := s.bind die rec
  let r2 := s.bind die (rec + 1)
  let c : CoreId := ⟨die, r.core⟩
  let c2 : CoreId := ⟨die, r2.core⟩
  let g : GroupId := ⟨die, r.core, r.slot⟩
  let h : GroupId := ⟨die, r2.core, r2.slot⟩
  let x := { s.newGroup r.launch l r.num with block := r.block }
  let live := List.range ((l.threads + 31) / 32)
  let acts : Prop := Claims.leads s die rec ∧ r.valid = true ∧ r.restore = false ∧ r.status % 256 ≠ 1
  let ours : Prop := acts ∧ s.halted r.region = false ∧ AMap.find s.launches r.launch = some l ∧ l.phase = 4
  let row := s.unmet c r.slot x live none (r.partner && r2.valid && otherCluster r.core r2.core)
  let goes (P : State → Prop) : Prop := Claims.Goes (.groupBind die rec) s P
  let counts (u : State) (n : Nat) : Prop := ∃ k, AMap.find u.launches r.launch = some k ∧ k.live = l.live + 1 ∧ k.next = l.next ∧ k.gnums.length = l.gnums.length + n
  let reads : Prop := ours ∧ l.dead = false ∧ l.header = [] ∧ s.launchRead r.launch l (la l.words 2) 256 = .ok s1 bs ∧
    AMap.find s1.launches r.launch = some k ∧ ∀ b ∈ bs, b.2 = false
  (ours → l.dead = false → l.header ≠ [] → x.shadow = 0 →
    (row ≠ 0 → goes fun u => u.bind die rec = { r with status := 2 + 256 * row } ∧ u.groups = s.groups ∧ u.threads = s.threads) ∧
    (row = 0 → goes fun u => u.bind die rec = { r with valid := false, status := 1 } ∧ u.mem = s.mem ∧ counts u 1 ∧ Claims.boundAt s u g l x)) ∧
  (ours → l.dead = false → l.header ≠ [] → x.shadow = 2 → r.partner = true → r2.valid = true → otherCluster r.core r2.core = true →
    s.unmet c r.slot x live none true = 0 → s.unmet c2 r2.slot x live none true = 0 →
    goes fun u => u.bind die rec = { r with valid := false, status := 1 } ∧ u.bind die (rec + 1) = { r2 with valid := false, status := 1 } ∧ u.mem = s.mem ∧
      counts u 2 ∧ Claims.boundAt s u g l x ∧ Claims.boundAt s u h l { x with num := r2.num, block := r.block + blockSize x } ∧
      (u.grp g).twin = some h ∧ (u.grp h).twin = some g ∧ (u.grp h).isShadow = true ∧ (u.grp h).vbase = (u.grp g).vbase) ∧
  (acts → r.partner = true → exec (.groupBind die (rec + 1)) s = exec (.groupBind die rec) s) ∧
  (reads → headerOk (bs.map (·.1)) = true → recordKind l.words ≠ 1 →
    exec (.groupBind die rec) s = exec (.groupBind die rec) (s1.setLaunch r.launch { k with header := bs.map (·.1) })) ∧
  (reads → headerOk (bs.map (·.1)) = true → recordKind l.words = 1 → l.count ≠ 0 → s1.taskEnv l.die (la l.words 4) = (s2, some e) →
    exec (.groupBind die rec) s = exec (.groupBind die rec) (s2.setLaunch r.launch { k with header := bs.map (·.1), env := some e })) ∧
  (reads → headerOk (bs.map (·.1)) = false → exec (.groupBind die rec) s = .next (s1.invalidate r.launch k)) ∧
  (ours → l.dead = true → r.partner = false → goes fun u => u.bind die rec = { r with valid := false } ∧ u.groups = s.groups) ∧
  (acts → s.halted r.region = true → exec (.groupBind die rec) s = .next s)

/-- R228, R269, R273 to R278, R281, R304: a group leaves on a fault when a thread has been parked 2,048 cycles and every other may leave; a
group asked to leave does so when every live thread is saved, parked or in a long wait, and at the limit in any case. From then on it
issues nothing, its results are in place, and its parked accesses have left the fault buffer. Its block is written once no register of it
drains: state, core, number and barriers first. Once every write has been acknowledged it stands outside, and its slot and barriers are
free. -/
def Claims.GroupsLeave : Prop := ∀ (s : State) (g : GroupId) (p : Parked) (t : ThreadId) (k : Nat),
  let x := s.grp g
  let c : CoreId := ⟨g.die, g.core⟩
  let here : Prop := (AMap.find s.groups g).isSome = true ∧ x.twin = none
  let stays : Prop := here ∧ x.leaving = none
  let asked : Prop := s.exhausted treeDepth x.region = true ∨ ∃ e ∈ (s.die g.die).starving, e.2 = x.num
  let calm : Prop := ∀ q : PartId, q.die = g.die → q.core = g.core → ∀ k ∈ (s.part q).unit.q, k.gnum = x.num → k.waiting = false
  let leaves (e : Instr) (k : Nat) : Prop := exec e s = .next ((s.startOut g k).goOut g)
  let going : Prop := here ∧ x.leaving = some k ∧ ∀ f ∈ (s.core c).fbuf, f.owner ≠ .block g
  (stays → x.st = .resident ∨ x.st = .preempting → p ∈ (s.core c).fbuf → p.owner = .thread t → gidOf t = g → p.at_ + 2048 ≤ s.now g.die →
    Claims.away s g Claims.longWait → leaves (.faultSwapOut g) 1) ∧
  (stays → x.st = .resident → calm → asked → Claims.Goes (.preemptionRequest g) s fun u =>
    (u.grp g).st = .preempting ∧ (u.grp g).preAt = s.now g.die ∧ (u.grp g).num = x.num ∧ u.threads = s.threads ∧ u.mem = s.mem) ∧
  (¬asked → exec (.preemptionRequest g) s = .next s) ∧
  (stays → x.st = .preempting → Claims.away s g Claims.longWait → leaves (.preemptionComplete g) 2) ∧
  (stays → x.st = .preempting → (∃ e ∈ s.threads, gidOf e.1 = g ∧ liveThr e.2 = true ∧ (e.2.status = .ready ∨ ∃ m, e.2.status = .mwait m)) →
    exec (.preemptionComplete g) s = .next s) ∧
  (stays → x.st = .preempting → (x.preAt + (s.die g.die).preLimit ≤ s.now g.die → leaves (.preemptionFallback g) 3) ∧
    (s.now g.die < x.preAt + (s.die g.die).preLimit → exec (.preemptionFallback g) s = .next s)) ∧
  (x.leaving ≠ none → ∀ e ∈ [Instr.faultSwapOut g, .preemptionComplete g, .preemptionFallback g], x.twin = none → exec e s = .next s) ∧
  (stays → calm → let w := s.startOut g k
    w.grp g = { x with leaving := some k, leaveStep := 0 } ∧ w.mem = s.mem ∧ (∀ e ∈ w.threads, gidOf e.1 = g → e.2.pend = [] ∧ e.2.vpend = []) ∧
      (∀ u ∈ w.glean, gidOf u ≠ g) ∧ (∀ f ∈ (w.core c).fbuf, ∀ u, f.owner = .thread u → gidOf u ≠ g) ∧ ∀ r ∈ (w.core c).retry, gidOf r.t ≠ g) ∧
  (going → x.leaveStep = 0 → (∃ e ∈ s.threads, gidOf e.1 = g ∧ e.2.status = .draining) → s.goOut g = s) ∧
  (going → x.leaveStep = 2 → (∃ a ∈ s.accs, a.2.owner = .block g) → s.goOut g = s) ∧
  (going → x.leaveStep = 2 → (∀ a ∈ s.accs, a.2.owner ≠ .block g) → let u := s.goOut g
    AMap.find u.groups g = none ∧ (∀ e ∈ u.threads, gidOf e.1 ≠ g) ∧ (∀ b ∈ (u.core c).bars, b.1.1 ≠ g.slot) ∧ u.mem = s.mem ∧
      (∀ e ∈ (u.die g.die).starving, e.2 ≠ x.num) ∧
      ∃ o ∈ u.outs, o.g.num = x.num ∧ o.kind = k ∧ o.g.st = .out ∧ o.was = g ∧ o.g.cycles = x.cycles + (s.now g.die - x.bound) ∧ o.views = (s.core c).views) ∧
  (let b := s.blockHeader g k
   b.length = 512 ∧ b.take 4 = leBytes 4 k ∧ (b.drop 4).take 4 = leBytes 4 (s.cno c) ∧ (b.drop 8).take 8 = leBytes 8 (x.num.toNat % 2 ^ 32) ∧
     ∀ n, n < 32 → (b.drop (16 + 8 * n)).take 8 = leBytes 8 (if n < x.nbar then
       (s.bar g n).e % 2048 + (s.bar g n).c % 2048 * 2 ^ 11 + (s.bar g n).lv % 2048 * 2 ^ 22 + (s.bar g n).g.toNat * 2 ^ 33 else 0)) ∧
  (∀ (u : State) (l : List (Nat × List (Byte × Bool))), s.blockSend g l = (u, true) → ∀ d ∈ l, ∃ id a, AMap.find u.accs id = some a ∧ a.owner = .block g ∧
    a.kind = .store ∧ a.path = 0 ∧ a.core = c ∧ a.va = d.1 ∧ a.len = d.2.length ∧ a.cells.map (·.2) = d.2.map (·.1))

/-- R208, R240, R270, R275, R277, R296, R306: a restore takes the slot where every condition of R270 is met; the group then waits there until
everything it issued has completed, and its block is read: its barriers, registers and vault allocation as the block holds them; a saved thread at
its restore routine with every register 0, a parked one to issue its instruction again. The views of the core it left come along. -/
def Claims.GroupRestore : Prop := ∀ (s s1 : State) (die rec : Nat) (o : OutGroup) (g : GroupId) (bs : List (Byte × Bool)),
  let r := s.bind die rec
  let q : GroupId := ⟨die, r.core, r.slot⟩
  let row := s.unmet ⟨die, r.core⟩ r.slot o.g o.sheaves (s.homeFor o) false
  let acts : Prop := Claims.leads s die rec ∧ r.valid = true ∧ r.restore = true ∧ r.status % 256 ≠ 1 ∧ r.partner = false
  let ours : Prop := acts ∧ s.halted r.region = false ∧ s.outs.find? (fun o => o.g.num == r.num) = some o ∧ o.g.shadow ≠ 2
  (ours → row ≠ 0 → exec (.groupRestore die rec) s = .next (s.refuse die rec row)) ∧
  (ours → row = 0 → exec (.groupRestore die rec) s = .next (((s.startBack o q).bound die rec).comeBack q)) ∧
  (acts → s.halted r.region = true → exec (.groupRestore die rec) s = .next s) ∧
  (acts → s.halted r.region = false → (∀ o ∈ s.outs, o.g.num ≠ r.num) → Claims.Goes (.groupRestore die rec) s fun u =>
    u.bind die rec = { r with valid := false } ∧ u.groups = s.groups) ∧
  (let w := s.startBack o g
   (o.thr.map (·.1)).Nodup → (∃ y, AMap.find w.groups g = some y ∧ y.num = o.g.num ∧ y.st = .restoring ∧ y.bound = s.now g.die ∧ y.vbase = o.g.vbase) ∧
     (∀ p ∈ w.outs, p.g.num ≠ o.g.num) ∧ w.mem = s.mem ∧ (∀ t sh th, AMap.find o.thr (t, sh) = some th → w.thr ⟨g.die, g.core, g.slot, t, sh⟩ = th) ∧
     ∀ path v, o.views = [(path, v)] → ∀ a h, View.get v a h ≤ View.get (w.view ⟨g.die, g.core⟩ path) a h) ∧
  (let x := s.grp g
   let l := piecesOf (x.block + 16) 256 ++ (s.imaged g x).flatMap (fun t => piecesOf (x.block + 512 + 512 * x.threads + 4 * x.count * t) (4 * x.count)) ++
     piecesOf (x.block + 512 + 512 * x.threads + 4 * x.count * x.threads) x.vaultBytes
   (x.st ≠ .restoring ∨ s.underWay x.num = true → s.comeBack g = s) ∧
   (x.st = .restoring → s.underWay x.num = false → (∀ f ∈ (s.core ⟨g.die, g.core⟩).fbuf, f.owner ≠ .block g) →
     State.blockRead (s.blockSpace g x) l s = (s1, none, bs) → s.comeBack g = s1.restored g bs)) ∧
  (let x := s.grp g
   let u := s.restored g bs
   let who (t : Nat) : ThreadId := ⟨g.die, g.core, g.slot, t, false⟩
   let part (n k : Nat) := (bs.drop n).take k
   let im := (List.range x.threads).filter fun t => (s.thr (who t)).status ≠ .saved
   let base := vaultBase (s.dieNo g.die) g.core + x.vaultOff
   (∀ e ∈ s.threads, gidOf e.1 = g → e.2.status ≠ .draining) → (u.grp g).st = .resident ∧ (u.grp g).num = x.num ∧
     (∀ n, n < x.nbar → let v := leNat ((part (8 * n) 8).map (·.1))
       u.bar g n = { e := v % 2048, c := v / 2 ^ 11 % 2048, lv := v / 2 ^ 22 % 2048, g := BitVec.ofNat 16 (v / 2 ^ 33 % 65536) }) ∧
     (∀ i t, im[i]? = some t → ∀ n, n < x.count → let b := part (256 + 4 * x.count * i + 4 * n) 4
       (u.thr (who t)).reg n = { v := BitVec.ofNat 32 (leNat (b.map (·.1))), p := b.any (·.2) }) ∧
     u.mem = Memory.writeAll s.mem ((part (256 + 4 * x.count * im.length) x.vaultBytes).zipIdx.map fun b => (base + b.2, b.1.1)) ∧
     ∀ t, t < x.threads → let th := s.thr (who t)
       (u.thr (who t)).pc = th.pc ∧ (th.status = .parked → (u.thr (who t)).status = .ready) ∧ (th.status = .exited → (u.thr (who t)).status = .exited) ∧
       (∀ m, th.status = .waiting (.push m) → (u.thr (who t)).status = .ready) ∧ (∀ n, th.status = .barrier n → (u.thr (who t)).status = .barrier n) ∧
       (AMap.find s.threads (who t) ≠ none → th.status = .saved → (u.thr (who t)).status = .ready ∧ (u.thr (who t)).restoring = true ∧
         ∀ n, (u.thr (who t)).reg n = {}))

/-- R220, R221, R280, R286, R297, R303: a group that has ended retires once its registers have drained and its matrix units are done: its slot,
its barriers and its units are free, its vault space too once none of its transfers is under way, its launch has one group fewer and has
learned what its core has written, and its region is charged the cycles of its binding times its sheaves, in units of 128. -/
def Claims.GroupRetirement : Prop := ∀ (s : State) (g : GroupId) (l : Launch) (id : Nat) (y : Region),
  let x := s.grp g
  let c : CoreId := ⟨g.die, g.core⟩
  let n := ((x.cycles + (s.now g.die - x.bound)) * ((x.threads + 31) / 32) + 127) / 128
  (AMap.find s.groups g).isSome = true → x.twin = none → x.shadow = 0 →
  (x.st ≠ .ending → exec (.groupRetire g) s = .next s) ∧
  ((∃ e ∈ s.threads, gidOf e.1 = g ∧ e.2.status = .draining) → exec (.groupRetire g) s = .next s) ∧
  ((∃ e ∈ s.accs, e.2.gnum = x.num ∧ e.2.counted = true) → exec (.groupRetire g) s = .next s) ∧
  ((∃ p : PartId, p.die = g.die ∧ p.core = g.core ∧ p.part < 4 ∧ ∃ k ∈ (s.part p).unit.q, k.gnum = x.num) → exec (.groupRetire g) s = .next s) ∧
  (x.st = .ending → (∀ e ∈ s.accs, e.2.gnum = x.num → e.2.counted = false) → (∀ e ∈ s.threads, gidOf e.1 = g → e.2.status ≠ .draining ∧ e.2.held = []) →
    (∀ p : PartId, p.die = g.die → p.core = g.core → ∀ k ∈ (s.part p).unit.q, k.gnum ≠ x.num) → x.isShadow = false → x.launch = some id →
    AMap.find s.launches id = some l → l.q = none → s.region x.region = some y → y.parent = 0 → y.block = 0 →
    (∀ e ∈ s.groups, e.1 ≠ g → e.2.st ≠ .resident) → Claims.Goes (.groupRetire g) s fun u => AMap.find u.groups g = none ∧ (∀ e ∈ u.threads, gidOf e.1 ≠ g) ∧
      (∀ b ∈ (u.core c).bars, b.1.1 ≠ g.slot) ∧ (∃ z, AMap.find u.launches id = some z ∧ z.live = l.live - 1 ∧ z.phase = l.phase ∧
        ∀ path, path < 5 → ∀ o h, View.get (s.view c path) o h ≤ View.get z.view o h) ∧
      (∃ z, u.region x.region = some z ∧ z.consumed = (y.consumed + n) % 2 ^ 64) ∧ u.mem = s.mem ∧
      (x.vaultBytes ≠ 0 → (∃ k ∈ (s.engine (.copy g.die g.core)).q, k.gnum = x.num) → (AMap.find s.copies c).isSome = true →
        (x.num, x.vbase, x.vaultOff, x.vaultBytes) ∈ (u.core c).left) ∧
      ∀ k, k < 4 → (s.part ⟨g.die, g.core, k⟩).unit.bound = some x.num → (u.part ⟨g.die, g.core, k⟩).unit.bound = none ∧
        (u.part ⟨g.die, g.core, k⟩).unit.rows = [] ∧ (u.part ⟨g.die, g.core, k⟩).unit.banks = [])

/-! ### Events of launches and of the management core (R284-R287, R292, R296, R298, R304, R315) -/

/-- R284 to R286, R292: the steps of a launch. Dispatch reads a queue's oldest record that it has not read: one with a poisoned word is
consumed, one that breaks a limit is invalid and has its entry in the fault record. It begins when those before it have passed their third step,
and, with its serial flag, when none is before it; an invalid one is then complete. Then the wait word and the count are read, each with an
acquire at system scope, and with a count of zero the kernel header; a marker is complete. -/
def Claims.LaunchSteps : Prop := ∀ (s s1 : State) (q l : Nat) (y : Queue) (x k : Launch) (e : Entry) (bs : List (Byte × Bool)),
  let ws := (s.heldWords y e).map (·.v)
  let reg := lw ws 15
  let good : Prop := recordOk ws = true ∧ s.admitted y.region reg = true ∧ e.late = false ∧ s.tagOk reg (bits (lw ws 1) 16 16) = true
  let becomes (i : Instr) (P : Launch → Prop) : Prop := Claims.Goes i s fun u => (y.block = 0 → u.mem = s.mem) ∧ ∃ z, AMap.find u.launches l = some z ∧ P z
  let unread : Prop := y.entries = [e] ∧ e.launch = none ∧ e.done = false ∧ l = s.nextId ∧ AMap.find s.launches l = none
  let alone : Prop := (∀ f ∈ y.entries, f.launch.isSome = true ∨ f.done = true) ∧ s.launches = [(l, x)] ∧ x.q = some q ∧ x.dead = false
  let goes (t : State) : Prop := exec (.launchDispatch q) s = .next t
  let read (va n : Nat) : Prop := s.launchRead l x va n = .ok s1 bs ∧ AMap.find s1.launches l = some k ∧ ∀ b ∈ bs, b.2 = false
  let v := leNat (bs.map (·.1))
  s.queue? q = some y → y.call = false →
  (unread → (∀ r ∈ s.heldWords y e, r.p = false) → becomes (.launchDispatch q) fun z => z.q = some q ∧ z.num = e.num ∧ z.words = ws ∧ z.phase = 0 ∧
    z.view = e.view ∧ z.entry = y.storage + 64 * e.slot ∧ (z.invalid = true ↔ ¬good) ∧ (good → z.region = reg)) ∧
  (unread → ((s.heldWords y e).getD 1 {}).p = false → (∃ r ∈ s.heldWords y e, r.p = true) → Claims.Goes (.launchDispatch q) s fun u => u.launches = s.launches ∧
    (∃ z, u.queue? q = some z ∧ z.entries = [{ e with done := true }]) ∧ ∃ o ∈ (u.die y.die).purges, o.tag = BitVec.ofNat 16 (bits (lw ws 1) 16 16) ∧ o.cause = 0x10) ∧
  (alone → x.phase = 0 → (∀ d ∈ (s.core (agent x.die)).fbuf, d.owner ≠ .launch l) →
    ((∀ f ∈ y.entries, x.num ≤ f.num) → x.invalid = false → goes (s.setLaunch l { x with phase := if la x.words 12 = 0 then 2 else 1 })) ∧
    ((∀ f ∈ y.entries, x.num ≤ f.num) → x.invalid = true → becomes (.launchDispatch q) fun z => z.phase = 5 ∧ z.count = 0) ∧
    ((∃ f ∈ y.entries, f.num < x.num ∧ (s.notBegun f = true ∨ (x.invalid = false ∧ (lw x.words 0).testBit 0 = true))) → goes s)) ∧
  (alone → x.phase = 2 → recordKind x.words = 2 → becomes (.launchDispatch q) fun z => z.phase = 5) ∧
  (alone → x.phase = 2 → recordKind x.words ≠ 2 → let n := lw x.words 6
    (n ≠ 0xFFFFFFFF → goes (s.setLaunch l { x with phase := if n = 0 then 3 else 4, count := n })) ∧
    (n = 0xFFFFFFFF → read (la x.words 8) 4 → (v ≠ 0xFFFFFFFF → goes (s1.setLaunch l { k with phase := if v = 0 then 3 else 4, count := v })) ∧
      (v = 0xFFFFFFFF → goes (s1.invalidate l k)))) ∧
  (alone → x.phase = 3 → x.count = 0 → read (la x.words 2) 256 →
    (headerOk (bs.map (·.1)) = true → k.count = 0 → goes (s1.setLaunch l { k with header := bs.map (·.1), phase := 4 })) ∧
    (headerOk (bs.map (·.1)) = false → goes (s1.invalidate l k))) ∧
  (s.launches = [(l, x)] → x.q = some q → x.dead = false → x.phase = 1 → read (la x.words 12) 4 →
    (lw x.words 14 ≤ v → exec (.waitCounterRead q) s = .next (s1.setLaunch l { k with phase := 2 })) ∧
    (v < lw x.words 14 → exec (.waitCounterRead q) s = .next s1))

/-- R286, R287, R292, R316: a launch all of whose groups have been bound and have retired, and whose commands are done, completes and frees
its entry; one that a purge has ended is gone. Its completion counter is then raised by 1, with a release at system scope, after every
write of its groups has been acknowledged; an add that finds no page parks, and one that fails leaves an entry in the fault record. -/
def Claims.LaunchEnds : Prop := ∀ (s s1 : State) (l fa lv : Nat) (x : Launch) (r : Route),
  let va := la x.words 10
  let c : CoreId := agent x.die
  let plain : Prop := ∀ q y, x.q = some q → s.queue? q = some y → y.block = 0
  let freed (u : State) : Prop := (plain → u.mem = s.mem) ∧
    ∀ q y, x.q = some q → s.queue? q = some y → ∃ z, u.queue? q = some z ∧ z.entries = y.entries.filter fun e => e.num != x.num
  let adds : Prop := x.phase = 5 ∧ x.dead = false ∧ va ≠ 0 ∧ va % 4 = 0
  let ready : Prop := adds ∧ va < 2 ^ 55 ∧ (∀ a ∈ s.accs, a.2.gnum ∉ x.gnums) ∧ (s.core c).fbuf = []
  let xl := (s.setView c 0 x.view).xlate (s.launchSpace l x) va 3
  AMap.find s.launches l = some x →
  (x.live ≠ 0 → exec (.launchComplete l) s = .next s) ∧
  (x.live = 0 → s.launchBusy l = false → x.dead = true → Claims.Goes (.launchComplete l) s fun u => AMap.find u.launches l = none ∧ freed u) ∧
  (x.live = 0 → s.launchBusy l = false → x.dead = false → x.phase = 4 → x.count ≤ x.next → (∀ d ∈ s.dies, ∀ b ∈ d.2.slots, b.2.valid = false) →
    Claims.Goes (.launchComplete l) s fun u => AMap.find u.launches l = some { x with phase := 5 } ∧ freed u) ∧
  (x.phase = 5 → x.dead = false → va = 0 → exec (.completionCounterAdd l) s = .next { s with launches := AMap.del s.launches l }) ∧
  (adds → (∃ a ∈ s.accs, a.2.gnum ∈ x.gnums ∧ (a.2.kind = .store ∨ a.2.kind = .engineWrite ∨ a.2.kind = .atomic)) →
    exec (.completionCounterAdd l) s = .next s) ∧
  (ready → xl = .ok s1 fa → s1.homeRoute x.die fa = some r → s1.nextId = s.nextId →
    Claims.Goes (.completionCounterAdd l) s fun u => (∃ z, AMap.find u.launches l = some z ∧ z.phase = 6) ∧
      ∃ a p, AMap.find u.accs s.nextId = some a ∧ a.kind = .atomic ∧ a.fa = fa ∧ a.owner = .launch l ∧ AMap.find u.net (s.nextId + 1) = some p ∧ p.kind = 2 ∧
        p.dst = r.origin ∧ p.acc = s.nextId ∧ p.lanes = [{ acc := s.nextId, v := 1, off := fa % 128 }] ∧
        p.aop = some { op := 0, w := 4, ord := 2, scope := 7, v := 1, n := 0, incs := 1 }) ∧
  (ready → xl = .miss s1 lv → (s1.core c).fbuf = [] → Claims.Goes (.completionCounterAdd l) s fun u => ∃ p, (u.core c).fbuf = [p] ∧ p.owner = .launch l ∧
    p.va = va ∧ p.level = lv ∧ p.kind = 2) ∧
  (adds → 2 ^ 55 ≤ va → (∀ a ∈ s.accs, a.2.gnum ∉ x.gnums) → (s.core c).fbuf = [] →
    Claims.Goes (.completionCounterAdd l) s fun u => AMap.find u.launches l = none ∧ u.mem = s.mem)

/-- R296, R298, R303, R304, R306: the management core hands out the next group of a launch at a slot that fits it, charging its queue's
deficit one quantum for each visit, and none of a region it may not bind for; a launch that finds no slot starves; after 16,384 cycles
it asks the lowest level's most recently bound group to leave, one group at a time. -/
def Claims.Scheduling : Prop := ∀ (s : State) (die k l : Nat) (y : Queue) (x : Launch) (f : Nat × Nat) (g : GroupId) (z : Launch) (id : Nat),
  let fit := s.fitLaunch die (l, x)
  let turns := if 0 < y.deficit then 0 else (-y.deficit).toNat / y.quantum + 1
  let calm : Prop := ∀ q : PartId, q.die = g.die → q.core = g.core → ∀ k ∈ (s.part q).unit.q, k.gnum = (s.grp g).num → k.waiting = false
  let d := s.die die
  s.outs = [] → d.slots = [] → s.queues = [(k, y)] → y.block = 0 → y.die = die → y.call = false → s.cands die = [(l, x)] → x.q = some k → x.core = none →
  s.levelOf x < 8 → AMap.find s.launches l = some x → x.die = die →
  (fit = some (f, none) → s.mayBind x.region = true → Claims.Goes (.schedulingDecision die) s fun u => u.mem = s.mem ∧
    AMap.find u.launches l = some { x with next := x.next + 1, since := none } ∧
    (let b := u.bind die 0
     b.valid = true ∧ b.restore = false ∧ b.core = f.1 ∧ b.slot = f.2 ∧ b.launch = l ∧ b.status = 0 ∧ b.region = x.region ∧ b.num.toNat % 2 ^ 32 = x.next % 2 ^ 32) ∧
    (x.next + 1 < x.count → ∃ w, AMap.find u.queues k = some w ∧ w.deficit = y.deficit + (y.quantum * turns : Nat))) ∧
  (fit = some (f, none) → s.mayBind x.region = false → Claims.Goes (.schedulingDecision die) s fun u => u.mem = s.mem ∧ (u.die die).slots = [] ∧
    u.queues = s.queues) ∧
  (fit = none → x.since = none → Claims.Goes (.schedulingDecision die) s fun u => u.mem = s.mem ∧ (u.die die).slots = [] ∧
    AMap.find u.launches l = some { x with since := some (s.now die) }) ∧
  (∀ t, fit = none → x.since = some t → s.mayBind x.region = true → (s.now die < t + 16384 → exec (.starvationPreemption die) s = .next s) ∧
    ((∃ e ∈ d.starving, e.1 = l) → exec (.starvationPreemption die) s = .next s) ∧
    (t + 16384 ≤ s.now die → (∀ e ∈ d.starving, e.1 ≠ l) → s.groups = [(g, s.grp g)] → g.die = die → (s.grp g).st = .resident → (s.grp g).leaving = none →
      (s.grp g).twin = none → calm → (s.grp g).launch = some id → AMap.find s.launches id = some z → s.levelOf z < s.levelOf x →
      Claims.Goes (.starvationPreemption die) s fun u =>
        (u.die die).starving = d.starving ++ [(l, (s.grp g).num)] ∧ (u.grp g).st = .preempting ∧ (u.grp g).preAt = s.now die))

/-- R315: the management core reports the first parked access of a span of 64 KiB that has not been reported: a descriptor of 32 bytes goes
to the context's fault area, at its next place, and, once it has been acknowledged, the context's notice word is raised by 1. -/
def Claims.FaultDescriptors : Prop := ∀ (s : State) (die : Nat) (c : CoreId) (p : Parked) (x : Ctx) (r : Route) (id w : Nat),
  let d := s.die die
  let n := AMap.getD d.dseq p.ctx 0
  let fa := x.area + 32 * (n % x.cap)
  let kind := match p.owner with | .engine _ _ => 4 + p.kind | .unit _ _ => 4 + p.kind | _ => p.kind
  let bytes := leBytes 8 p.va ++ leBytes 2 p.ctx ++ leBytes 1 kind ++ leBytes 1 p.level ++ leBytes 4 (s.cno c) ++ leBytes 8 (p.group.toNat % 2 ^ 32) ++
    leBytes 2 p.tag.toNat ++ leBytes 2 0 ++ leBytes 4 n
  (d.notices = [] → s.parkedOn die = [(c, p)] → (p.ctx, p.va / 65536) ∈ d.spans → exec (.faultDescriptorWrite die) s =
    .next (s.setDie die { d with spans := d.spans.filter fun e => e.1 == p.ctx && e.2 == p.va / 65536 })) ∧
  (d.notices = [] → d.spans = [] → s.parkedOn die = [(c, p)] → AMap.find s.ctxs p.ctx = some x → s.homeRoute die fa = some r → 0 < x.cap →
    Claims.Goes (.faultDescriptorWrite die) s fun u => (u.die die).spans = [(p.ctx, p.va / 65536)] ∧ AMap.getD (u.die die).dseq p.ctx 0 = (n + 1) % 2 ^ 32 ∧
      (u.die die).notices = [(s.nextId, x.notice)] ∧ ∃ a q, AMap.find u.accs s.nextId = some a ∧ a.kind = .store ∧ a.owner = .part ∧
        AMap.find u.net (s.nextId + 1) = some q ∧ q.kind = 16 ∧ q.dst = r.origin ∧ q.cells = bytes.zipIdx.map fun b => (fa + b.2, b.1)) ∧
  (d.notices = [(id, w)] → AMap.find s.accs id = none → s.homeRoute die w = some r → Claims.Goes (.faultDescriptorWrite die) s fun u =>
    (u.die die).notices = [] ∧ u.mem = s.mem ∧ ∃ a q, AMap.find u.accs s.nextId = some a ∧ a.kind = .atomic ∧ AMap.find u.net (s.nextId + 1) = some q ∧
      q.kind = 2 ∧ q.fa = w ∧ q.lanes = [{ acc := s.nextId, v := 1, off := w % 128 }] ∧ (q.aop.map (·.op)) = some 0)

/-! ### Events of the route agent (R317, R321-R326, R329-R332, R335-R337, R345, R396) -/

/-- A control message of a type that has come to its last die. -/
def Claims.told (s : State) (n ty : Nat) (m : Ctl345) : Prop :=
  AMap.find s.ctl n = some m ∧ fld m.bytes 64 1 = ty ∧ (0 < ty → nextOn (diesAt m.bytes 24 (fld m.bytes 11 1)) (s.dieNo m.at_) = none)

/-- A route function of a die, asked by a thread of a group without a second copy, is over: the thread has its status. -/
def Claims.status (u : State) (t : ThreadId) (n : Nat) : Prop := (u.thr t).port = some (.ok [{ v := BitVec.ofNat 32 n }])
def Claims.asked (s : State) (i : Nat) (o : RouteOp) (t : ThreadId) : Prop :=
  o ∈ (s.die i).rops ∧ o.t = some t ∧ t.sh = false ∧ s.slotOf (gidOf t) o.gnum = some (gidOf t) ∧ (s.grp (gidOf t)).num = o.gnum ∧
    (s.grp (gidOf t)).shadow = 0 ∧ (s.grp (gidOf t)).twin = none

/-- R321, R322, R323, R325, R326, R332: an announcement at a die. One in another format is dropped and counted; one whose path holds the die, or that does
not better the entry it would replace, is ignored; one that finds the table full is neither kept nor passed on. Else it takes its place, with the cost of
its last link: a home is installed and sent on to every neighbour; of two homes the higher version, then the lower origin, is kept, and the other is passed
on suppressed; a home of the die's own that loses is withdrawn; a replica is installed only beside its home, which puts it on its forward list. -/
def Claims.Announcements : Prop := ∀ (s : State) (n : Nat) (m : Ctl345) (a : Ann) (h : Route),
  let i := m.at_
  let me := s.dieNo i
  let cost := a.cost + (if m.relay then 8 else if m.link < 4 then 4 else 1)
  let own (r : Route) : Prop := r.ver = a.ver ∧ r.cost = cost ∧ r.next = m.link ∧ r.cls = a.cls ∧ r.path = a.path ∧ r.ready = a.ready
  let fresh : Prop := parseAnn m.bytes = some a ∧ a.withdraw = false ∧ a.moved = false ∧ me ∉ a.path ∧ cost ≤ 0xFFFF
  let there (P : State → Route → Prop) : Prop := Claims.Goes (.announcement n) s fun u => u.mem = s.mem ∧
    ∃ r, u.entry i a.pre a.len a.origin = some r ∧ own r ∧ P u r
  let passed (u : State) : Prop := a.path.length < 16 → a.origin ≠ me → ∀ j, j < 4 → j ≠ i → ∃ k x, AMap.find u.ctl k = some x ∧ x.at_ = j ∧
    x.link = 4 + i ∧ x.bytes = annBytes { a with cost, movedFrom := 0, path := a.path ++ [me] }
  Claims.told s n 0 m →
  (parseAnn m.bytes = none → exec (.announcement n) s = .next ((s.delCtl n).dropAnn i m.link)) ∧
  (parseAnn m.bytes = some a → a.withdraw = false → me ∈ a.path → exec (.announcement n) s = .next (s.delCtl n)) ∧
  (fresh → s.entry i a.pre a.len a.origin = some h → (a.ver < h.ver ∨ (a.ver = h.ver ∧ h.cost < cost ∧ m.link ≠ h.next) ∨
    (a.ver = h.ver ∧ h.cost = cost ∧ h.next < m.link)) → exec (.announcement n) s = .next (s.delCtl n)) ∧
  (fresh → s.entry i a.pre a.len a.origin = none → 16384 ≤ s.tableSize i → exec (.announcement n) s = .next ((s.delCtl n).tableFull i a.pre)) ∧
  (fresh → s.entriesOf i a.pre a.len = [] → s.tableSize i < 16384 →
    (a.cls ≠ 1 → there fun u r => r.st = .installed ∧ passed u) ∧
    (a.cls = 1 → there fun u r => r.st = .orphan ∧ u.ctl = AMap.del s.ctl n)) ∧
  (fresh → s.entriesOf i a.pre a.len = [h] → h.cls = 0 → h.st = .installed → h.gone = false → h.origin ≠ a.origin → s.tableSize i < 16384 →
    (a.cls = 0 → h.origin ≠ me → (h.ver < a.ver ∨ (h.ver = a.ver ∧ a.origin < h.origin)) → there fun u r => r.st = .installed ∧ passed u ∧
      ∃ q, u.entry i a.pre a.len h.origin = some q ∧ q.st = .suppressed) ∧
    (a.cls = 0 → h.origin = me → (h.ver < a.ver ∨ (h.ver = a.ver ∧ a.origin < h.origin)) → there fun u r => r.st = .installed ∧ passed u ∧
      (∃ q, u.entry i a.pre a.len me = some q ∧ q.st = .suppressed ∧ q.gone = true) ∧ AMap.find (u.die i).fwd (a.pre, a.len) = none ∧
      (∃ o ∈ (u.die i).rops, o.fn = 1 ∧ o.pre = a.pre ∧ o.len = a.len ∧ o.ver = h.ver ∧ o.t = none ∧ o.old = some { h with st := .suppressed }) ∧
      (h.region = none → (3, a.pre) ∈ (u.die i).events)) ∧
    (a.cls = 0 → (a.ver < h.ver ∨ (h.ver = a.ver ∧ h.origin < a.origin)) → there fun u r => r.st = .suppressed ∧ passed u ∧
      ∃ q, u.entry i a.pre a.len h.origin = some q ∧ q.st = .installed) ∧
    (a.cls = 1 → h.origin = me → there fun u r => r.st = .installed ∧ a.origin ∈ AMap.getD (u.die i).fwd (a.pre, a.len) []))

/-- R323, R330, R336, R396: a withdrawal at a die removes the entry it names, where it comes by the entry's own next hop, and is passed on; one whose
path holds the die is ignored, and one that names nothing on its link brings the die's own entry back on it. Its first receipt is acknowledged. The origin
counts the dies that acknowledge it: the last of them, and the limit, complete it. -/
def Claims.Withdrawals : Prop := ∀ (s : State) (n i : Nat) (m : Ctl345) (a : Ann) (h : Route) (o : RouteOp) (t : ThreadId),
  let b := m.bytes
  let d := s.die m.at_
  let me := s.dieNo m.at_
  let key := (a.pre, a.len, a.origin, a.ver)
  let left : Ann := { pre := a.pre, len := a.len, cls := h.cls, ready := h.ready, hold := h.hold, withdraw := true, ver := h.ver, origin := a.origin, cost := h.cost, path := a.path ++ [me] }
  (Claims.told s n 0 m → parseAnn b = some a → a.withdraw = true → (me ∈ a.path ∨ a.origin = me) → exec (.withdrawal n) s = .next (s.delCtl n)) ∧
  (Claims.told s n 0 m → parseAnn b = some a → a.withdraw = true → a.moved = false → me ∉ a.path → a.origin ≠ me → h.next = m.link →
    s.entriesOf m.at_ a.pre a.len = [h] → h.origin = a.origin → a.path.length < 16 → Claims.Goes (.withdrawal n) s fun u =>
      u.entry m.at_ a.pre a.len a.origin = none ∧ u.mem = s.mem ∧
      ∀ j, j < 4 → j ≠ m.at_ → ∃ k x, AMap.find u.ctl k = some x ∧ x.at_ = j ∧ x.bytes = annBytes left) ∧
  (Claims.told s n 0 m → parseAnn b = some a → a.withdraw = true → me ∉ a.path → a.origin ≠ me →
    (key ∉ d.wdrSeen → s.inStand a.origin = true → ∀ j, j < 4 → j ≠ m.at_ → a.path.getLast? = some (s.dieNo j) → Claims.Goes (.withdrawal n) s fun u =>
      key ∈ (u.die m.at_).wdrSeen ∧ ∃ k x, AMap.find u.ctl k = some x ∧ x.at_ = j ∧ x.bytes = msgBytes 1 a.pre a.len a.cls a.ver a.origin me [] a.path.reverse) ∧
    (key ∈ d.wdrSeen → s.entry m.at_ a.pre a.len a.origin = none → exec (.withdrawal n) s = .next (s.delCtl n)) ∧
    (∀ j, j < 4 → m.link = 4 + j → s.entry m.at_ a.pre a.len a.origin = some h → h.next ≠ m.link → h.st = .installed → Claims.Goes (.withdrawal n) s fun u =>
      u.entry m.at_ a.pre a.len a.origin = some h ∧ ∃ k x, AMap.find u.ctl k = some x ∧ x.at_ = j ∧ x.bytes = annBytes (h.ann me false))) ∧
  (Claims.told s n 1 m → d.rops.find? (fun x => x.fn == 1 && x.pre == fld b 0 8 && x.len == fld b 8 1 && x.ver == fld b 12 4) = some o →
    Claims.asked s m.at_ o t → o.movedTo = none → fld b 18 2 ∉ o.acks →
    ((∀ k ∈ s.others me, k ∈ o.acks ∨ k = fld b 18 2) → Claims.Goes (.withdrawalAcknowledgement n) s fun u => Claims.status u t 0) ∧
    (∀ k, k ∈ s.others me → k ∉ o.acks → k ≠ fld b 18 2 → Claims.Goes (.withdrawalAcknowledgement n) s fun u => u.threads = s.threads ∧
      { o with acks := o.acks ++ [fld b 18 2] } ∈ (u.die m.at_).rops)) ∧
  ((s.die i).rops.find? (fun x => x.fn == 1 && decide (x.born + 4194304 ≤ s.now i)) = some o → Claims.asked s i o t → o.movedTo = none →
    Claims.Goes (.withdrawalLimit i) s fun u => Claims.status u t 8 ∧ o ∉ (u.die i).rops ∧ u.mem = s.mem)

/-- R326, R335: the home's acknowledgement completes a replica's announcement with status 0; without one in 4,194,304 cycles the replica is withdrawn
and the status is 9. -/
def Claims.ReplicaListing : Prop := ∀ (s : State) (n i : Nat) (m : Ctl345) (o : RouteOp) (t : ThreadId) (r : Route),
  (Claims.told s n 2 m → (s.die m.at_).rops.find? (fun x => x.fn == 0 && x.pre == fld m.bytes 0 8 && x.len == fld m.bytes 8 1 && x.ver == fld m.bytes 12 4) = some o →
    Claims.asked s m.at_ o t → Claims.Goes (.replicaListingAcknowledgement n) s fun u => Claims.status u t 0 ∧ o ∉ (u.die m.at_).rops ∧ u.mem = s.mem) ∧
  ((s.die i).rops.find? (fun x => x.fn == 0 && decide (x.born + 4194304 ≤ s.now i)) = some o → Claims.asked s i o t →
    s.entry i o.pre o.len (s.dieNo i) = some r → r.cls = 1 → Claims.Goes (.replicaAckTimeout i) s fun u => Claims.status u t 9 ∧
      u.entry i o.pre o.len (s.dieNo i) = none ∧ ∃ x ∈ (u.die i).rops, x.fn = 1 ∧ x.pre = o.pre ∧ x.len = o.len ∧ x.old = some r)

/-- R331, R337, R345: the steps of a move. The home, asked to promote, parks what arrives and sends its final marker and its forward
list; the replica, after the stream up to that marker, becomes home of the next version, and another replica waits for its stream; the former home, told
of it, sends on what it has parked and withdraws; the parked-end marker lets the new home apply what it holds. A request that
is not answered in 4,194,304 cycles ends with status 7. -/
def Claims.MoveSteps : Prop := ∀ (s : State) (n i x j : Nat) (m : Ctl345) (a : Ann) (v : Move) (h e r : Route) (o : RouteOp) (t : ThreadId),
  let b := m.bytes
  let k := m.at_
  let d := s.die k
  let me := s.dieNo k
  let pre := fld b 0 8
  let len := fld b 8 1
  let list := AMap.getD d.fwd (pre, len) []
  let still : Prop := s.streamBefore n k pre len = false
  (Claims.told s n 3 m → s.entry k pre len me = some h → h.cls = 0 → h.st = .installed → h.ver = fld b 12 4 →
    Claims.Goes (.promoteRequest n) s fun u => u.mem = s.mem ∧ (u.die k).moves = d.moves ++
        [{ pre, len, peer := fld b 16 2, ver := h.ver, parked := [], list, ended := false, old := true }] ∧
      (list = [x] → s.entry k pre len x = some e → e.path.reverse.head? = some (s.dieNo j) → j < 4 → j ≠ k → ∃ q y, AMap.find u.ctl q = some y ∧ y.at_ = j ∧
        y.bytes = msgBytes 4 pre len 0 h.ver me 1 [x] e.path.reverse)) ∧
  (Claims.told s n 3 m → s.entry k pre len me = some h → h.ver ≠ fld b 12 4 → exec (.promoteRequest n) s = .next (s.delCtl n)) ∧
  (AMap.find s.ctl n = some m → s.streamBefore n k pre len = true → exec (.moveFinal n) s = .next s ∧ exec (.moveParkedEnd n) s = .next s) ∧
  (Claims.told s n 4 m → still → s.entry k pre len me = some r → r.gone = false → d.rops.find? (fun o => o.fn == 2 && o.pre == pre && o.len == len && o.phase == 0) = some o →
    (∀ q ∈ s.entriesOf k pre len, q.origin ≠ me → q.cls ≠ 1 → q.ver < fld b 12 4 + 1) → Claims.Goes (.moveFinal n) s fun u =>
      (∃ q, u.entry k pre len me = some q ∧ q.cls = 0 ∧ q.ver = fld b 12 4 + 1 ∧ q.movedFrom = some (fld b 16 2) ∧ q.st = .installed ∧ q.backing = r.backing) ∧
      AMap.getD (u.die k).fwd (pre, len) [] = (diesAt b 65 (Nat.min 95 (fld b 18 2))).filter (· != me) ∧ { o with phase := 1 } ∈ (u.die k).rops ∧
      AMap.find (u.die k).replicas (pre, len) = none ∧ u.mem = s.mem) ∧
  (Claims.told s n 4 m → still → s.entry k pre len me = some r → r.cls = 1 → d.rops.find? (fun o => o.fn == 2 && o.pre == pre && o.len == len && o.phase == 0) = none →
    Claims.Goes (.moveFinal n) s fun u => let y := AMap.getD d.replicas (pre, len) {}
      AMap.find (u.die k).replicas (pre, len) = some { y with src := none, waiting := [] } ∧ u.mem = s.mem ∧ ∀ p ∈ y.waiting, ∃ q ∈ u.net, q.2 = p) ∧
  (Claims.told s n 0 m → parseAnn b = some a → a.withdraw = false → a.moved = true → a.movedFrom = me → a.cls = 0 → me ∉ a.path → a.origin ≠ me →
    a.cost + linkCost m ≤ 0xFFFF → s.tableSize k < 16384 → s.entriesOf k a.pre a.len = [h] → h.origin = me → h.cls = 0 → h.st = .installed → h.gone = false → h.ver < a.ver →
    d.moves.find? (fun y => y.old && !y.ended && y.pre == a.pre && y.len == a.len) = some v → Claims.Goes (.announcement n) s fun u =>
      (∃ q, u.entry k a.pre a.len a.origin = some q ∧ q.st = .installed ∧ q.movedFrom = some me) ∧
      (∃ q, u.entry k a.pre a.len me = some q ∧ q.gone = true ∧ q.st = .suppressed) ∧ AMap.find (u.die k).fwd (a.pre, a.len) = none ∧
      { v with parked := [], ended := true } ∈ (u.die k).moves ∧ (∃ w ∈ (u.die k).rops, w.fn = 1 ∧ w.pre = a.pre ∧ w.len = a.len ∧ w.ver = h.ver ∧ w.movedTo = some a.origin) ∧
      ∀ p ∈ v.parked, ∃ q ∈ u.net, q.2 = { p with at_ := k, dst := a.origin, fwd := true, plen := v.len, parkedBy := some me, hop := 0, retry := false }) ∧
  (Claims.told s n 6 m → (∃ y ∈ d.moves, y.old = false ∧ y.pre = pre ∧ y.len = len) → Claims.Goes (.forwardListContinuation n) s fun u =>
    u.mem = s.mem ∧ AMap.getD (u.die k).fwd (pre, len) [] = list ++ (diesAt b 65 (Nat.min 95 (fld b 18 2))).filter (· != me)) ∧
  (Claims.told s n 5 m → still → Claims.Goes (.moveParkedEnd n) s fun u => u.mem = s.mem ∧ AMap.find u.ctl n = none ∧ (u.die k).moves.length = d.moves.length ∧
    (∀ y ∈ (u.die k).moves, y.old = false → y.pre = pre → y.len = len → y.ended = true) ∧ ∀ y ∈ d.moves, y.old = true → y ∈ (u.die k).moves) ∧
  ((s.die i).rops.find? (fun x => x.fn == 2 && decide (x.born + 4194304 ≤ s.now i) && (x.phase == 0 || x.phase == 2)) = some o → Claims.asked s i o t →
    (o.phase = 0 → Claims.Goes (.promoTimeout i) s fun u => Claims.status u t 7 ∧ u.mem = s.mem) ∧
    (o.phase ≠ 0 → Claims.Goes (.promoTimeout i) s fun u => (Claims.status u t 0 ∨ Claims.status u t 8) ∧ u.mem = s.mem))

/-! ### Events of the ports (R323, R339-R342, R346-R355, R394, R397, R399, R400) -/

/-- A port has become another, but for the time of its last change of state; no packet has moved and memory is as it was. -/
def Claims.became (s u : State) (q : Nat) (y : Port) : Prop :=
  { u.port q with changedAt := y.changedAt } = y ∧ u.mem = s.mem ∧ u.net = s.net

/-- A link function of a port is in progress for a thread of a group without a second copy. -/
def Claims.links (s : State) (q : Nat) (o : LinkOp) : Prop :=
  (s.port q).op = some o ∧ o.t.sh = false ∧ s.slotOf (gidOf o.t) o.gnum = some (gidOf o.t) ∧ (s.grp (gidOf o.t)).num = o.gnum ∧
    (s.grp (gidOf o.t)).shadow = 0 ∧ (s.grp (gidOf o.t)).twin = none

/-- R339, R351, R353: training ends when every named wavelength has locked and the peers have met: the port is active and a link function that
trained it has status 0. It fails at 300,000 cycles. A woken wavelength that has not locked at 60,000 cycles fails. A carrying
wavelength that loses lock fails at once, the port with its last one. -/
def Claims.PortLocks : Prop := ∀ (s : State) (q k : Nat) (o : LinkOp),
  let x := s.port q
  let d := q / 4
  let fails (i : Instr) : Prop := Claims.Goes i s fun u => (u.port q).st = .failed ∧ (u.port q).carry = [] ∧ (u.port q).width = 0 ∧
    lanesIn (u.port q) .carrying = [] ∧ u.mem = s.mem ∧ ∀ r ∈ (u.die d).routes, r.next ≠ q % 4
  x.lanes.length = 8 → k < 8 →
  (k ∉ x.named → exec (.wavelengthLock q k) s = .next s) ∧
  (k ∈ x.named → x.st = .training → (∃ j ∈ x.named, j ≠ k) → Claims.Goes (.wavelengthLock q k) s fun u => Claims.became s u q { x with
    named := x.named.filter (· != k), carry := (List.range 8).filter fun j => j == k || x.carry.contains j }) ∧
  (x.named = [k] → x.st = .training → x.met ≠ [] → Claims.Goes (.wavelengthLock q k) s fun u => (u.port q).st = .active ∧ (u.port q).named = [] ∧
    (u.port q).width = (lanesIn x .waking).length ∧ (∀ j, j < 8 → x.lanes.getD j .dark = .waking → (u.port q).lanes.getD j .dark = .carrying) ∧ u.mem = s.mem ∧
    (u.port q).relocks = (x.relocks + 1) % 2 ^ 32 ∧ (Claims.links s q o → (u.port q).op = none ∧ Claims.status u o.t 0)) ∧
  (x.st = .training → (s.now d < x.since + 300000 → exec (.trainingTimeout q) s = .next s) ∧
    (x.since + 300000 ≤ s.now d → fails (.trainingTimeout q) ∧ (Claims.links s q o → Claims.Goes (.trainingTimeout q) s fun u => Claims.status u o.t 7))) ∧
  (x.st = .waking → x.named = [k] → x.lanes.getD k .dark = .waking → x.since + 60000 ≤ s.now d → Claims.Goes (.wakeLockTimeout q) s fun u =>
    (u.port q).lanes.getD k .dark = .failed ∧ (u.port q).named = [] ∧ ((u.port q).st = .active ∨ (u.port q).st = .parked) ∧ u.mem = s.mem ∧
      (lanesIn x .waking = [k] → Claims.links s q o → Claims.status u o.t 6)) ∧
  (x.lanes.getD k .dark = .carrying → ((∃ j, j < 8 ∧ j ≠ k ∧ x.lanes.getD j .dark = .carrying) → Claims.Goes (.lossOfLock q k) s fun u =>
      (u.port q).lanes.getD k .dark = .failed ∧ (u.port q).st = x.st ∧ (∃ l, (u.port q).newCarry = some l ∧ k ∉ l) ∧ (u.port q).carry = x.carry ∧ u.mem = s.mem) ∧
    ((∀ j, j < 8 → j ≠ k → x.lanes.getD j .dark ≠ .carrying) → fails (.lossOfLock q k)))

/-- R342, R347, R349, R351, R354, R381, R394: what the markers do: a meeting marker gives the allowances of the peer and its stand, and a peer new to the
port is sent the die's table; a slot marker
begins a slot of the schedule in force, with a refresh, and greets a peer it meets first; drain and final markers take a reconfiguring port on to its final marker, and to darkness;
so does its limit. -/
def Claims.Markers : Prop := ∀ (s : State) (q : Nat) (f : Flit) (l : List Flit) (o : LinkOp),
  let x := s.port q
  let d := q / 4
  let b := f.bytes
  let got (code : Nat) : Prop := x.rxq = f :: l ∧ f.kind = 3 ∧ (b.getD 0 0).toNat = code
  let dark (i : Instr) : Prop := Claims.Goes i s fun u => (u.port q).st = .dark ∧ (u.port q).carry = [] ∧ (u.port q).txq = [] ∧ (u.port q).allow = x.allow ∧
    (u.port q).frame = [] ∧ (u.port q).prog = [] ∧ (u.port q).halves = [] ∧ (u.port q).parking = [] ∧ (u.port q).owed = [] ∧ lanesIn (u.port q) .carrying = [] ∧ u.mem = s.mem ∧ (u.port q).op = none ∧ Claims.status u o.t 0
  (got 3 → x.st ≠ .training → Claims.Goes (.meetingMarker q) s fun u => (u.port q).rxq = l ∧ x.peer ∈ (u.port q).met ∧
    AMap.find (u.port q).peerStand x.peer = some (fld b 12 2) ∧ (u.port q).st = x.st ∧ (∀ c, c < 4 → ((u.port q).allowOf x.peer c).a = Nat.min 32768 (fld b (4 + 2 * c) 2)) ∧
    (x.peer ∉ x.met → ∀ r ∈ (s.die d).routes, r.st ≠ .orphan → r.gone = false → r.path.length < 16 → ∃ p ∈ (u.port q).txq, p.kind = 200 ∧
      p.cells.map (·.2) = annBytes (r.ann (s.dieNo d) false))) ∧
  (got 3 → x.st = .training → (fld b 1 2 = 0 ∨ fld b 3 1 = 0) → Claims.Goes (.meetingMarker q) s fun u => (u.port q).st = .failed) ∧
  (got 3 → x.st = .training → fld b 1 2 ≠ 0 → fld b 3 1 ≠ 0 → x.named ≠ [] → Claims.Goes (.meetingMarker q) s fun u => (u.port q).st = .training ∧ x.peer ∈ (u.port q).met) ∧
  (got 4 → x.op = none → x.st ≠ .reconfiguring → x.newSched = none → 1 < x.sched.length → Claims.Goes (.slotMarker q) s fun u => let y := u.port q
    y.slot = fld b 1 1 ∧ y.epoch = fld b 2 2 ∧ y.peer = x.sched.getD (fld b 1 1) 0xFFFF ∧ y.lastMarker = s.now d ∧ y.sinceRefresh = 256 ∧ y.st = x.st ∧ y.rxq = l ∧ u.mem = s.mem ∧
    (y.peer = 0xFFFF ∨ y.peer ∈ x.greeted → y.txq = x.txq) ∧
    (y.peer ≠ 0xFFFF → y.peer ∉ x.greeted → y.peer ∈ y.greeted ∧ ∃ p, y.txq = p :: x.txq ∧ p.kind = 201 ∧ (p.cells.map (·.2)).headD 0 = 3)) ∧
  (got 4 → x.op = some o → o.fn = 4 → fld b 2 2 ≠ x.oldEpoch → x.st = .dark → x.newSched = some o.slots → Claims.Goes (.slotMarker q) s fun u => let y := u.port q
    y.st = .training ∧ y.sched = o.slots ∧ y.slot = fld b 1 1 ∧ y.epoch = fld b 2 2 ∧ y.named = [0, 1, 2, 3, 4, 5, 6, 7] ∧ y.since = s.now d ∧ u.mem = s.mem) ∧
  (got 1 → x.st ≠ .reconfiguring → Claims.Goes (.drainMarker q) s fun u => Claims.became s u q { x with rxq := l, drainGot := true }) ∧
  (got 1 → x.st = .reconfiguring → x.drainSent = true → x.finalSent = false → x.txq = [] → x.prog = [] → s.requests = [] → s.net = [] →
    Claims.Goes (.drainMarker q) s fun u => (u.port q).drainGot = true ∧ ∃ p, (u.port q).txq = [p] ∧ p.kind = 201 ∧ (p.cells.map (·.2)).headD 0 = 2) ∧
  (got 2 → x.finalSent = false → Claims.Goes (.finalMarker q) s fun u => Claims.became s u q { x with rxq := l, finalGot := true }) ∧
  (got 2 → x.st = .reconfiguring → x.finalSent = true → Claims.links s q o → o.fn = 3 → dark (.finalMarker q)) ∧
  (x.st = .reconfiguring → (s.now d < x.since + 1048576 → exec (.darkTimeout q) s = .next s) ∧
    (x.since + 1048576 ≤ s.now d → Claims.links s q o → o.fn = 3 → dark (.darkTimeout q)))

/-- R340, R341, R342, R347, R349, R397, R398, R400: a flit of a packet goes out while its class's allowance permits, and takes it; a marker needs none. A
refresh that is due goes first and carries the four return counts; at the frame's end its empty places take idle flits, and it goes out, striped over the
carrying wavelengths; a marked width comes into force after it. Near its next slot marker a rotor's port starts no frame. The depth is written again 64 cycles after the last time. -/
def Claims.FramesOut : Prop := ∀ (s : State) (q c : Nat) (f : Flit) (fs : List Flit) (ls : List Nat) (p : Pkt) (b : List Byte) (bs : List (List Byte)),
  let x := s.port q
  let y (u : State) : Port := u.port q
  let free : Prop := x.st = .active ∧ s.sending q = true ∧ x.sinceRefresh < 255
  (s.guarded q = true → exec (.frameBoundary q) s = .next s) ∧
  (s.sending q = false → x.st = .active → exec (.packetTransmit q) s = .next s ∧ exec (.refreshDue q) s = .next s) ∧
  (free → x.prog = [((x.peer, c), f :: fs)] →
    (x.permits x.peer c = true → Claims.Goes (.packetTransmit q) s fun u => u.mem = s.mem ∧ u.net = s.net ∧ AMap.find (y u).prog (x.peer, c) = some fs ∧
      ((y u).allowOf x.peer c).s = ((x.allowOf x.peer c).s + 1) % 65536 ∧ ((y u).allowOf x.peer c).k = (x.allowOf x.peer c).k ∧
      ∃ h : FlitHead, h.cls = c ∧ h.kind = 0 ∧ h.first = f.first ∧ h.last = f.last ∧ h.poisoned = f.poisoned ∧ (y u).frame = x.frame ++ [h.bytes ++ pad 256 f.bytes]) ∧
    (x.permits x.peer c = false → x.txq = [] → exec (.packetTransmit q) s = .next s)) ∧
  (free → x.prog = [] → x.txq = [p] →
    (p.kind ≠ 200 → p.kind ≠ 201 → x.sched.length ≤ 1 → x.drainSent = false → s.flitPayloads p = b :: bs →
      (x.permits x.peer (kindClass p.kind) = true → Claims.Goes (.packetTransmit q) s fun u => u.mem = s.mem ∧ u.net = s.net ∧ (y u).txq = [] ∧
        (AMap.find (y u).prog (x.peer, kindClass p.kind)).map (·.map (·.bytes)) = some bs ∧
        ((y u).allowOf x.peer (kindClass p.kind)).s = ((x.allowOf x.peer (kindClass p.kind)).s + 1) % 65536 ∧
        ∃ h : FlitHead, h.cls = kindClass p.kind ∧ h.kind = 0 ∧ h.first = true ∧ (h.last = true ↔ bs = []) ∧ (y u).frame = x.frame ++ [h.bytes ++ pad 256 b]) ∧
      (x.permits x.peer (kindClass p.kind) = false → exec (.packetTransmit q) s = .next s)) ∧
    (p.kind = 201 → Claims.Goes (.packetTransmit q) s fun u => u.mem = s.mem ∧ u.net = s.net ∧ (y u).txq = [] ∧ (y u).allow = x.allow ∧
      ∃ h : FlitHead, h.cls = 3 ∧ h.kind = 3 ∧ (y u).frame = x.frame ++ [h.bytes ++ pad 256 (p.cells.map (·.2))])) ∧
  (s.sending q = true → 255 ≤ x.sinceRefresh → (x.st = .active → exec (.packetTransmit q) s = .next s) ∧ Claims.Goes (.refreshDue q) s fun u =>
    (y u).sinceRefresh = 0 ∧ u.mem = s.mem ∧ u.net = s.net ∧ (y u).txq = x.txq ∧
    ∃ h : FlitHead, h.cls = 3 ∧ h.kind = 2 ∧ (y u).frame = x.frame ++
      [h.bytes ++ pad 256 (([0, 1, 2, 3] : List Nat).flatMap fun k => leBytes 2 (x.allowOf x.peer k).freed)]) ∧
  (x.sinceRefresh < 255 → exec (.refreshDue q) s = .next s) ∧
  (x.carry ≠ [] → x.frame.length = 4 → x.st = .active → x.marked = none → Claims.Goes (.frameBoundary q) s fun u => Claims.became s u q
    { x with frame := [], out := stripe x.carry x.group (frameBytes x.frame), group := (x.group + 288) % x.carry.length }) ∧
  (x.carry ≠ [] → x.frame.length = 4 → x.st = .active → x.op = none → x.marked = some ls → lanesIn x .waking = [] → Claims.Goes (.frameBoundary q) s fun u =>
    u.mem = s.mem ∧ (y u).out = stripe x.carry x.group (frameBytes x.frame) ∧ (y u).carry = ls ∧ (y u).width = ls.length ∧ (y u).group = 0 ∧ (y u).marked = none ∧
    (x.lanes.length = 8 → ∀ k, k < 8 → k ∈ x.parking → k ∉ ls → (y u).lanes.getD k .dark = .parked)) ∧
  (x.carry ≠ [] → x.frame = [] → x.st = .active → x.marked = none → x.newCarry = none → s.guarded q = false →
    (x.sinceRefresh < 252 → Claims.Goes (.frameBoundary q) s fun u => (y u).frame = [] ∧ (y u).txq = x.txq ∧
      (y u).allow = x.allow ∧ (y u).seqOut = x.seqOut ∧ u.mem = s.mem ∧ ∃ hs : List FlitHead, hs.length = 4 ∧ (∀ h ∈ hs, h.cls = 3 ∧ h.kind = 1 ∧ h.seq = 0) ∧
        (y u).out = stripe x.carry x.group (frameBytes (hs.map fun h => h.bytes ++ List.replicate 256 0))) ∧
    (255 ≤ x.sinceRefresh → Claims.Goes (.frameBoundary q) s fun u => (y u).frame = [] ∧ (y u).txq = x.txq ∧ (y u).allow = x.allow ∧ (y u).sinceRefresh = 3 ∧ u.mem = s.mem ∧
      ∃ (h : FlitHead) (hs : List FlitHead), h.cls = 3 ∧ h.kind = 2 ∧ hs.length = 3 ∧ (∀ k ∈ hs, k.cls = 3 ∧ k.kind = 1 ∧ k.seq = 0) ∧
        (y u).out = stripe x.carry x.group (frameBytes ((h.bytes ++ pad 256 (([0, 1, 2, 3] : List Nat).flatMap fun k => leBytes 2 (x.allowOf x.peer k).freed)) ::
          hs.map fun k => k.bytes ++ List.replicate 256 0)))) ∧
  (∀ t, x.lastRewrite = some t → (s.now (q / 4) < t + 64 → exec (.depthRewrite q) s = .next s) ∧
    (t + 64 ≤ s.now (q / 4) → s.depthOf x ≠ x.depthWord → Claims.Goes (.depthRewrite q) s fun u => Claims.became s u q { x with depthWord := s.depthOf x, depthFlag := if x.thresh ≠ 0 ∧ x.thresh ≤ s.depthOf x then 1 else 0, lastRewrite := some (s.now (q / 4)) }))

/-- R193, R329, R340, R342, R345, R346, R347, R350: a frame that arrives is corrected where it can be, and counted poisoned where not: a poisoned control
flit brings no message. A request is whole with its last flit and goes on from the port's relay point, its way back kept. A refresh flit's counts are taken
where they lie within what was sent. A relayed packet leaves its relay area for its die, or goes on; a request with 16 hops behind it is redirected. -/
def Claims.FramesIn : Prop := ∀ (s : State) (q n : Nat) (bytes : List Byte) (f : Flit) (l : List Flit) (p : Pkt),
  let x := s.port q
  let dec := (List.range 4).map fun c => rsDecode (codeword bytes c)
  let fixed := (dec.filter fun d => match d with | some r => r.2 != 0 | none => false).length
  let lit : Prop := bytes.length = 1152 ∧ (x.st ≠ .dark ∨ x.newSched ≠ none)
  let lone : Prop := (∀ r ∈ dec, r.map (·.2) = some 0) ∧ ∀ k, k = 1 ∨ k = 2 ∨ k = 3 → (parseHead ((bytes.drop (272 * k)).take 16)).map (·.kind) = some 1
  (¬lit → exec (.frameReceived q bytes) s = .next s) ∧
  (lit → Claims.Goes (.frameReceived q bytes) s fun u => u.mem = s.mem ∧ (u.port q).corrected = (x.corrected + fixed) % 2 ^ 64 ∧
    ((∀ r ∈ dec, r.isSome = true) → (u.port q).poisonedFrames = x.poisonedFrames % 2 ^ 32) ∧
    ((∃ r ∈ dec, r = none) → (u.port q).poisonedFrames = (x.poisonedFrames + 1) % 2 ^ 32 ∧ u.ctl = s.ctl)) ∧
  (lit → lone → ∀ h : FlitHead, parseHead (bytes.take 16) = some h → h.kind = 0 → h.poisoned = false →
    (h.cls = 3 → (bytes.getD 80 0).toNat < 7 → Claims.Goes (.frameReceived q bytes) s fun u =>
      ∃ m, AMap.find u.ctl s.nextId = some m ∧ m.at_ = q / 4 ∧ m.link = q % 4 ∧ m.bytes = (bytes.drop 16).take 255) ∧
    (h.cls = 0 → h.first = true → h.last = true → x.from_ = x.peer → isRequest p = true → (∀ t : State, { t with ports := s.ports, threads := s.threads } = s →
      t.parsePacket (q / 4) [((bytes.drop 16).take 256, false)] = .ok p) → Claims.Goes (.frameReceived q bytes) s fun u =>
        ((u.port q).allowOf x.peer 0).freed = ((x.allowOf x.peer 0).freed + 1) % 65536 ∧ (p.src, p.acc) ∈ (u.port q).owed ∧
        ∃ r, AMap.find u.net s.nextId = some r ∧ r.kind = p.kind ∧ r.fa = p.fa ∧ r.acc = p.acc ∧ r.cells = p.cells ∧ r.at_ = p.at_ ∧ r.relay = false ∧
          r.sw = 1 + q % 4 ∧ r.came = s.now (q / 4) ∧ r.back = [.port (q % 4) x.peer])) ∧
  (x.rxq = f :: l → f.kind = 2 → Claims.Goes (.refreshFlit q) s fun u => (u.port q).rxq = l ∧ u.mem = s.mem ∧ u.net = s.net ∧ ∀ c, c < 4 →
    let a := x.allowOf x.peer c
    let v := fld f.bytes (2 * c) 2
    ((u.port q).allowOf x.peer c).s = a.s ∧ ((u.port q).allowOf x.peer c).k =
      if (v + 65536 - a.k) % 65536 ≤ (a.s + 65536 - a.k) % 65536 then v else a.k) ∧
  (AMap.find s.net n = some p → p.relay = true → s.relayBefore n p = true → exec (.relayPacket n) s = .next s) ∧
  (AMap.find s.net n = some p → p.relay = true → s.relayBefore n p = false → s.purged p.at_ p = false → p.at_ < 4 → p.port.getD 0 < 4 → n < s.nextId →
    let w := 4 * p.at_ + p.port.getD 0
    let goes (P : State → Prop) : Prop := Claims.Goes (.relayPacket n) s fun u =>
      ((u.port w).allowOf (s.port w).peer 2).freed = (((s.port w).allowOf (s.port w).peer 2).freed + s.flitsOf p) % 65536 ∧ P u
    (s.local? p.dst ≠ some p.at_ → isRequest p = true → 16 ≤ p.hop → goes fun u => AMap.find u.net n = none ∧
      ∃ k r, AMap.find u.net k = some r ∧ (r.kind = 6 ∨ r.kind = 7) ∧ r.dst = p.src ∧ r.acc = p.acc ∧ r.val = 0xFFFF) ∧
    (s.local? p.dst = some p.at_ → isRequest p = true → goes fun u => AMap.find u.net n = none ∧ u.mem = s.mem ∧
      (p.src, p.acc) ∈ (u.port w).owed ∧ ∃ r, AMap.find u.net s.nextId = some r ∧ r.kind = p.kind ∧ r.relay = false ∧ r.acc = p.acc ∧ r.fa = p.fa ∧ r.at_ = p.at_ ∧
        r.sw = 1 + w % 4 ∧ r.back = [.port (w % 4) (s.port w).peer]) ∧
    (∀ e, kindClass p.kind = 1 → AMap.find s.riders (p.dst, p.acc) = some e → goes fun u => AMap.find u.net n = none ∧ AMap.find u.riders (p.dst, p.acc) = none ∧ u.mem = s.mem ∧
      ∃ r, AMap.find u.net s.nextId = some r ∧ r.kind = p.kind ∧ r.acc = p.acc ∧ r.dst = p.dst ∧ r.trail = e.trail ∧ r.back = e.back) ∧
    (∀ j, s.local? p.dst = some j → j ≠ p.at_ → (isRequest p = true → p.hop < 16) → (kindClass p.kind = 1 → AMap.find s.riders (p.dst, p.acc) = none) → goes fun u =>
      ∃ r, AMap.find u.net n = some r ∧ r.at_ = j ∧ r.relay = false ∧ r.hop = p.hop + 1))

/-- R354, R355, R399: the port complex takes the oldest link function of a die and answers it at once with its status, or begins it. -/
def Claims.LinkAcceptance : Prop := ∀ (s : State) (i : Nat) (o : LinkOp) (l : List LinkOp),
  let q := o.port
  let x := s.port q
  let up := lanesIn x .carrying
  let names := maskLanes o.mask
  let free : Prop := x.op = none ∧ x.newCarry = none ∧ x.marked = none
  let ours : Prop := o.t.sh = false ∧ s.slotOf (gidOf o.t) o.gnum = some (gidOf o.t) ∧ (s.grp (gidOf o.t)).num = o.gnum ∧
    (s.grp (gidOf o.t)).shadow = 0 ∧ (s.grp (gidOf o.t)).twin = none
  let goes (P : State → Prop) : Prop := Claims.Goes (.linkFunctionAccept i) s fun u => (u.die i).linkq = l ∧ u.mem = s.mem ∧ P u
  let status (n : Nat) : Prop := goes fun u => Claims.status u o.t n
  (s.die i).linkq = o :: l → ours → x.lanes.length = 8 →
  (q / 4 ≠ i → status 1) ∧
  (q / 4 = i → (x.st = .waking ∨ x.st = .reconfiguring ∨ x.st = .training) → status 2) ∧
  (q / 4 = i → x.st = .active → free → o.fn = 0 →
    (up ≠ [] → (∀ k ∈ up, k ∈ names) → status 3) ∧
    ((∀ k ∈ up, k ∉ names) → goes fun u => Claims.status u o.t 0 ∧ (u.port q).thresh = o.thresh ∧ (u.port q).lanes = x.lanes) ∧
    ((∃ k ∈ up, k ∈ names) → (∃ k ∈ up, k ∉ names) → goes fun u => (u.port q).thresh = o.thresh ∧ (u.port q).op = some o ∧
      (u.port q).newCarry = some (up.filter fun k => !names.contains k) ∧ ∀ k, k ∈ (u.port q).parking ↔ k ∈ names ∧ k ∈ up)) ∧
  (q / 4 = i → o.fn = 1 → (x.st = .dark ∨ x.st = .failed) → x.newSched = none → goes fun u => (u.port q).st = .training ∧ (u.port q).named = names ∧
    (u.port q).op = some o ∧ (u.port q).since = s.now i) ∧
  (q / 4 = i → o.fn = 1 → x.st = .active → free → (∀ k ∈ names, k ∈ up) → status 0) ∧
  (q / 4 = i → o.fn = 1 → x.st = .parked → free → names ≠ [] → (∀ k ∈ names, x.lanes.getD k .dark = .parked) → goes fun u => (u.port q).st = .waking ∧
    (u.port q).named = names ∧ (u.port q).op = some o ∧ (u.port q).since = s.now i ∧ ∀ k ∈ names, (u.port q).lanes.getD k .dark = .waking) ∧
  (q / 4 = i → 2 ≤ o.fn → x.st = .active → free → (s.sem ≠ 0x10 + i → status 4) ∧ (s.sem = 0x10 + i → o.badTable = true → status 5) ∧
    (s.sem = 0x10 + i → o.badTable = false → goes fun u => (u.port q).st = .reconfiguring ∧ (u.port q).op = some o ∧ (u.port q).since = s.now i ∧
      (∀ r ∈ (u.die i).routes, r.next ≠ q % 4) ∧ ∃ p, p ∈ (u.port q).txq ∧ p.kind = 201 ∧ (p.cells.map (·.2)).headD 0 = 1))

/-! ### Purges, power, pins and the test port (R15, R199, R208, R238, R292, R360, R363-R365, R384, R385, R391) -/

/-- R199, R208, R238, R243, R292, R363 to R365: the phases of a purge. At each die the tag enters its filter, or the start waits for room; the groups that bear it end,
its commands, tasks, parked accesses, held and queued requests and combined pairs leave, its launches create no further group, and the die acknowledges. With every acknowledgement the starting die sends the release, which
counts the filter down; the last one completes the purge, and its thread gets 0. -/
def Claims.Purges : Prop := ∀ (s : State) (n : Nat) (p : Pkt) (x : PurgeOp) (t : ThreadId) (g : Nat),
  let i := p.at_
  let d := s.die i
  let me := s.dieNo i
  let c := AMap.getD d.filter p.tag.toNat 0
  let phase (k : Nat) : Prop := AMap.find s.net n = some p ∧ p.kind = 13 ∧ p.val2 = k ∧ s.local? p.dst = some i
  let mine (r : Pkt) : Prop := r.tag = p.tag ∧ r.mixed = false
  let sent (u : State) (ph dst : Nat) : Prop := ∃ k r, AMap.find u.net k = some r ∧ r.kind = 13 ∧ r.val2 = ph ∧ r.dst = dst ∧ r.src = me ∧ r.tag = p.tag
  (phase 0 → c = 0 → 16 ≤ d.filter.length → Claims.Goes (.purgeStart n) s fun u => Claims.taken s u n ∧ (u.die i).purgeWait = d.purgeWait ++ [p] ∧ u.mem = s.mem) ∧
  (phase 0 → (c ≠ 0 ∨ d.filter.length < 16) → Claims.Goes (.purgeStart n) s fun u => AMap.find (u.die i).filter p.tag.toNat = some (c + 1) ∧ sent u 1 p.origin ∧
    (∀ h y, AMap.find u.groups h = some y → h.die = i → y.tag = p.tag → y.st = .ending) ∧ (∀ o ∈ u.outs, o.was.die = i → o.g.tag ≠ p.tag) ∧
    (∀ e ∈ u.copies, (∀ k ∈ e.2.q, k.tag = p.tag → k.core.die ≠ i) ∧ ∀ k ∈ e.2.fly, k.tag = p.tag → k.core.die = i → k.stopped = true) ∧
    (∀ r ∈ (u.die i).holdW ++ (u.die i).holdL, ¬mine r) ∧ (∀ e ∈ u.threads, e.1.die = i → e.2.tag = p.tag → e.2.held = [] ∧ e.2.cmds = []) ∧
    (∀ e ∈ (u.die i).pairs, (mine e.2.early → e.2.killE = true) ∧ (mine e.2.late → e.2.killL = true) ∧ ¬(mine e.2.early ∧ mine e.2.late)) ∧
    (∀ w, w < 4 → ∀ r ∈ (u.port (4 * i + w)).txq, mine r → isRequest r = true → r.trail ≠ []) ∧
    (∀ l y, AMap.find u.launches l = some y → y.die = i → launchTag y = p.tag → y.phase < 5 → y.dead = true)) ∧
  (phase 1 → d.purges = [x] → x.tag = p.tag → x.released = false → p.src ∉ x.acks →
    (∀ k, (k = me ∨ k ∈ s.others me) → k ≠ p.src → k ∉ x.acks → Claims.Goes (.purgeAcknowledgement n) s fun u => Claims.taken s u n ∧ u.mem = s.mem ∧
      (u.die i).purges = [{ x with acks := x.acks ++ [p.src] }]) ∧
    ((∀ k, (k = me ∨ k ∈ s.others me) → k = p.src ∨ k ∈ x.acks) → Claims.Goes (.purgeAcknowledgement n) s fun u => u.mem = s.mem ∧ sent u 2 me ∧
      (∀ k ∈ s.others me, sent u 2 k) ∧ (u.die i).purges = [{ x with acks := x.acks ++ [p.src], released := true }])) ∧
  (phase 2 → 1 < c → Claims.Goes (.purgeRelease n) s fun u => Claims.taken s u n ∧ u.mem = s.mem ∧ AMap.find (u.die i).filter p.tag.toNat = some (c - 1) ∧
    (u.die i).purges = d.purges) ∧
  (phase 2 → c ≤ 1 → d.purges = [x] → x.tag = p.tag → x.released = true → x.t = some (t, g) → t.sh = false → d.purgeWait = [] →
    s.slotOf (gidOf t) (BitVec.ofNat 64 g) = some (gidOf t) → (s.grp (gidOf t)).num = BitVec.ofNat 64 g → (s.grp (gidOf t)).shadow = 0 → (s.grp (gidOf t)).twin = none →
    Claims.Goes (.purgeRelease n) s fun u => AMap.find (u.die i).filter p.tag.toNat = none ∧ (u.die i).purges = [] ∧ Claims.status u t 0 ∧ u.mem = s.mem)

/-- R15, R384, R385: power gating follows the limit; the freeze pin stops every clock; the reset pin leaves the package as after reset, with what its
flash holds in effect. -/
def Claims.PinsAndPower : Prop := ∀ (s : State) (i : Nat) (b : Bool),
  exec (.powerLimit i b) s = .next (s.setDie i { s.die i with gated := b }) ∧
  (Claims.Goes .freezePin s fun u => u.frozen = true ∧ { u with frozen := s.frozen } = s) ∧
  (Claims.Goes .resetPin s fun u => u.mem = [] ∧ u.poison = [] ∧ u.threads = [] ∧ u.groups = [] ∧ u.dies = [] ∧ u.ports = [] ∧ u.queues = [] ∧ u.regions = [] ∧
    u.ctxs = [] ∧ u.sem = 0 ∧ u.frozen = false ∧ u.power = 0 ∧ u.pkg = s.pkg ∧ u.flash.active = s.flash.nextActive ∧ u.flash.minVer = s.flash.minVer ∧
    (∀ n l, s.flash.newStand = some (n, l) → u.flash.stand = n ∧ u.flash.pkgs = l) ∧ (s.flash.newStand = none → u.flash.stand = s.flash.stand ∧ u.flash.pkgs = s.flash.pkgs) ∧
    u.boot = true ∧ u.choices = s.choices ∧ u.tap = s.tap)

/-- R384: the instructions of the test port. Each leaves everything but the port as it is. -/
def Claims.TestPort : Prop := ∀ (s : State) (b : Bool) (pins pre : List Bool) (die fa : Nat),
  let sets (i : Instr) (P : Tap → Prop) : Prop := Claims.Goes i s fun u => { u with tap := s.tap } = s ∧ P u.tap
  sets (.bypass b) (fun t => t.bypass = b ∧ t.out = (if s.tap.bypass then 1 else 0) ∧ t.driven = none ∧ t.die = s.tap.die) ∧
  sets .idcode (fun t => t.out = 0x14B4A56B ∧ t.driven = none ∧ t.die = s.tap.die) ∧
  sets (.samplePreload pins pre) (fun t => t.boundary = pins ∧ t.preload = pre ∧ t.driven = none ∧ t.die = s.tap.die) ∧
  sets .extest (fun t => t.driven = some s.tap.preload ∧ t.preload = s.tap.preload ∧ t.die = s.tap.die) ∧
  sets (.seldie die) (fun t => t.die = die ∧ t.driven = none ∧ t.preload = s.tap.preload) ∧
  (s.frozen = false → sets (.memrd fa) fun t => t.out = 0 ∧ t.die = s.tap.die) ∧
  (∀ q r, s.frozen = true → q < 4 → (∀ k, k < 8 → s.homeRoute s.tap.die (fa + k) = some r ∧ s.ownRoute q (fa + k) r.len = some r) → s.local? r.origin = some q →
    sets (.memrd fa) fun t => t.out.toNat = leNat ((List.range 8).map fun k => (s.byteAt (Route.physical r (fa + k))).1) ∧ t.die = s.tap.die)

/-! ### The calls of the management firmware (R299-R307, R313, R316, R352, R361, R376-R391) -/

/-- The events that serve the calls, by their step. -/
noncomputable def Claims.calls (die : Nat) : List (Instr × Nat) :=
  [(.fwCreateContext die, 1), (.fwMakeContextLive die, 2), (.fwRetireContext die, 3), (.fwCreateRegion die, 4), (.fwChangeRegion die, 5), (.fwRetireRegion die, 6),
    (.fwCreateQueue die, 7), (.fwDestroyQueue die, 8), (.fwInvalidateTranslations die, 9), (.fwReplayParkedRange die, 10), (.fwEmptyFaultRecord die, 11),
    (.fwResetConsumed die, 12), (.fwSetBudget die, 13), (.fwAnnouncePortStatus die, 14), (.fwWithdrawPortStatus die, 15)] ++
  [(.fwAcquireSemaphore die, 16), (.fwReleaseSemaphore die, 17), (.fwSetRetry die, 18), (.fwSetPreemptionLimit die, 19), (.fwDesignateSequencer die, 20),
    (.fwVersionQuery die, 21), (.fwAttestationReport die, 22), (.fwDeviceCertificate die, 23), (.fwPowerState die, 24), (.fwFirmwareUpdate die, 25), (.fwFreeze die, 26),
    (.fwPackageReset die, 27), (.fwWriteStandTable die, 28)]

/-- A call has ended with a status and a result: it has left its queue, and its completion word is on its way to the address it named. -/
def Claims.ended (u : State) (die : Nat) (y : Queue) (e : Entry) (st r : Nat) : Prop :=
  (u.queue? (callKey die)).map (·.entries) = some (y.entries.drop 1) ∧ (u.die die).fw = none ∧ ∀ q, u.homeRoute die (e.fld 8 8) = some q →
    ∃ k p, AMap.find u.net k = some p ∧ p.kind = 16 ∧ p.dst = q.origin ∧ p.cells = (leBytes 4 st ++ leBytes 4 r).zipIdx.map fun b => (e.fld 8 8 + b.2, b.1)

/-- The oldest call of a die, which none of the checks of R377 to R379 turns away. -/
def Claims.called (s : State) (die k : Nat) (y : Queue) (e : Entry) : Prop :=
  s.callHead die = some (y, e) ∧ e.step = k ∧ (s.die die).fw = none ∧ e.fld 0 1 = 1 ∧ e.fld 8 8 % 8 = 0 ∧ (e.fld 2 2 = 0 ∨ k = 23) ∧ e.argsClean k = true ∧
    ∃ c, s.callerCode e = some c ∧ (needsSem (e.fld 1 1) = true → s.sem = c)

/-- R377 to R379: a call of another version ends with status 4, of a caller that may not call with 3, of one that needs the semaphore and does not hold it with 2, with
an argument out of place with 1; nothing else happens. A call whose outputs are out ends when each has been acknowledged. A step serves
only its own calls. -/
def Claims.CallChecks : Prop := ∀ (s : State) (die k : Nat) (i : Instr) (y : Queue) (e : Entry) (f : FwEnd) (c : Nat), (i, k) ∈ Claims.calls die → s.callHead die = some (y, e) →
  let ends (st r : Nat) : Prop := Claims.Goes i s fun u => Claims.ended u die y e st r ∧ u.mem = s.mem ∧ u.ctxs = s.ctxs ∧ u.regions = s.regions ∧ u.sem = s.sem ∧ u.flash = s.flash
  (e.step ≠ k → exec i s = .next s) ∧
  (e.step = k → (s.die die).fw = some f → (∃ n ∈ f.ids, (AMap.find s.accs n).isSome = true) → exec i s = .next s) ∧
  (e.step = k → (s.die die).fw = some f → (∀ n ∈ f.ids, AMap.find s.accs n = none) → f.addr = e.fld 8 8 → y.call = true → y.block = 0 → ends f.status f.result) ∧
  (e.step = k → (s.die die).fw = none → y.block = 0 → (e.fld 0 1 ≠ 1 → ends 4 0) ∧ (e.fld 0 1 = 1 → s.callerCode e = none → ends 3 0) ∧
    (e.fld 0 1 = 1 → s.callerCode e = some c → (needsSem (e.fld 1 1) = true → s.sem ≠ c → ends 2 0) ∧
      ((needsSem (e.fld 1 1) = true → s.sem = c) → (e.fld 8 8 % 8 ≠ 0 ∨ (e.fld 2 2 ≠ 0 ∧ k ≠ 23) ∨ e.argsClean k = false) → ends 1 0)))

/-- R299, R308, R313, R316: the calls for contexts: one is built, then live, then retired when no region names it; translations
in a range leave every buffer of the package; the parked accesses in a range may issue again, and their spans are outstanding no more; the result counts
those that now translate (where a table lies outside the package, it is some number: log entry 79). -/
def Claims.ContextCalls : Prop := ∀ (s : State) (die : Nat) (y : Queue) (e : Entry) (c : Ctx),
  let n := e.fld 18 2
  let a := e.fld 24 8
  let len := e.fld 32 8
  let call (i : Instr) (k st r : Nat) (P : State → Prop) : Prop := Claims.called s die k y e → Claims.Goes i s fun u => Claims.ended u die y e st r ∧ P u
  let in? (p : Parked) : Prop := p.ctx = n ∧ a ≤ p.va ∧ p.va < a + len
  (e.fld 16 1 = 0 → e.fld 17 1 = 1 → n ≠ 0 → AMap.find s.ctxs n = none → a % 65536 = 0 → isPow2 (e.fld 40 2) = true → 16 ≤ e.fld 40 2 → e.fld 40 2 ≤ 4096 →
    call (.fwCreateContext die) 1 0 0 fun u => AMap.find u.ctxs n = some { root := a, area := len, cap := e.fld 40 2, notice := e.fld 48 8, live := false }) ∧
  ((AMap.find s.ctxs n).isSome = true → call (.fwCreateContext die) 1 1 0 fun u => u.ctxs = s.ctxs) ∧
  (AMap.find s.ctxs n = some c → c.live = false → call (.fwMakeContextLive die) 2 0 0 fun u => AMap.find u.ctxs n = some { c with live := true }) ∧
  (AMap.find s.ctxs n = some c → c.live = true → (s.regions.all fun r => r.2.ctx != n) = true → call (.fwRetireContext die) 3 0 0 fun u => AMap.find u.ctxs n = none ∧
    (∀ k ∈ u.cores, ∀ t ∈ k.2.tlb, t.ctx ≠ n) ∧ ∀ k ∈ u.clusters, ∀ t ∈ k.2.tlb, t.ctx ≠ n) ∧
  (AMap.find s.ctxs n = some c → (∃ r ∈ s.regions, r.2.ctx = n) → call (.fwRetireContext die) 3 1 0 fun u => u.ctxs = s.ctxs) ∧
  ((AMap.find s.ctxs n).isSome = true → e.fld 16 1 ≤ 1 → call (.fwInvalidateTranslations die) 9 0 0 fun u => u.ctxs = s.ctxs ∧
    (∀ k ∈ u.cores, ∀ t ∈ k.2.tlb, t.ctx = n → e.fld 16 1 = 0 ∧ (a + len ≤ t.va ∨ t.va + 2 ^ t.size ≤ a)) ∧
    ∀ k ∈ u.clusters, ∀ t ∈ k.2.tlb, t.ctx = n → e.fld 16 1 = 0 ∧ (a + len ≤ t.va ∨ t.va + 2 ^ t.size ≤ a)) ∧
  (AMap.find s.ctxs n = some c → (∀ k ∈ s.cores, ∀ p ∈ k.2.fbuf, ∃ t, p.owner = .thread t) →
    let seen := ((s.parkedOn die).filter fun p => p.2.ctx == n && decide (a ≤ p.2.va) && decide (p.2.va < a + len)).map fun p => s.peek die p.2.va 3 c.root
    let again (u : State) : Prop := (∀ i, i < 4 → ∀ x ∈ (u.die i).spans, x.1 = n → a + len ≤ 65536 * x.2 ∨ 65536 * (x.2 + 1) ≤ a) ∧ ∀ k, ∀ p ∈ (u.core k).fbuf, ¬in? p
    (none ∉ seen → call (.fwReplayParkedRange die) 10 0 ((seen.filter (· == some true)).length % 2 ^ 32) again) ∧
    (none ∈ seen → Claims.called s die 10 y e → Claims.Goes (.fwReplayParkedRange die) s fun u => ∃ r, r < 2 ^ 32 ∧ Claims.ended u die y e 0 r ∧ again u))

/-- R160, R299 to R307, R361: the calls for regions: one is created from its control block; changed but for what the part maintains, unless tags then lie
outside a parent's, its work going on in its new context; retired when it has no child, its slots free with its last group; its fault
record is emptied, its consumed count set to 0, its budget and its retry setting written, and the pre-emption limit of the package. -/
def Claims.RegionCalls : Prop := ∀ (s s1 : State) (die n : Nat) (y : Queue) (e : Entry) (b : List Byte) (x old : Region) (q : Route),
  let m := e.fld 18 2
  let a := e.fld 24 8
  let call (i : Instr) (k st r : Nat) (P : State → Prop) : Prop := Claims.called s die k y e → Claims.Goes i s fun u => Claims.ended u die y e st r ∧ P u
  let out (i : Instr) (k st r fa : Nat) (bs : List Byte) (P : State → Prop) : Prop := Claims.called s die k y e → s.homeRoute die fa = some q → Claims.Goes i s fun u =>
    (u.die die).fw = some { ids := [s.nextId], addr := e.fld 8 8, status := st, result := r } ∧ u.mem = s.mem ∧ P u ∧
    ∃ p, AMap.find u.net (s.nextId + 1) = some p ∧ p.kind = 16 ∧ p.dst = q.origin ∧ p.cells = bs.zipIdx.map fun c => (fa + c.2, c.1)
  let read : Prop := a % 128 = 0 ∧ State.fwPieces die 9 s a 128 = .ok s1 b ∧ s1.regionOf b = some (n, x) ∧ s1.queue? (callKey die) = some y
  (read → e.fld 16 1 = 0 → s1.region n = none → call (.fwCreateRegion die) 4 0 n fun u => u.region n = some { x with block := a }) ∧
  (read → e.fld 16 1 = 0 → (s1.region n).isSome = true → call (.fwCreateRegion die) 4 1 0 fun u => u.regions = s1.regions) ∧
  (read → n = m → s1.region n = some old → (x.parent = 0 ∨ s1.below treeDepth n x.parent = false) →
    let z : Region := { x with st := old.st, consumed := old.consumed, retryOn := old.retryOn, retryOver := old.retryOver, written := old.written
                               lost := old.lost, stopped := old.stopped, block := a }
    let nests := ({ s1 with regions := AMap.set s1.regions n z } : State).tagsNest
    (nests = true → call (.fwChangeRegion die) 5 0 n fun u => u.region n = some z ∧ (x.ctx ≠ old.ctx → ∀ g ∈ u.groups, g.2.region = n → g.2.ctx = x.ctx)) ∧
    (nests = false → call (.fwChangeRegion die) 5 1 0 fun u => u.regions = s1.regions)) ∧
  (s.region m = some x → x.st = 0 → x.block = 0 → (∀ r ∈ s.regions, r.2.parent ≠ m) → ((∃ g ∈ s.groups, g.2.region = m) →
      call (.fwRetireRegion die) 6 0 m fun u => u.region m = some { x with st := 1 }) ∧
    ((∀ g ∈ s.groups, g.2.region ≠ m) → s.outs = [] → s.queues = [(callKey die, y)] → y.call = true → s.launches = [] → (∀ k ∈ s.cores, k.2.envq = []) →
      call (.fwRetireRegion die) 6 0 m fun u => u.region m = none ∧ ∀ k ∈ u.cores, ∀ w ∈ k.2.env, w.2.st ≠ .free → w.2.region ≠ m)) ∧
  (s.region m = some x → s.domainTop treeDepth m = m → out (.fwEmptyFaultRecord die) 11 0 x.written x.frec (List.replicate 16 0) fun u =>
    u.region m = some { x with written := 0, lost := 0 }) ∧
  (s.region m = some x → e.fld 16 1 = 1 → (x.block = 0 → call (.fwResetConsumed die) 12 0 0 fun u => u.region m = some { x with consumed := 0 }) ∧
    (x.block ≠ 0 → out (.fwResetConsumed die) 12 0 0 (x.block + 24) (List.replicate 8 0) fun u => u.region m = some { x with consumed := 0 })) ∧
  (s.region m = some x → e.fld 16 1 ≤ 3 → e.fld 16 1 % 2 = 0 → (x.block = 0 → call (.fwSetBudget die) 13 0 0 fun u => u.region m = some { x with budget := a }) ∧
    (x.block ≠ 0 → out (.fwSetBudget die) 13 0 0 (x.block + 16) (leBytes 8 a) fun u => u.region m = some { x with budget := a })) ∧
  (s.region m = some x → e.fld 16 1 = 3 → x.block = 0 → call (.fwSetBudget die) 13 0 0 fun u => u.region m = some { x with budget := a, consumed := 0 }) ∧
  (s.region m = some x → e.fld 16 1 ≤ 1 → e.fld 17 1 ≤ 1 → call (.fwSetRetry die) 18 0 0 fun u =>
    u.region m = some { x with retryOn := e.fld 16 1 == 1, retryOver := e.fld 17 1 == 1 }) ∧
  (4096 ≤ e.fld 24 4 → e.fld 24 4 ≤ 2 ^ 24 → call (.fwSetPreemptionLimit die) 19 0 0 fun u => ∀ i, i < 4 → (u.die i).preLimit = e.fld 24 4) ∧
  ((e.fld 24 4 < 4096 ∨ 2 ^ 24 < e.fld 24 4) → call (.fwSetPreemptionLimit die) 19 1 0 fun u => ∀ i, i < 4 → (u.die i).preLimit = (s.die i).preLimit)

/-- R289, R322, R330, R352, R380, R382: the calls for queues and the status blocks announce and withdraw their prefixes; the semaphore is taken and freed by the caller's
code; the system sequencer is named. -/
def Claims.QueueAndSemaphoreCalls : Prop := ∀ (s s1 : State) (die c : Nat) (y w : Queue) (e : Entry) (b : List Byte) (r : Route) (z : Nat × Queue),
  let me := s.dieNo die
  let a := e.fld 24 8
  let call (i : Instr) (k st v : Nat) (P : State → Prop) : Prop := Claims.called s die k y e → Claims.Goes i s fun u => Claims.ended u die y e st v ∧ P u
  (e.fld 16 1 = 0 → State.fwPieces die 5 s a 64 = .ok s1 b → s1.queueOf die b = some w → (s1.queues.all fun q => q.2.push != w.push) = true →
    s1.queue? (callKey die) = some y → die < 4 → call (.fwCreateQueue die) 7 0 0 fun u =>
      AMap.find u.queues (queueKey s1.nextId) = some { w with block := a } ∧
      ((s1.entry die w.push 58 me).isSome = true ∨ s1.tableSize die < 16384 → ∃ r, u.entry die w.push 58 me = some r ∧ r.cls = 2) ∧
      (s1.entry die w.push 58 me = none → 16384 ≤ s1.tableSize die → u.entry die w.push 58 me = none ∧ (2, w.push) ∈ (u.die die).events)) ∧
  (e.fld 16 1 = 0 → State.fwPieces die 5 s a 64 = .ok s1 b → s1.queueOf die b = none → s1.queue? (callKey die) = some y →
    call (.fwCreateQueue die) 7 1 0 fun u => ∀ k, k ≠ callKey die → AMap.find u.queues k = AMap.find s1.queues k) ∧
  (s.queues.find? (fun q => q.2.die == die && q.2.push == a && !q.2.call) = some z → z.1 ≠ callKey die → call (.fwDestroyQueue die) 8 0 0 fun u =>
    AMap.find u.queues z.1 = none ∧ u.entry die a 58 me = none) ∧
  (e.fld 16 1 = 0 → s.entriesOf die (statusBase me) 56 = [] → s.tableSize die < 16384 → call (.fwAnnouncePortStatus die) 14 0 0 fun u =>
    ∃ r, u.entry die (statusBase me) 56 me = some r ∧ r.cls = 0 ∧ r.st = .installed ∧ r.backing = statusBase me) ∧
  (s.entriesOf die (statusBase me) 56 = [r] → r.origin = me → call (.fwWithdrawPortStatus die) 15 0 0 fun u => u.entry die (statusBase me) 56 me = none ∧
    ∃ o ∈ (u.die die).rops, o.fn = 1 ∧ o.pre = statusBase me ∧ o.len = 56 ∧ o.t = none) ∧
  (s.callerCode e = some c → c ≠ 0 → e.fld 16 1 = 0 →
    (s.sem = 0 → call (.fwAcquireSemaphore die) 16 0 0 fun u => u.sem = c) ∧ (s.sem = c → call (.fwAcquireSemaphore die) 16 0 1 fun u => u.sem = c) ∧
    (s.sem ≠ 0 → s.sem ≠ c → call (.fwAcquireSemaphore die) 16 0 (s.sem * 256 + 2) fun u => u.sem = s.sem)) ∧
  (s.callerCode e = some c → (s.sem = c → call (.fwReleaseSemaphore die) 17 0 0 fun u => u.sem = 0) ∧
    (s.sem ≠ c → call (.fwReleaseSemaphore die) 17 0 (s.sem * 256 + 2) fun u => u.sem = s.sem)) ∧
  call (.fwDesignateSequencer die) 20 0 0 (fun u => u.sysSeq = some (e.fld 18 2))

/-- R381, R384 to R391: versions, attestation and certificate go where the call says; power, firmware image and stand table are set, the last two for the next reset; freeze and
reset end in no completion word. -/
def Claims.PackageCalls : Prop := ∀ (s s1 : State) (die : Nat) (y : Queue) (e : Entry) (b : List Byte) (q : Route),
  let a := e.fld 24 8
  let call (i : Instr) (k st v : Nat) (P : State → Prop) : Prop := Claims.called s die k y e → Claims.Goes i s fun u => Claims.ended u die y e st v ∧ P u
  let out (i : Instr) (k fa : Nat) (bs : List Byte) : Prop := Claims.called s die k y e → s.homeRoute die fa = some q → Claims.Goes i s fun u =>
    (u.die die).fw = some { ids := [s.nextId], addr := e.fld 8 8, status := 0, result := 0 } ∧ u.mem = s.mem ∧
    ∃ p, AMap.find u.net (s.nextId + 1) = some p ∧ p.kind = 16 ∧ p.dst = q.origin ∧ p.cells = bs.zipIdx.map fun c => (fa + c.2, c.1)
  let read (n len : Nat) : Prop := State.fwPieces die n s a len = .ok s1 b ∧ s1.queue? (callKey die) = some y
  let dies := diesAt b 4 (fld b 2 1)
  (e.fld 1 1 = 13 → out (.fwVersionQuery die) 21 a ((List.replicate 6 (leBytes 2 1)).flatMap id)) ∧
  (e.fld 1 1 ≠ 13 → call (.fwVersionQuery die) 21 1 0 fun u => u.flash = s.flash ∧ u.regions = s.regions) ∧
  out (.fwAttestationReport die) 22 (e.fld 8 8 + 8) (s.report ((List.range 48).map fun k => BitVec.ofNat 8 (e.fld (16 + k) 1))) ∧
  out (.fwDeviceCertificate die) 23 (e.fld 8 8 + 8) (pad 256 Config.certificate) ∧
  (e.fld 16 1 < 2 → (e.fld 16 1 = 1 → 1 ≤ e.fld 17 1 ∧ e.fld 17 1 ≤ 16) → (e.fld 16 1 ≠ 1 → e.fld 17 1 = 0) → call (.fwPowerState die) 24 0 0 fun u =>
    u.power = e.fld 16 1 ∧ u.fraction = if e.fld 16 1 = 1 then e.fld 17 1 else 16) ∧
  (e.fld 16 1 = 2 → e.fld 17 1 = 0 → call (.fwPowerState die) 24 0 0 fun u => u.power = 2 ∧
    ∀ p, p < 16 → (s.port p).st = .active → 1 < (lanesIn (s.port p) .carrying).length → (u.port p).newCarry = some ((lanesIn (s.port p) .carrying).take 1) ∧
      (u.port p).parking = (lanesIn (s.port p) .carrying).drop 1) ∧
  (read (e.fld 32 4 / 16 + 1) (e.fld 32 4) → s1.flash.active = 0 → ({ s1.flash with slot1 := b }.imageOk b = true → call (.fwFirmwareUpdate die) 25 0 0 fun u =>
      u.flash = { s1.flash with slot1 := b, nextActive := 1 }) ∧
    ({ s1.flash with slot1 := b }.imageOk b = false → call (.fwFirmwareUpdate die) 25 1 0 fun u => u.flash.nextActive = s1.flash.nextActive)) ∧
  (Claims.called s die 26 y e → exec (.fwFreeze die) s = .next { s with frozen := true }) ∧
  (Claims.called s die 27 y e → exec (.fwPackageReset die) s = exec .resetPin s) ∧
  (read 3 36 → (1 ≤ fld b 2 1 ∧ fld b 2 1 ≤ 16 ∧ fld b 3 1 = 0 ∧ s1.pkg ∈ dies ∧ (dies.zip (dies.drop 1)).all (fun p => decide (p.1 < p.2)) = true) →
    call (.fwWriteStandTable die) 28 0 0 fun u => u.flash = { s1.flash with newStand := some (fld b 0 2, dies) })

/-- R94: `pmov xd` gives the predicate image, bit i the predicate of index i, bit 0 reading 1 and bits [31:16] 0; `pmov xa` gives
predicates 1 to 15 the bits of x[a] and changes nothing else; bits 0 and [31:16] are ignored. -/
def Obligations.PredicateImage : Prop := ∀ (s : State) (ct : Ctl) (d a : BitVec 7),
  let th := s.flushed.me
  let x := (s.flushed.readF a.toNat).v
  (∃ v : Word, Claims.Gives (.pmovToRegister ct d) s 1 d ⟨v, false⟩ ∧ (∀ k, k < 16 → v.getLsbD k = th.pred k) ∧ v.getLsbD 0 = true ∧
    ∀ k, 16 ≤ k → v.getLsbD k = false) ∧
  (issues (.pmovFromRegister ct a) s = true → ∃ y : Thread, Completes (.pmovFromRegister ct a) s y ∧
    (∀ k, 1 ≤ k → k < 16 → y.pred k = x.getLsbD k) ∧ y.pred 0 = th.pred 0 ∧ (∀ k, 16 ≤ k → y.pred k = th.pred k) ∧
    { y with preds := th.preds, pend := th.pend } = th)

/-- R100: `trap n` raises user trap with trapval n, `brk` breakpoint with trapval 0; trappc is the address after the instruction
(R87). -/
def Obligations.Traps : Prop := ∀ (s : State) (ct : Ctl) (n : BitVec 7),
  let next := BitVec.ofNat 64 (s.flushed.me.pc.toNat + if ct.pfx.isSome then 8 else 4)
  (issues (.trap ct n) s = true → Claims.Raises (.trap ct n) s 0x17 next (BitVec.ofNat 64 n.toNat)) ∧
  (issues (.brk ct) s = true → Claims.Raises (.brk ct) s 0x16 next 0)

/-- R32: a word whose major opcode is 0x00 decodes to no instruction, whatever its other bits, the word of zeros among them; a lane
about to issue that finds it raises illegal instruction at its address. -/
def Obligations.ZeroWord : Prop := ∀ (s s1 : State) (t : ThreadId) (l : List ThreadId) (w0 w1 : Nat), w0 < 2 ^ 25 →
  let h : State := { s with cur := t, glean := l }
  let q := Claims.lane s t l
  let z : State := { s1 with ir := irOf w0 w1 }
  decode w0 w1 = .illegal w0 ∧
  (s.frozen = false → s.glean = t :: l → h.me.status = .ready → h.canRun t = true → q.me.raise = none → q.me.impr = [] →
    q.me.restoring = false → q.fetch = .ok s1 w0 w1 → z.myGrp.shadow ≠ 1 →
    step s = Claims.sent (.next (z.flushed.takeTrap 0x01 z.flushed.me.pc (BitVec.ofNat 64 w0)).endIssue))

/-! ### Statements assembled from their parts -/

/-- Sums of pairs, divisions, bit fields and selection, and the `un` family (R62, R114-R118). -/
def Obligations.WideIntegers : Prop := Claims.PairSums ∧ Claims.Divisions ∧ Claims.FieldsAndSelection ∧ Claims.UnaryTable

/-- Every instruction with an immediate operand, and the byte dot product (R91, R119, R120). -/
def Obligations.Immediates : Prop := Claims.ImmediateTable ∧ Claims.LoadsOfImmediates

/-- Floating point arithmetic on finite operands and on special ones (R54-R56, R121, R122). -/
def Obligations.FloatArithmetic : Prop := Claims.Encodings ∧ Claims.FiniteArithmetic ∧ Claims.SpecialOperands

/-- The floating point instructions over those operations (R121-R125, R128). -/
def Obligations.FloatInstructions : Prop :=
  Claims.SinglePrecision ∧ Claims.PackedAndDouble ∧ Claims.Conversions ∧ Claims.FunctionForms ∧ Claims.FloatCompare ∧ Claims.OrderAndIntegral

/-- Conversions between formats (R58, R59, R126). -/
def Obligations.FloatConversions : Prop := Claims.ToInteger ∧ Claims.Conversions ∧ Claims.E4m3Values ∧ Claims.ToEightBits

/-- Approximated functions, classes and compares (R60, R123, R124, R127). -/
def Obligations.FunctionsAndCompare : Prop := Claims.FunctionForms ∧ Claims.ExactResults ∧ Claims.SpecialFunctions ∧ Claims.FloatCompare

/-- Calls, the call of a safe point's save routine, and returns (R96, R97, R101, R276). -/
def Obligations.CallsAndReturns : Prop := Claims.Calls ∧ Claims.SafePointCall ∧ Claims.Returns

/-- `exit` and `mwait` (R81, R82, R99). -/
def Obligations.ExitAndMonitor : Prop := Claims.Exit ∧ Claims.MonitorWait

/-- Special registers and index registers (R79, R105-R108, R111). -/
def Obligations.SpecialAndIndexRegisters : Prop := Claims.SpecialRegisters ∧ Claims.IndexRegisters

/-- Loop frames: declaration, back edge and control (R145-R153). -/
def Obligations.Loops : Prop := Claims.LoopDeclarations ∧ Claims.BackEdges ∧ Claims.FrameControl

/-- Taking an exception, and where no handler is entered (R49, R87, R88, R357). -/
def Obligations.Exceptions : Prop := Claims.ExceptionEntry ∧ Claims.NoHandler

/-- Every instruction is one issue, and an issue is these checks in this order (R36, R37, R39, R40, R47). -/
def Obligations.IssueChecks : Prop := Claims.OneIssue ∧ Claims.ChecksBeforeEffect

/-- The state after reset (R104, R157, R339, R363, R385). -/
def Obligations.ResetLeaves : Prop := Claims.ResetMemoryCanonical ∧ Claims.ResetState

/-- When a collective completes, and what it leaves (R132, R133, R135). -/
def Obligations.CollectivesComplete : Prop := Claims.CollectivesMeet ∧ Claims.CollectiveCompletion

/-- Results of votes, shuffles, `match` and `part` (R130, R131, R136-R138, R141). -/
def Obligations.CollectiveResults : Prop := Claims.Votes ∧ Claims.Shuffles ∧ Claims.MatchAndPart

/-- Reductions and scans (R73, R139, R140). -/
def Obligations.ReductionsAndScans : Prop := Claims.Reductions ∧ Claims.Scans

/-- Address translation (R308-R312). -/
def Obligations.Translation : Prop := Claims.ReadsChangeNothing ∧ Claims.TranslationByEntry ∧ Claims.PageWalk

/-- Loads and stores (R171-R192). -/
def Obligations.LoadsAndStores : Prop := Claims.Loads ∧ Claims.Stores ∧ Claims.PacketsLeave

/-- Atomic accesses (R178-R183). -/
def Obligations.AtomicAccesses : Prop := Claims.Atomics ∧ Claims.AtomicResults

/-- Fences and barriers (R246-R262). -/
def Obligations.FencesAndBarriers : Prop := Claims.Fences ∧ Claims.Barriers

/-- Closures, frame references and the environment ports (R156-R170). -/
def Obligations.Closures : Prop := Claims.PortOperations ∧ Claims.ClosureInstructions ∧ Claims.EnvironmentPort

/-- Engine commands, the limits of a copy, and `drain` (R202-R209, R217, R218). -/
def Obligations.EngineInstructions : Prop := Claims.EngineCommands ∧ Claims.CopyLimits ∧ Claims.Drains

/-- Matrix commands, arrival counters and the dependency table (R221-R223, R232, R234-R237). -/
def Obligations.TileCommands : Prop := Claims.MatrixCommands ∧ Claims.ArrivalCounters ∧ Claims.TaskRegistration

/-- The `rop` functions. -/
def Obligations.RouteFunctions : Prop := Claims.AnnounceAndWithdraw ∧ Claims.PromoteAndQuery

/-- The `dev` functions. -/
def Obligations.DeviceFunctions : Prop := Claims.LinkFunctions ∧ Claims.SemaphoreAndPurge

/-- The events of threads. -/
def Obligations.ThreadEvents : Prop := Claims.ResultEvents ∧ Claims.IllegalInstruction ∧ Claims.MwaitEvents ∧ Claims.ImpreciseFaults

/-- The events of pools, sheaves and block pairs. -/
def Obligations.PartitionEvents : Prop := Claims.PoolEviction ∧ Claims.SheafEvents ∧ Claims.SignatureCompare

/-- Reads and writes at the dies they reach. -/
def Obligations.Requests : Prop := Claims.ReadRequests ∧ Claims.WriteRequests

/-- Events of homes: pushes, write streams, holds, combining and recalls. -/
def Obligations.HomesAndStreams : Prop := Claims.Pushes ∧ Claims.StreamEvents ∧ Claims.HomeEvents

/-- Responses on their way back, at the switches that combined their requests, and at the die of the requester. -/
def Obligations.Responses : Prop := Claims.ResponsesArrive ∧ Claims.ResponsesReturn

/-- Accesses sent again, refused, poisoned or expired. -/
def Obligations.FailedOrMovedAccesses : Prop := Claims.Redirects ∧ Claims.FailedAccesses

/-- The events of engines and of the dependency table. -/
def Obligations.EngineEvents : Prop := Claims.EngineStart ∧ Claims.EngineCompletion ∧ Claims.TaskIssue

/-- Groups bound and restored. -/
def Obligations.GroupsArrive : Prop := Claims.GroupBinding ∧ Claims.GroupRestore

/-- Groups swapped out and retired. -/
def Obligations.GroupsDepart : Prop := Claims.GroupsLeave ∧ Claims.GroupRetirement

/-- The steps of a launch, its end, scheduling, and the entries of a fault record. -/
def Obligations.LaunchesAndScheduling : Prop := Claims.LaunchSteps ∧ Claims.LaunchEnds ∧ Claims.Scheduling ∧ Claims.FaultDescriptors

/-- The events of routes. -/
def Obligations.RouteEvents : Prop := Claims.Announcements ∧ Claims.Withdrawals ∧ Claims.ReplicaListing ∧ Claims.MoveSteps

/-- The events of ports and links. -/
def Obligations.PortEvents : Prop := Claims.PortLocks ∧ Claims.Markers ∧ Claims.LinkAcceptance

/-- The frames of a port, out and in. -/
def Obligations.FrameEvents : Prop := Claims.FramesOut ∧ Claims.FramesIn

/-- Purges, pins, power and the test port. -/
def Obligations.PurgesAndPins : Prop := Claims.Purges ∧ Claims.PinsAndPower ∧ Claims.TestPort

/-- The calls of the management firmware. -/
def Obligations.FirmwareCalls : Prop := Claims.CallChecks ∧ Claims.ContextCalls ∧ Claims.RegionCalls ∧ Claims.QueueAndSemaphoreCalls ∧ Claims.PackageCalls
end

