-- ==== Sys2Proof/Laws/Exec.lean ====
section
/-! SUPPORT. Exec: `exec` of each constructor is its meaning (generated from the arms of Dispatch). -/

namespace Sys2Proof.Machine

open Sys2Proof

theorem exec_add (ct : Ctl) (d : BitVec 7) (a : BitVec 7) (b : BitVec 7) (s : State) :
    exec (.add ct d a b) s = execAdd ct d a b s := rfl
theorem exec_sub (ct : Ctl) (d : BitVec 7) (a : BitVec 7) (b : BitVec 7) (s : State) :
    exec (.sub ct d a b) s = execSub ct d a b s := rfl
theorem exec_mul (ct : Ctl) (d : BitVec 7) (a : BitVec 7) (b : BitVec 7) (s : State) :
    exec (.mul ct d a b) s = execMul ct d a b s := rfl
theorem exec_mulh (ct : Ctl) (d : BitVec 7) (a : BitVec 7) (b : BitVec 7) (s : State) :
    exec (.mulh ct d a b) s = execMulh ct d a b s := rfl
theorem exec_mulhu (ct : Ctl) (d : BitVec 7) (a : BitVec 7) (b : BitVec 7) (s : State) :
    exec (.mulhu ct d a b) s = execMulhu ct d a b s := rfl
theorem exec_div (ct : Ctl) (d : BitVec 7) (a : BitVec 7) (b : BitVec 7) (s : State) :
    exec (.div ct d a b) s = execDiv ct d a b s := rfl
theorem exec_divu (ct : Ctl) (d : BitVec 7) (a : BitVec 7) (b : BitVec 7) (s : State) :
    exec (.divu ct d a b) s = execDivu ct d a b s := rfl
theorem exec_rem (ct : Ctl) (d : BitVec 7) (a : BitVec 7) (b : BitVec 7) (s : State) :
    exec (.rem ct d a b) s = execRem ct d a b s := rfl
theorem exec_remu (ct : Ctl) (d : BitVec 7) (a : BitVec 7) (b : BitVec 7) (s : State) :
    exec (.remu ct d a b) s = execRemu ct d a b s := rfl
theorem exec_and (ct : Ctl) (d : BitVec 7) (a : BitVec 7) (b : BitVec 7) (s : State) :
    exec (.and ct d a b) s = execAnd ct d a b s := rfl
theorem exec_or (ct : Ctl) (d : BitVec 7) (a : BitVec 7) (b : BitVec 7) (s : State) :
    exec (.or ct d a b) s = execOr ct d a b s := rfl
theorem exec_xor (ct : Ctl) (d : BitVec 7) (a : BitVec 7) (b : BitVec 7) (s : State) :
    exec (.xor ct d a b) s = execXor ct d a b s := rfl
theorem exec_andn (ct : Ctl) (d : BitVec 7) (a : BitVec 7) (b : BitVec 7) (s : State) :
    exec (.andn ct d a b) s = execAndn ct d a b s := rfl
theorem exec_shl (ct : Ctl) (d : BitVec 7) (a : BitVec 7) (b : BitVec 7) (s : State) :
    exec (.shl ct d a b) s = execShl ct d a b s := rfl
theorem exec_shr (ct : Ctl) (d : BitVec 7) (a : BitVec 7) (b : BitVec 7) (s : State) :
    exec (.shr ct d a b) s = execShr ct d a b s := rfl
theorem exec_sra (ct : Ctl) (d : BitVec 7) (a : BitVec 7) (b : BitVec 7) (s : State) :
    exec (.sra ct d a b) s = execSra ct d a b s := rfl
theorem exec_rol (ct : Ctl) (d : BitVec 7) (a : BitVec 7) (b : BitVec 7) (s : State) :
    exec (.rol ct d a b) s = execRol ct d a b s := rfl
theorem exec_min (ct : Ctl) (d : BitVec 7) (a : BitVec 7) (b : BitVec 7) (s : State) :
    exec (.min ct d a b) s = execMin ct d a b s := rfl
theorem exec_max (ct : Ctl) (d : BitVec 7) (a : BitVec 7) (b : BitVec 7) (s : State) :
    exec (.max ct d a b) s = execMax ct d a b s := rfl
theorem exec_minu (ct : Ctl) (d : BitVec 7) (a : BitVec 7) (b : BitVec 7) (s : State) :
    exec (.minu ct d a b) s = execMinu ct d a b s := rfl
theorem exec_maxu (ct : Ctl) (d : BitVec 7) (a : BitVec 7) (b : BitVec 7) (s : State) :
    exec (.maxu ct d a b) s = execMaxu ct d a b s := rfl
theorem exec_mad (ct : Ctl) (d : BitVec 7) (a : BitVec 7) (b : BitVec 7) (s : State) :
    exec (.mad ct d a b) s = execMad ct d a b s := rfl
theorem exec_bfx (ct : Ctl) (d : BitVec 7) (a : BitVec 7) (b : BitVec 7) (s : State) :
    exec (.bfx ct d a b) s = execBfx ct d a b s := rfl
theorem exec_bfi (ct : Ctl) (d : BitVec 7) (a : BitVec 7) (b : BitVec 7) (s : State) :
    exec (.bfi ct d a b) s = execBfi ct d a b s := rfl
theorem exec_sel (ct : Ctl) (d : BitVec 7) (a : BitVec 7) (b : BitVec 7) (s : State) :
    exec (.sel ct d a b) s = execSel ct d a b s := rfl
theorem exec_add64 (ct : Ctl) (d : BitVec 7) (a : BitVec 7) (b : BitVec 7) (s : State) :
    exec (.add64 ct d a b) s = execAdd64 ct d a b s := rfl
theorem exec_sub64 (ct : Ctl) (d : BitVec 7) (a : BitVec 7) (b : BitVec 7) (s : State) :
    exec (.sub64 ct d a b) s = execSub64 ct d a b s := rfl
theorem exec_slt (ct : Ctl) (d : BitVec 7) (a : BitVec 7) (b : BitVec 7) (s : State) :
    exec (.slt ct d a b) s = execSlt ct d a b s := rfl
theorem exec_sltu (ct : Ctl) (d : BitVec 7) (a : BitVec 7) (b : BitVec 7) (s : State) :
    exec (.sltu ct d a b) s = execSltu ct d a b s := rfl
theorem exec_seq (ct : Ctl) (d : BitVec 7) (a : BitVec 7) (b : BitVec 7) (s : State) :
    exec (.seq ct d a b) s = execSeq ct d a b s := rfl
theorem exec_mov (ct : Ctl) (d : BitVec 7) (a : BitVec 7) (s : State) :
    exec (.mov ct d a) s = execMov ct d a s := rfl
theorem exec_not (ct : Ctl) (d : BitVec 7) (a : BitVec 7) (s : State) :
    exec (.not ct d a) s = execNot ct d a s := rfl
theorem exec_neg (ct : Ctl) (d : BitVec 7) (a : BitVec 7) (s : State) :
    exec (.neg ct d a) s = execNeg ct d a s := rfl
theorem exec_abs (ct : Ctl) (d : BitVec 7) (a : BitVec 7) (s : State) :
    exec (.abs ct d a) s = execAbs ct d a s := rfl
theorem exec_clz (ct : Ctl) (d : BitVec 7) (a : BitVec 7) (s : State) :
    exec (.clz ct d a) s = execClz ct d a s := rfl
theorem exec_ctz (ct : Ctl) (d : BitVec 7) (a : BitVec 7) (s : State) :
    exec (.ctz ct d a) s = execCtz ct d a s := rfl
theorem exec_popc (ct : Ctl) (d : BitVec 7) (a : BitVec 7) (s : State) :
    exec (.popc ct d a) s = execPopc ct d a s := rfl
theorem exec_brev (ct : Ctl) (d : BitVec 7) (a : BitVec 7) (s : State) :
    exec (.brev ct d a) s = execBrev ct d a s := rfl
theorem exec_sext8 (ct : Ctl) (d : BitVec 7) (a : BitVec 7) (s : State) :
    exec (.sext8 ct d a) s = execSext8 ct d a s := rfl
theorem exec_sext16 (ct : Ctl) (d : BitVec 7) (a : BitVec 7) (s : State) :
    exec (.sext16 ct d a) s = execSext16 ct d a s := rfl
theorem exec_zext8 (ct : Ctl) (d : BitVec 7) (a : BitVec 7) (s : State) :
    exec (.zext8 ct d a) s = execZext8 ct d a s := rfl
theorem exec_zext16 (ct : Ctl) (d : BitVec 7) (a : BitVec 7) (s : State) :
    exec (.zext16 ct d a) s = execZext16 ct d a s := rfl
theorem exec_bswap (ct : Ctl) (d : BitVec 7) (a : BitVec 7) (s : State) :
    exec (.bswap ct d a) s = execBswap ct d a s := rfl
theorem exec_mov64 (ct : Ctl) (d : BitVec 7) (a : BitVec 7) (s : State) :
    exec (.mov64 ct d a) s = execMov64 ct d a s := rfl
theorem exec_addi (ct : Ctl) (d : BitVec 7) (a : BitVec 7) (i0 : BitVec 9) (s : State) :
    exec (.addi ct d a i0) s = execAddi ct d a i0 s := rfl
theorem exec_andi (ct : Ctl) (d : BitVec 7) (a : BitVec 7) (i0 : BitVec 9) (s : State) :
    exec (.andi ct d a i0) s = execAndi ct d a i0 s := rfl
theorem exec_ori (ct : Ctl) (d : BitVec 7) (a : BitVec 7) (i0 : BitVec 9) (s : State) :
    exec (.ori ct d a i0) s = execOri ct d a i0 s := rfl
theorem exec_xori (ct : Ctl) (d : BitVec 7) (a : BitVec 7) (i0 : BitVec 9) (s : State) :
    exec (.xori ct d a i0) s = execXori ct d a i0 s := rfl
theorem exec_shli (ct : Ctl) (d : BitVec 7) (a : BitVec 7) (i0 : BitVec 9) (s : State) :
    exec (.shli ct d a i0) s = execShli ct d a i0 s := rfl
theorem exec_shri (ct : Ctl) (d : BitVec 7) (a : BitVec 7) (i0 : BitVec 9) (s : State) :
    exec (.shri ct d a i0) s = execShri ct d a i0 s := rfl
theorem exec_srai (ct : Ctl) (d : BitVec 7) (a : BitVec 7) (i0 : BitVec 9) (s : State) :
    exec (.srai ct d a i0) s = execSrai ct d a i0 s := rfl
theorem exec_muli (ct : Ctl) (d : BitVec 7) (a : BitVec 7) (i0 : BitVec 9) (s : State) :
    exec (.muli ct d a i0) s = execMuli ct d a i0 s := rfl
theorem exec_slti (ct : Ctl) (d : BitVec 7) (a : BitVec 7) (i0 : BitVec 9) (s : State) :
    exec (.slti ct d a i0) s = execSlti ct d a i0 s := rfl
theorem exec_sltui (ct : Ctl) (d : BitVec 7) (a : BitVec 7) (i0 : BitVec 9) (s : State) :
    exec (.sltui ct d a i0) s = execSltui ct d a i0 s := rfl
theorem exec_seqi (ct : Ctl) (d : BitVec 7) (a : BitVec 7) (i0 : BitVec 9) (s : State) :
    exec (.seqi ct d a i0) s = execSeqi ct d a i0 s := rfl
theorem exec_mini (ct : Ctl) (d : BitVec 7) (a : BitVec 7) (i0 : BitVec 9) (s : State) :
    exec (.mini ct d a i0) s = execMini ct d a i0 s := rfl
theorem exec_maxi (ct : Ctl) (d : BitVec 7) (a : BitVec 7) (i0 : BitVec 9) (s : State) :
    exec (.maxi ct d a i0) s = execMaxi ct d a i0 s := rfl
theorem exec_li (ct : Ctl) (d : BitVec 7) (i0 : BitVec 18) (s : State) :
    exec (.li ct d i0) s = execLi ct d i0 s := rfl
theorem exec_lih (ct : Ctl) (d : BitVec 7) (i0 : BitVec 18) (s : State) :
    exec (.lih ct d i0) s = execLih ct d i0 s := rfl
theorem exec_cmp (ct : Ctl) (p : BitVec 4) (c : BitVec 3) (a : BitVec 7) (b : BitVec 7) (s : State) :
    exec (.cmp ct p c a b) s = execCmp ct p c a b s := rfl
theorem exec_cmpi (ct : Ctl) (p : BitVec 4) (c : BitVec 3) (a : BitVec 7) (i0 : BitVec 9) (s : State) :
    exec (.cmpi ct p c a i0) s = execCmpi ct p c a i0 s := rfl
theorem exec_pand (ct : Ctl) (d : BitVec 4) (p : BitVec 4) (q : BitVec 4) (s : State) :
    exec (.pand ct d p q) s = execPand ct d p q s := rfl
theorem exec_por (ct : Ctl) (d : BitVec 4) (p : BitVec 4) (q : BitVec 4) (s : State) :
    exec (.por ct d p q) s = execPor ct d p q s := rfl
theorem exec_pxor (ct : Ctl) (d : BitVec 4) (p : BitVec 4) (q : BitVec 4) (s : State) :
    exec (.pxor ct d p q) s = execPxor ct d p q s := rfl
theorem exec_pandn (ct : Ctl) (d : BitVec 4) (p : BitVec 4) (q : BitVec 4) (s : State) :
    exec (.pandn ct d p q) s = execPandn ct d p q s := rfl
theorem exec_porn (ct : Ctl) (d : BitVec 4) (p : BitVec 4) (q : BitVec 4) (s : State) :
    exec (.porn ct d p q) s = execPorn ct d p q s := rfl
theorem exec_pmv (ct : Ctl) (d : BitVec 4) (p : BitVec 4) (s : State) :
    exec (.pmv ct d p) s = execPmv ct d p s := rfl
theorem exec_pnot (ct : Ctl) (d : BitVec 4) (p : BitVec 4) (s : State) :
    exec (.pnot ct d p) s = execPnot ct d p s := rfl
theorem exec_pset (ct : Ctl) (d : BitVec 4) (s : State) :
    exec (.pset ct d) s = execPset ct d s := rfl
theorem exec_pclr (ct : Ctl) (d : BitVec 4) (s : State) :
    exec (.pclr ct d) s = execPclr ct d s := rfl
theorem exec_pmovToRegister (ct : Ctl) (d : BitVec 7) (s : State) :
    exec (.pmovToRegister ct d) s = execPmovToRegister ct d s := rfl
theorem exec_pmovFromRegister (ct : Ctl) (a : BitVec 7) (s : State) :
    exec (.pmovFromRegister ct a) s = execPmovFromRegister ct a s := rfl
theorem exec_br (p : BitVec 4) (v : BitVec 1) (o : BitVec 20) (s : State) :
    exec (.br p v o) s = execBr p v o s := rfl
theorem exec_jmp (o : BitVec 25) (s : State) :
    exec (.jmp o) s = execJmp o s := rfl
theorem exec_call (o : BitVec 25) (s : State) :
    exec (.call o) s = execCall o s := rfl
theorem exec_callr (ct : Ctl) (a : BitVec 7) (s : State) :
    exec (.callr ct a) s = execCallr ct a s := rfl
theorem exec_jr (ct : Ctl) (a : BitVec 7) (s : State) :
    exec (.jr ct a) s = execJr ct a s := rfl
theorem exec_nop (ct : Ctl) (s : State) :
    exec (.nop ct) s = execNop ct s := rfl
theorem exec_ret (ct : Ctl) (s : State) :
    exec (.ret ct) s = execRet ct s := rfl
theorem exec_exit (ct : Ctl) (s : State) :
    exec (.exit ct) s = execExit ct s := rfl
theorem exec_yield (ct : Ctl) (s : State) :
    exec (.yield ct) s = execYield ct s := rfl
theorem exec_trap (ct : Ctl) (n : BitVec 7) (s : State) :
    exec (.trap ct n) s = execTrap ct n s := rfl
theorem exec_brk (ct : Ctl) (s : State) :
    exec (.brk ct) s = execBrk ct s := rfl
theorem exec_eret (ct : Ctl) (s : State) :
    exec (.eret ct) s = execEret ct s := rfl
theorem exec_safept (ct : Ctl) (h : BitVec 1) (n : BitVec 7) (s : State) :
    exec (.safept ct h n) s = execSafept ct h n s := rfl
theorem exec_win (ct : Ctl) (k : BitVec 7) (s : State) :
    exec (.win ct k) s = execWin ct k s := rfl
theorem exec_mwait (ct : Ctl) (d : BitVec 7) (a : BitVec 7) (s : State) :
    exec (.mwait ct d a) s = execMwait ct d a s := rfl
theorem exec_cyc (ct : Ctl) (d : BitVec 7) (s : State) :
    exec (.cyc ct d) s = execCyc ct d s := rfl
theorem exec_cych (ct : Ctl) (d : BitVec 7) (s : State) :
    exec (.cych ct d) s = execCych ct d s := rfl
theorem exec_getsr (ct : Ctl) (d : BitVec 7) (a : BitVec 7) (s : State) :
    exec (.getsr ct d a) s = execGetsr ct d a s := rfl
theorem exec_setsr (ct : Ctl) (d : BitVec 7) (a : BitVec 7) (s : State) :
    exec (.setsr ct d a) s = execSetsr ct d a s := rfl
theorem exec_loopCnt (a : BitVec 7) (l : BitVec 8) (r : BitVec 3) (s : State) :
    exec (.loopCnt a l r) s = execLoopCnt a l r s := rfl
theorem exec_loopPipe (a : BitVec 7) (l : BitVec 8) (s0 : BitVec 3) (r : BitVec 3) (s : State) :
    exec (.loopPipe a l s0 r) s = execLoopPipe a l s0 r s := rfl
theorem exec_loopWhile (p : BitVec 4) (l : BitVec 8) (r : BitVec 3) (s : State) :
    exec (.loopWhile p l r) s = execLoopWhile p l r s := rfl
theorem exec_lexit (ct : Ctl) (s : State) :
    exec (.lexit ct) s = execLexit ct s := rfl
theorem exec_lbrk (ct : Ctl) (s : State) :
    exec (.lbrk ct) s = execLbrk ct s := rfl
theorem exec_lrd (ct : Ctl) (d : BitVec 7) (p : BitVec 3) (i0 : BitVec 2) (s : State) :
    exec (.lrd ct d p i0) s = execLrd ct d p i0 s := rfl
theorem exec_lwr (ct : Ctl) (p : BitVec 3) (i0 : BitVec 2) (a : BitVec 7) (s : State) :
    exec (.lwr ct p i0 a) s = execLwr ct p i0 a s := rfl
theorem exec_cap (c : BitVec 4) (r : BitVec 1) (n : BitVec 4) (a : BitVec 7) (e : BitVec 7) (s : State) :
    exec (.cap c r n a e) s = execCap c r n a e s := rfl
theorem exec_apply (ct : Ctl) (k : BitVec 4) (s : State) :
    exec (.apply ct k) s = execApply ct k s := rfl
theorem exec_cpin (ct : Ctl) (k : BitVec 4) (s : State) :
    exec (.cpin ct k) s = execCpin ct k s := rfl
theorem exec_cdrop (ct : Ctl) (k : BitVec 4) (s : State) :
    exec (.cdrop ct k) s = execCdrop ct k s := rfl
theorem exec_cmov (ct : Ctl) (d : BitVec 4) (a : BitVec 4) (s : State) :
    exec (.cmov ct d a) s = execCmov ct d a s := rfl
theorem exec_cst (ct : Ctl) (d : BitVec 7) (k : BitVec 4) (s : State) :
    exec (.cst ct d k) s = execCst ct d k s := rfl
theorem exec_cld (ct : Ctl) (k : BitVec 4) (a : BitVec 7) (s : State) :
    exec (.cld ct k a) s = execCld ct k a s := rfl
theorem exec_cenv (ct : Ctl) (d : BitVec 7) (k : BitVec 4) (s : State) :
    exec (.cenv ct d k) s = execCenv ct d k s := rfl
theorem exec_clive (ct : Ctl) (p : BitVec 4) (k : BitVec 4) (s : State) :
    exec (.clive ct p k) s = execClive ct p k s := rfl
theorem exec_fref (ct : Ctl) (d : BitVec 7) (a : BitVec 7) (s : State) :
    exec (.fref ct d a) s = execFref ct d a s := rfl
theorem exec_xget (ct : Ctl) (d : BitVec 7) (k : BitVec 2) (o : BitVec 5) (s : State) :
    exec (.xget ct d k o) s = execXget ct d k o s := rfl
theorem exec_xput (ct : Ctl) (d : BitVec 7) (k : BitVec 2) (o : BitVec 5) (s : State) :
    exec (.xput ct d k o) s = execXput ct d k o s := rfl
theorem exec_fadd (ct : Ctl) (d : BitVec 7) (a : BitVec 7) (b : BitVec 7) (s : State) :
    exec (.fadd ct d a b) s = execFadd ct d a b s := rfl
theorem exec_fsub (ct : Ctl) (d : BitVec 7) (a : BitVec 7) (b : BitVec 7) (s : State) :
    exec (.fsub ct d a b) s = execFsub ct d a b s := rfl
theorem exec_fmul (ct : Ctl) (d : BitVec 7) (a : BitVec 7) (b : BitVec 7) (s : State) :
    exec (.fmul ct d a b) s = execFmul ct d a b s := rfl
theorem exec_fma (ct : Ctl) (d : BitVec 7) (a : BitVec 7) (b : BitVec 7) (s : State) :
    exec (.fma ct d a b) s = execFma ct d a b s := rfl
theorem exec_fnma (ct : Ctl) (d : BitVec 7) (a : BitVec 7) (b : BitVec 7) (s : State) :
    exec (.fnma ct d a b) s = execFnma ct d a b s := rfl
theorem exec_fmin (ct : Ctl) (d : BitVec 7) (a : BitVec 7) (b : BitVec 7) (s : State) :
    exec (.fmin ct d a b) s = execFmin ct d a b s := rfl
theorem exec_fmax (ct : Ctl) (d : BitVec 7) (a : BitVec 7) (b : BitVec 7) (s : State) :
    exec (.fmax ct d a b) s = execFmax ct d a b s := rfl
theorem exec_fdiv (ct : Ctl) (d : BitVec 7) (a : BitVec 7) (b : BitVec 7) (s : State) :
    exec (.fdiv ct d a b) s = execFdiv ct d a b s := rfl
theorem exec_fsqrt (ct : Ctl) (d : BitVec 7) (a : BitVec 7) (s : State) :
    exec (.fsqrt ct d a) s = execFsqrt ct d a s := rfl
theorem exec_fabs (ct : Ctl) (d : BitVec 7) (a : BitVec 7) (s : State) :
    exec (.fabs ct d a) s = execFabs ct d a s := rfl
theorem exec_fneg (ct : Ctl) (d : BitVec 7) (a : BitVec 7) (s : State) :
    exec (.fneg ct d a) s = execFneg ct d a s := rfl
theorem exec_frcp (ct : Ctl) (d : BitVec 7) (a : BitVec 7) (s : State) :
    exec (.frcp ct d a) s = execFrcp ct d a s := rfl
theorem exec_frsq (ct : Ctl) (d : BitVec 7) (a : BitVec 7) (s : State) :
    exec (.frsq ct d a) s = execFrsq ct d a s := rfl
theorem exec_fexp2 (ct : Ctl) (d : BitVec 7) (a : BitVec 7) (s : State) :
    exec (.fexp2 ct d a) s = execFexp2 ct d a s := rfl
theorem exec_flog2 (ct : Ctl) (d : BitVec 7) (a : BitVec 7) (s : State) :
    exec (.flog2 ct d a) s = execFlog2 ct d a s := rfl
theorem exec_fsinpi (ct : Ctl) (d : BitVec 7) (a : BitVec 7) (s : State) :
    exec (.fsinpi ct d a) s = execFsinpi ct d a s := rfl
theorem exec_fcospi (ct : Ctl) (d : BitVec 7) (a : BitVec 7) (s : State) :
    exec (.fcospi ct d a) s = execFcospi ct d a s := rfl
theorem exec_ftanh (ct : Ctl) (d : BitVec 7) (a : BitVec 7) (s : State) :
    exec (.ftanh ct d a) s = execFtanh ct d a s := rfl
theorem exec_ffloor (ct : Ctl) (d : BitVec 7) (a : BitVec 7) (s : State) :
    exec (.ffloor ct d a) s = execFfloor ct d a s := rfl
theorem exec_fceil (ct : Ctl) (d : BitVec 7) (a : BitVec 7) (s : State) :
    exec (.fceil ct d a) s = execFceil ct d a s := rfl
theorem exec_ftrunc (ct : Ctl) (d : BitVec 7) (a : BitVec 7) (s : State) :
    exec (.ftrunc ct d a) s = execFtrunc ct d a s := rfl
theorem exec_frint (ct : Ctl) (d : BitVec 7) (a : BitVec 7) (s : State) :
    exec (.frint ct d a) s = execFrint ct d a s := rfl
theorem exec_fclass (ct : Ctl) (d : BitVec 7) (a : BitVec 7) (s : State) :
    exec (.fclass ct d a) s = execFclass ct d a s := rfl
theorem exec_fcvtF32I32 (ct : Ctl) (d : BitVec 7) (a : BitVec 7) (s : State) :
    exec (.fcvtF32I32 ct d a) s = execFcvtF32I32 ct d a s := rfl
theorem exec_fcvtF32Ui32 (ct : Ctl) (d : BitVec 7) (a : BitVec 7) (s : State) :
    exec (.fcvtF32Ui32 ct d a) s = execFcvtF32Ui32 ct d a s := rfl
theorem exec_fcvtI32F32 (ct : Ctl) (d : BitVec 7) (a : BitVec 7) (s : State) :
    exec (.fcvtI32F32 ct d a) s = execFcvtI32F32 ct d a s := rfl
theorem exec_fcvtI32rF32 (ct : Ctl) (d : BitVec 7) (a : BitVec 7) (s : State) :
    exec (.fcvtI32rF32 ct d a) s = execFcvtI32rF32 ct d a s := rfl
theorem exec_fcvtUi32F32 (ct : Ctl) (d : BitVec 7) (a : BitVec 7) (s : State) :
    exec (.fcvtUi32F32 ct d a) s = execFcvtUi32F32 ct d a s := rfl
theorem exec_fcvtF16F32 (ct : Ctl) (d : BitVec 7) (a : BitVec 7) (s : State) :
    exec (.fcvtF16F32 ct d a) s = execFcvtF16F32 ct d a s := rfl
theorem exec_fcvtF32F16 (ct : Ctl) (d : BitVec 7) (a : BitVec 7) (s : State) :
    exec (.fcvtF32F16 ct d a) s = execFcvtF32F16 ct d a s := rfl
theorem exec_fcvtBf16F32 (ct : Ctl) (d : BitVec 7) (a : BitVec 7) (s : State) :
    exec (.fcvtBf16F32 ct d a) s = execFcvtBf16F32 ct d a s := rfl
theorem exec_fcvtF32Bf16 (ct : Ctl) (d : BitVec 7) (a : BitVec 7) (s : State) :
    exec (.fcvtF32Bf16 ct d a) s = execFcvtF32Bf16 ct d a s := rfl
theorem exec_fcvtE4m3F32 (ct : Ctl) (d : BitVec 7) (a : BitVec 7) (s : State) :
    exec (.fcvtE4m3F32 ct d a) s = execFcvtE4m3F32 ct d a s := rfl
theorem exec_fcvtE4m3nF32 (ct : Ctl) (d : BitVec 7) (a : BitVec 7) (s : State) :
    exec (.fcvtE4m3nF32 ct d a) s = execFcvtE4m3nF32 ct d a s := rfl
theorem exec_fcvtE5m2F32 (ct : Ctl) (d : BitVec 7) (a : BitVec 7) (s : State) :
    exec (.fcvtE5m2F32 ct d a) s = execFcvtE5m2F32 ct d a s := rfl
theorem exec_fcvtF32E4m3 (ct : Ctl) (d : BitVec 7) (a : BitVec 7) (n : BitVec 2) (s : State) :
    exec (.fcvtF32E4m3 ct d a n) s = execFcvtF32E4m3 ct d a n s := rfl
theorem exec_fcvtF32E5m2 (ct : Ctl) (d : BitVec 7) (a : BitVec 7) (n : BitVec 2) (s : State) :
    exec (.fcvtF32E5m2 ct d a n) s = execFcvtF32E5m2 ct d a n s := rfl
theorem exec_fcvtF32F64 (ct : Ctl) (d : BitVec 7) (a : BitVec 7) (s : State) :
    exec (.fcvtF32F64 ct d a) s = execFcvtF32F64 ct d a s := rfl
theorem exec_fcvtF64F32 (ct : Ctl) (d : BitVec 7) (a : BitVec 7) (s : State) :
    exec (.fcvtF64F32 ct d a) s = execFcvtF64F32 ct d a s := rfl
theorem exec_fcvtF64I32 (ct : Ctl) (d : BitVec 7) (a : BitVec 7) (s : State) :
    exec (.fcvtF64I32 ct d a) s = execFcvtF64I32 ct d a s := rfl
theorem exec_fcvtI32F64 (ct : Ctl) (d : BitVec 7) (a : BitVec 7) (s : State) :
    exec (.fcvtI32F64 ct d a) s = execFcvtI32F64 ct d a s := rfl
theorem exec_fcmp (ct : Ctl) (p : BitVec 4) (c : BitVec 3) (a : BitVec 7) (b : BitVec 7) (s : State) :
    exec (.fcmp ct p c a b) s = execFcmp ct p c a b s := rfl
theorem exec_hfma2 (ct : Ctl) (d : BitVec 7) (a : BitVec 7) (b : BitVec 7) (s : State) :
    exec (.hfma2 ct d a b) s = execHfma2 ct d a b s := rfl
theorem exec_hadd2 (ct : Ctl) (d : BitVec 7) (a : BitVec 7) (b : BitVec 7) (s : State) :
    exec (.hadd2 ct d a b) s = execHadd2 ct d a b s := rfl
theorem exec_hmul2 (ct : Ctl) (d : BitVec 7) (a : BitVec 7) (b : BitVec 7) (s : State) :
    exec (.hmul2 ct d a b) s = execHmul2 ct d a b s := rfl
theorem exec_bfma2 (ct : Ctl) (d : BitVec 7) (a : BitVec 7) (b : BitVec 7) (s : State) :
    exec (.bfma2 ct d a b) s = execBfma2 ct d a b s := rfl
theorem exec_dadd (ct : Ctl) (d : BitVec 7) (a : BitVec 7) (b : BitVec 7) (s : State) :
    exec (.dadd ct d a b) s = execDadd ct d a b s := rfl
theorem exec_dmul (ct : Ctl) (d : BitVec 7) (a : BitVec 7) (b : BitVec 7) (s : State) :
    exec (.dmul ct d a b) s = execDmul ct d a b s := rfl
theorem exec_dfma (ct : Ctl) (d : BitVec 7) (a : BitVec 7) (b : BitVec 7) (s : State) :
    exec (.dfma ct d a b) s = execDfma ct d a b s := rfl
theorem exec_dsub (ct : Ctl) (d : BitVec 7) (a : BitVec 7) (s : State) :
    exec (.dsub ct d a) s = execDsub ct d a s := rfl
theorem exec_dmin (ct : Ctl) (d : BitVec 7) (a : BitVec 7) (s : State) :
    exec (.dmin ct d a) s = execDmin ct d a s := rfl
theorem exec_dmax (ct : Ctl) (d : BitVec 7) (a : BitVec 7) (s : State) :
    exec (.dmax ct d a) s = execDmax ct d a s := rfl
theorem exec_ddiv (ct : Ctl) (d : BitVec 7) (a : BitVec 7) (s : State) :
    exec (.ddiv ct d a) s = execDdiv ct d a s := rfl
theorem exec_dsqrt (ct : Ctl) (d : BitVec 7) (a : BitVec 7) (s : State) :
    exec (.dsqrt ct d a) s = execDsqrt ct d a s := rfl
theorem exec_dneg (ct : Ctl) (d : BitVec 7) (a : BitVec 7) (s : State) :
    exec (.dneg ct d a) s = execDneg ct d a s := rfl
theorem exec_dabs (ct : Ctl) (d : BitVec 7) (a : BitVec 7) (s : State) :
    exec (.dabs ct d a) s = execDabs ct d a s := rfl
theorem exec_dp4 (ct : Ctl) (d : BitVec 7) (a : BitVec 7) (b : BitVec 7) (s : State) :
    exec (.dp4 ct d a b) s = execDp4 ct d a b s := rfl
theorem exec_qpush (ct : Ctl) (d : BitVec 7) (a : BitVec 7) (b : BitVec 7) (s : State) :
    exec (.qpush ct d a b) s = execQpush ct d a b s := rfl
theorem exec_qtry (ct : Ctl) (d : BitVec 7) (a : BitVec 7) (b : BitVec 7) (s : State) :
    exec (.qtry ct d a b) s = execQtry ct d a b s := rfl
theorem exec_qspawn (ct : Ctl) (d : BitVec 7) (a : BitVec 7) (b : BitVec 7) (s : State) :
    exec (.qspawn ct d a b) s = execQspawn ct d a b s := rfl
theorem exec_qlen (ct : Ctl) (d : BitVec 7) (a : BitVec 7) (s : State) :
    exec (.qlen ct d a) s = execQlen ct d a s := rfl
theorem exec_ann (ct : Ctl) (d : BitVec 7) (a : BitVec 7) (b : BitVec 7) (s : State) :
    exec (.ann ct d a b) s = execAnn ct d a b s := rfl
theorem exec_wdr (ct : Ctl) (d : BitVec 7) (a : BitVec 7) (s : State) :
    exec (.wdr ct d a) s = execWdr ct d a s := rfl
theorem exec_promo (ct : Ctl) (d : BitVec 7) (a : BitVec 7) (s : State) :
    exec (.promo ct d a) s = execPromo ct d a s := rfl
theorem exec_rqry (ct : Ctl) (d : BitVec 7) (a : BitVec 7) (s : State) :
    exec (.rqry ct d a) s = execRqry ct d a s := rfl
theorem exec_lnkpark (ct : Ctl) (d : BitVec 7) (a : BitVec 7) (s : State) :
    exec (.lnkpark ct d a) s = execLnkpark ct d a s := rfl
theorem exec_lnkwake (ct : Ctl) (d : BitVec 7) (a : BitVec 7) (s : State) :
    exec (.lnkwake ct d a) s = execLnkwake ct d a s := rfl
theorem exec_lnkstat (ct : Ctl) (d : BitVec 7) (a : BitVec 7) (s : State) :
    exec (.lnkstat ct d a) s = execLnkstat ct d a s := rfl
theorem exec_lnkdrain (ct : Ctl) (d : BitVec 7) (a : BitVec 7) (s : State) :
    exec (.lnkdrain ct d a) s = execLnkdrain ct d a s := rfl
theorem exec_lnksched (ct : Ctl) (d : BitVec 7) (a : BitVec 7) (s : State) :
    exec (.lnksched ct d a) s = execLnksched ct d a s := rfl
theorem exec_semacq (ct : Ctl) (d : BitVec 7) (s : State) :
    exec (.semacq ct d) s = execSemacq ct d s := rfl
theorem exec_semrel (ct : Ctl) (d : BitVec 7) (s : State) :
    exec (.semrel ct d) s = execSemrel ct d s := rfl
theorem exec_purge (ct : Ctl) (d : BitVec 7) (a : BitVec 7) (s : State) :
    exec (.purge ct d a) s = execPurge ct d a s := rfl
theorem exec_lb (ct : Ctl) (d : BitVec 7) (a : BitVec 7) (o : BitVec 7) (s : State) :
    exec (.lb ct d a o) s = execLb ct d a o s := rfl
theorem exec_lbu (ct : Ctl) (d : BitVec 7) (a : BitVec 7) (o : BitVec 7) (s : State) :
    exec (.lbu ct d a o) s = execLbu ct d a o s := rfl
theorem exec_lh (ct : Ctl) (d : BitVec 7) (a : BitVec 7) (o : BitVec 7) (s : State) :
    exec (.lh ct d a o) s = execLh ct d a o s := rfl
theorem exec_lhu (ct : Ctl) (d : BitVec 7) (a : BitVec 7) (o : BitVec 7) (s : State) :
    exec (.lhu ct d a o) s = execLhu ct d a o s := rfl
theorem exec_lw (ct : Ctl) (d : BitVec 7) (a : BitVec 7) (o : BitVec 7) (s : State) :
    exec (.lw ct d a o) s = execLw ct d a o s := rfl
theorem exec_ld (ct : Ctl) (d : BitVec 7) (a : BitVec 7) (o : BitVec 7) (s : State) :
    exec (.ld ct d a o) s = execLd ct d a o s := rfl
theorem exec_lq (ct : Ctl) (d : BitVec 7) (a : BitVec 7) (o : BitVec 7) (s : State) :
    exec (.lq ct d a o) s = execLq ct d a o s := rfl
theorem exec_sb (ct : Ctl) (d : BitVec 7) (a : BitVec 7) (o : BitVec 7) (s : State) :
    exec (.sb ct d a o) s = execSb ct d a o s := rfl
theorem exec_sh (ct : Ctl) (d : BitVec 7) (a : BitVec 7) (o : BitVec 7) (s : State) :
    exec (.sh ct d a o) s = execSh ct d a o s := rfl
theorem exec_sw (ct : Ctl) (d : BitVec 7) (a : BitVec 7) (o : BitVec 7) (s : State) :
    exec (.sw ct d a o) s = execSw ct d a o s := rfl
theorem exec_sd (ct : Ctl) (d : BitVec 7) (a : BitVec 7) (o : BitVec 7) (s : State) :
    exec (.sd ct d a o) s = execSd ct d a o s := rfl
theorem exec_sq (ct : Ctl) (d : BitVec 7) (a : BitVec 7) (o : BitVec 7) (s : State) :
    exec (.sq ct d a o) s = execSq ct d a o s := rfl
theorem exec_setbase (ct : Ctl) (k : BitVec 2) (a : BitVec 7) (b : BitVec 7) (s : State) :
    exec (.setbase ct k a b) s = execSetbase ct k a b s := rfl
theorem exec_setidx (ct : Ctl) (k : BitVec 2) (a : BitVec 7) (s : State) :
    exec (.setidx ct k a) s = execSetidx ct k a s := rfl
theorem exec_addidx (ct : Ctl) (k : BitVec 2) (a : BitVec 7) (s : State) :
    exec (.addidx ct k a) s = execAddidx ct k a s := rfl
theorem exec_getidx (ct : Ctl) (d : BitVec 7) (k : BitVec 2) (s : State) :
    exec (.getidx ct d k) s = execGetidx ct d k s := rfl
theorem exec_frl (ct : Ctl) (d : BitVec 7) (a : BitVec 7) (o : BitVec 7) (s : State) :
    exec (.frl ct d a o) s = execFrl ct d a o s := rfl
theorem exec_frs (ct : Ctl) (d : BitVec 7) (a : BitVec 7) (o : BitVec 7) (s : State) :
    exec (.frs ct d a o) s = execFrs ct d a o s := rfl
theorem exec_wload (ct : Ctl) (d : BitVec 7) (a : BitVec 7) (s : State) :
    exec (.wload ct d a) s = execWload ct d a s := rfl
theorem exec_mma (ct : Ctl) (d : BitVec 7) (a : BitVec 7) (s : State) :
    exec (.mma ct d a) s = execMma ct d a s := rfl
theorem exec_accx (ct : Ctl) (d : BitVec 7) (a : BitVec 7) (s : State) :
    exec (.accx ct d a) s = execAccx ct d a s := rfl
theorem exec_tclr (ct : Ctl) (a : BitVec 7) (s : State) :
    exec (.tclr ct a) s = execTclr ct a s := rfl
theorem exec_quant2 (ct : Ctl) (d : BitVec 7) (a : BitVec 7) (s : State) :
    exec (.quant2 ct d a) s = execQuant2 ct d a s := rfl
theorem exec_tstat (ct : Ctl) (d : BitVec 7) (s : State) :
    exec (.tstat ct d) s = execTstat ct d s := rfl
theorem exec_tdep (ct : Ctl) (d : BitVec 7) (a : BitVec 7) (s : State) :
    exec (.tdep ct d a) s = execTdep ct d a s := rfl
theorem exec_tarv (ct : Ctl) (d : BitVec 7) (a : BitVec 7) (s : State) :
    exec (.tarv ct d a) s = execTarv ct d a s := rfl
theorem exec_tarm (ct : Ctl) (d : BitVec 7) (a : BitVec 7) (s : State) :
    exec (.tarm ct d a) s = execTarm ct d a s := rfl
theorem exec_aadd (ct : Ctl) (d : BitVec 7) (a : BitVec 7) (b : BitVec 7) (s : State) :
    exec (.aadd ct d a b) s = execAadd ct d a b s := rfl
theorem exec_aand (ct : Ctl) (d : BitVec 7) (a : BitVec 7) (b : BitVec 7) (s : State) :
    exec (.aand ct d a b) s = execAand ct d a b s := rfl
theorem exec_aor (ct : Ctl) (d : BitVec 7) (a : BitVec 7) (b : BitVec 7) (s : State) :
    exec (.aor ct d a b) s = execAor ct d a b s := rfl
theorem exec_axor (ct : Ctl) (d : BitVec 7) (a : BitVec 7) (b : BitVec 7) (s : State) :
    exec (.axor ct d a b) s = execAxor ct d a b s := rfl
theorem exec_amin (ct : Ctl) (d : BitVec 7) (a : BitVec 7) (b : BitVec 7) (s : State) :
    exec (.amin ct d a b) s = execAmin ct d a b s := rfl
theorem exec_amax (ct : Ctl) (d : BitVec 7) (a : BitVec 7) (b : BitVec 7) (s : State) :
    exec (.amax ct d a b) s = execAmax ct d a b s := rfl
theorem exec_aminu (ct : Ctl) (d : BitVec 7) (a : BitVec 7) (b : BitVec 7) (s : State) :
    exec (.aminu ct d a b) s = execAminu ct d a b s := rfl
theorem exec_amaxu (ct : Ctl) (d : BitVec 7) (a : BitVec 7) (b : BitVec 7) (s : State) :
    exec (.amaxu ct d a b) s = execAmaxu ct d a b s := rfl
theorem exec_aswp (ct : Ctl) (d : BitVec 7) (a : BitVec 7) (b : BitVec 7) (s : State) :
    exec (.aswp ct d a b) s = execAswp ct d a b s := rfl
theorem exec_acas (ct : Ctl) (d : BitVec 7) (a : BitVec 7) (b : BitVec 7) (s : State) :
    exec (.acas ct d a b) s = execAcas ct d a b s := rfl
theorem exec_afadd (ct : Ctl) (d : BitVec 7) (a : BitVec 7) (b : BitVec 7) (s : State) :
    exec (.afadd ct d a b) s = execAfadd ct d a b s := rfl
theorem exec_amaxp (ct : Ctl) (d : BitVec 7) (a : BitVec 7) (b : BitVec 7) (s : State) :
    exec (.amaxp ct d a b) s = execAmaxp ct d a b s := rfl
theorem exec_aincm (ct : Ctl) (d : BitVec 7) (a : BitVec 7) (b : BitVec 7) (s : State) :
    exec (.aincm ct d a b) s = execAincm ct d a b s := rfl
theorem exec_fence (ct : Ctl) (d : BitVec 6) (a : BitVec 6) (w : BitVec 3) (k : BitVec 2) (s : State) :
    exec (.fence ct d a w k) s = execFence ct d a w k s := rfl
theorem exec_barInit (ct : Ctl) (d : BitVec 7) (n : BitVec 5) (s : State) :
    exec (.barInit ct d n) s = execBarInit ct d n s := rfl
theorem exec_barArrive (ct : Ctl) (n : BitVec 5) (s : State) :
    exec (.barArrive ct n) s = execBarArrive ct n s := rfl
theorem exec_barWait (ct : Ctl) (n : BitVec 5) (s : State) :
    exec (.barWait ct n) s = execBarWait ct n s := rfl
theorem exec_barSync (ct : Ctl) (n : BitVec 5) (s : State) :
    exec (.barSync ct n) s = execBarSync ct n s := rfl
theorem exec_barArrivec (ct : Ctl) (d : BitVec 7) (n : BitVec 5) (s : State) :
    exec (.barArrivec ct d n) s = execBarArrivec ct d n s := rfl
theorem exec_barTest (ct : Ctl) (d : BitVec 7) (n : BitVec 5) (s : State) :
    exec (.barTest ct d n) s = execBarTest ct d n s := rfl
theorem exec_barLeave (ct : Ctl) (n : BitVec 5) (s : State) :
    exec (.barLeave ct n) s = execBarLeave ct n s := rfl
theorem exec_drain (ct : Ctl) (a : BitVec 7) (b : BitVec 7) (s : State) :
    exec (.drain ct a b) s = execDrain ct a b s := rfl
theorem exec_voteAny (ct : Ctl) (d : BitVec 4) (p : BitVec 4) (s : State) :
    exec (.voteAny ct d p) s = execVoteAny ct d p s := rfl
theorem exec_voteAll (ct : Ctl) (d : BitVec 4) (p : BitVec 4) (s : State) :
    exec (.voteAll ct d p) s = execVoteAll ct d p s := rfl
theorem exec_voteBallot (ct : Ctl) (d : BitVec 7) (p : BitVec 4) (s : State) :
    exec (.voteBallot ct d p) s = execVoteBallot ct d p s := rfl
theorem exec_voteUni (ct : Ctl) (d : BitVec 4) (p : BitVec 4) (s : State) :
    exec (.voteUni ct d p) s = execVoteUni ct d p s := rfl
theorem exec_voteFany (ct : Ctl) (d : BitVec 4) (m : BitVec 7) (s : State) :
    exec (.voteFany ct d m) s = execVoteFany ct d m s := rfl
theorem exec_voteFall (ct : Ctl) (d : BitVec 4) (m : BitVec 7) (s : State) :
    exec (.voteFall ct d m) s = execVoteFall ct d m s := rfl
theorem exec_voteFballot (ct : Ctl) (d : BitVec 7) (m : BitVec 7) (s : State) :
    exec (.voteFballot ct d m) s = execVoteFballot ct d m s := rfl
theorem exec_shflIdx (ct : Ctl) (d : BitVec 7) (a : BitVec 7) (b : BitVec 7) (s : State) :
    exec (.shflIdx ct d a b) s = execShflIdx ct d a b s := rfl
theorem exec_shflUp (ct : Ctl) (d : BitVec 7) (a : BitVec 7) (b : BitVec 7) (s : State) :
    exec (.shflUp ct d a b) s = execShflUp ct d a b s := rfl
theorem exec_shflDown (ct : Ctl) (d : BitVec 7) (a : BitVec 7) (b : BitVec 7) (s : State) :
    exec (.shflDown ct d a b) s = execShflDown ct d a b s := rfl
theorem exec_shflXor (ct : Ctl) (d : BitVec 7) (a : BitVec 7) (b : BitVec 7) (s : State) :
    exec (.shflXor ct d a b) s = execShflXor ct d a b s := rfl
theorem exec_redAdd (ct : Ctl) (d : BitVec 7) (a : BitVec 7) (s : State) :
    exec (.redAdd ct d a) s = execRedAdd ct d a s := rfl
theorem exec_redMin (ct : Ctl) (d : BitVec 7) (a : BitVec 7) (s : State) :
    exec (.redMin ct d a) s = execRedMin ct d a s := rfl
theorem exec_redMax (ct : Ctl) (d : BitVec 7) (a : BitVec 7) (s : State) :
    exec (.redMax ct d a) s = execRedMax ct d a s := rfl
theorem exec_redMinu (ct : Ctl) (d : BitVec 7) (a : BitVec 7) (s : State) :
    exec (.redMinu ct d a) s = execRedMinu ct d a s := rfl
theorem exec_redMaxu (ct : Ctl) (d : BitVec 7) (a : BitVec 7) (s : State) :
    exec (.redMaxu ct d a) s = execRedMaxu ct d a s := rfl
theorem exec_redAnd (ct : Ctl) (d : BitVec 7) (a : BitVec 7) (s : State) :
    exec (.redAnd ct d a) s = execRedAnd ct d a s := rfl
theorem exec_redOr (ct : Ctl) (d : BitVec 7) (a : BitVec 7) (s : State) :
    exec (.redOr ct d a) s = execRedOr ct d a s := rfl
theorem exec_redXor (ct : Ctl) (d : BitVec 7) (a : BitVec 7) (s : State) :
    exec (.redXor ct d a) s = execRedXor ct d a s := rfl
theorem exec_redFadd (ct : Ctl) (d : BitVec 7) (a : BitVec 7) (s : State) :
    exec (.redFadd ct d a) s = execRedFadd ct d a s := rfl
theorem exec_redFmin (ct : Ctl) (d : BitVec 7) (a : BitVec 7) (s : State) :
    exec (.redFmin ct d a) s = execRedFmin ct d a s := rfl
theorem exec_redFmax (ct : Ctl) (d : BitVec 7) (a : BitVec 7) (s : State) :
    exec (.redFmax ct d a) s = execRedFmax ct d a s := rfl
theorem exec_redAdd64 (ct : Ctl) (d : BitVec 7) (a : BitVec 7) (s : State) :
    exec (.redAdd64 ct d a) s = execRedAdd64 ct d a s := rfl
theorem exec_scanAdd (ct : Ctl) (d : BitVec 7) (a : BitVec 7) (e : BitVec 1) (s : State) :
    exec (.scanAdd ct d a e) s = execScanAdd ct d a e s := rfl
theorem exec_scanMin (ct : Ctl) (d : BitVec 7) (a : BitVec 7) (e : BitVec 1) (s : State) :
    exec (.scanMin ct d a e) s = execScanMin ct d a e s := rfl
theorem exec_scanMax (ct : Ctl) (d : BitVec 7) (a : BitVec 7) (e : BitVec 1) (s : State) :
    exec (.scanMax ct d a e) s = execScanMax ct d a e s := rfl
theorem exec_scanMinu (ct : Ctl) (d : BitVec 7) (a : BitVec 7) (e : BitVec 1) (s : State) :
    exec (.scanMinu ct d a e) s = execScanMinu ct d a e s := rfl
theorem exec_scanMaxu (ct : Ctl) (d : BitVec 7) (a : BitVec 7) (e : BitVec 1) (s : State) :
    exec (.scanMaxu ct d a e) s = execScanMaxu ct d a e s := rfl
theorem exec_scanAnd (ct : Ctl) (d : BitVec 7) (a : BitVec 7) (e : BitVec 1) (s : State) :
    exec (.scanAnd ct d a e) s = execScanAnd ct d a e s := rfl
theorem exec_scanOr (ct : Ctl) (d : BitVec 7) (a : BitVec 7) (e : BitVec 1) (s : State) :
    exec (.scanOr ct d a e) s = execScanOr ct d a e s := rfl
theorem exec_scanXor (ct : Ctl) (d : BitVec 7) (a : BitVec 7) (e : BitVec 1) (s : State) :
    exec (.scanXor ct d a e) s = execScanXor ct d a e s := rfl
theorem exec_scanFadd (ct : Ctl) (d : BitVec 7) (a : BitVec 7) (e : BitVec 1) (s : State) :
    exec (.scanFadd ct d a e) s = execScanFadd ct d a e s := rfl
theorem exec_scanFmin (ct : Ctl) (d : BitVec 7) (a : BitVec 7) (e : BitVec 1) (s : State) :
    exec (.scanFmin ct d a e) s = execScanFmin ct d a e s := rfl
theorem exec_scanFmax (ct : Ctl) (d : BitVec 7) (a : BitVec 7) (e : BitVec 1) (s : State) :
    exec (.scanFmax ct d a e) s = execScanFmax ct d a e s := rfl
theorem exec_scanAdd64 (ct : Ctl) (d : BitVec 7) (a : BitVec 7) (e : BitVec 1) (s : State) :
    exec (.scanAdd64 ct d a e) s = execScanAdd64 ct d a e s := rfl
theorem exec_matchEq32 (ct : Ctl) (d : BitVec 7) (a : BitVec 7) (s : State) :
    exec (.matchEq32 ct d a) s = execMatchEq32 ct d a s := rfl
theorem exec_matchEq64 (ct : Ctl) (d : BitVec 7) (a : BitVec 7) (s : State) :
    exec (.matchEq64 ct d a) s = execMatchEq64 ct d a s := rfl
theorem exec_matchLeader (ct : Ctl) (d : BitVec 7) (a : BitVec 7) (s : State) :
    exec (.matchLeader ct d a) s = execMatchLeader ct d a s := rfl
theorem exec_part (ct : Ctl) (a : BitVec 7) (s : State) :
    exec (.part ct a) s = execPart ct a s := rfl
theorem exec_cpy (ct : Ctl) (d : BitVec 7) (a : BitVec 7) (s : State) :
    exec (.cpy ct d a) s = execCpy ct d a s := rfl
theorem exec_cpym (ct : Ctl) (d : BitVec 7) (a : BitVec 7) (s : State) :
    exec (.cpym ct d a) s = execCpym ct d a s := rfl
theorem exec_chain (ct : Ctl) (d : BitVec 7) (a : BitVec 7) (s : State) :
    exec (.chain ct d a) s = execChain ct d a s := rfl
theorem exec_psum (ct : Ctl) (d : BitVec 7) (a : BitVec 7) (s : State) :
    exec (.psum ct d a) s = execPsum ct d a s := rfl
theorem exec_rsort (ct : Ctl) (d : BitVec 7) (a : BitVec 7) (s : State) :
    exec (.rsort ct d a) s = execRsort ct d a s := rfl
theorem exec_walk (ct : Ctl) (d : BitVec 7) (a : BitVec 7) (s : State) :
    exec (.walk ct d a) s = execWalk ct d a s := rfl
theorem exec_yieldExpiry (t : ThreadId) (s : State) :
    exec (.yieldExpiry t) s = execYieldExpiry t s := rfl
theorem exec_poolEviction (p : PartId) (s : State) :
    exec (.poolEviction p) s = execPoolEviction p s := rfl
theorem exec_variableLatencyCompletion (t : ThreadId) (s : State) :
    exec (.variableLatencyCompletion t) s = execVariableLatencyCompletion t s := rfl
theorem exec_impreciseFaultReport (n : Nat) (s : State) :
    exec (.impreciseFaultReport n) s = execImpreciseFaultReport n s := rfl
theorem exec_mwaitWake (t : ThreadId) (s : State) :
    exec (.mwaitWake t) s = execMwaitWake t s := rfl
theorem exec_mwaitLimit (t : ThreadId) (s : State) :
    exec (.mwaitLimit t) s = execMwaitLimit t s := rfl
theorem exec_sheafExchange (p : PartId) (s : State) :
    exec (.sheafExchange p) s = execSheafExchange p s := rfl
theorem exec_pendingSheafEntry (p : PartId) (s : State) :
    exec (.pendingSheafEntry p) s = execPendingSheafEntry p s := rfl
theorem exec_environmentPortOperation (c : CoreId) (s : State) :
    exec (.environmentPortOperation c) s = execEnvironmentPortOperation c s := rfl
theorem exec_readRequest (n : Nat) (s : State) :
    exec (.readRequest n) s = execReadRequest n s := rfl
theorem exec_writeRequest (n : Nat) (s : State) :
    exec (.writeRequest n) s = execWriteRequest n s := rfl
theorem exec_maskedWrite (n : Nat) (s : State) :
    exec (.maskedWrite n) s = execMaskedWrite n s := rfl
theorem exec_atomicRequest (n : Nat) (partner : Option Nat) (s : State) :
    exec (.atomicRequest n partner) s = execAtomicRequest n partner s := rfl
theorem exec_readResponse (n : Nat) (s : State) :
    exec (.readResponse n) s = execReadResponse n s := rfl
theorem exec_writeAcknowledgement (n : Nat) (s : State) :
    exec (.writeAcknowledgement n) s = execWriteAcknowledgement n s := rfl
theorem exec_atomicResponse (n : Nat) (s : State) :
    exec (.atomicResponse n) s = execAtomicResponse n s := rfl
theorem exec_combineEntryExpiry (die : Nat) (entry : Nat) (s : State) :
    exec (.combineEntryExpiry die entry) s = execCombineEntryExpiry die entry s := rfl
theorem exec_redirect (n : Nat) (s : State) :
    exec (.redirect n) s = execRedirect n s := rfl
theorem exec_moved (n : Nat) (s : State) :
    exec (.moved n) s = execMoved n s := rfl
theorem exec_refused (n : Nat) (s : State) :
    exec (.refused n) s = execRefused n s := rfl
theorem exec_poisonedResponse (n : Nat) (s : State) :
    exec (.poisonedResponse n) s = execPoisonedResponse n s := rfl
theorem exec_recallAcknowledgement (n : Nat) (s : State) :
    exec (.recallAcknowledgement n) s = execRecallAcknowledgement n s := rfl
theorem exec_recallTimeout (die : Nat) (line : Nat) (s : State) :
    exec (.recallTimeout die line) s = execRecallTimeout die line s := rfl
theorem exec_skipNotice (n : Nat) (s : State) :
    exec (.skipNotice n) s = execSkipNotice n s := rfl
theorem exec_holdRetry (n : Nat) (s : State) :
    exec (.holdRetry n) s = execHoldRetry n s := rfl
theorem exec_holdRetryResend (n : Nat) (s : State) :
    exec (.holdRetryResend n) s = execHoldRetryResend n s := rfl
theorem exec_holdBufferAdmit (n : Nat) (s : State) :
    exec (.holdBufferAdmit n) s = execHoldBufferAdmit n s := rfl
theorem exec_stampExtension (n : Nat) (s : State) :
    exec (.stampExtension n) s = execStampExtension n s := rfl
theorem exec_forwardedWrite (n : Nat) (s : State) :
    exec (.forwardedWrite n) s = execForwardedWrite n s := rfl
theorem exec_countUpdateDeadline (die : Nat) (s : State) :
    exec (.countUpdateDeadline die) s = execCountUpdateDeadline die s := rfl
theorem exec_accessExpiry (n : Nat) (s : State) :
    exec (.accessExpiry n) s = execAccessExpiry n s := rfl
theorem exec_engineCommandStart (e : EngineId) (s : State) :
    exec (.engineCommandStart e) s = execEngineCommandStart e s := rfl
theorem exec_engineCommandComplete (e : EngineId) (s : State) :
    exec (.engineCommandComplete e) s = execEngineCommandComplete e s := rfl
theorem exec_matrixCommandStart (p : PartId) (s : State) :
    exec (.matrixCommandStart p) s = execMatrixCommandStart p s := rfl
theorem exec_mmaRowStep (p : PartId) (s : State) :
    exec (.mmaRowStep p) s = execMmaRowStep p s := rfl
theorem exec_matrixCommandComplete (p : PartId) (s : State) :
    exec (.matrixCommandComplete p) s = execMatrixCommandComplete p s := rfl
theorem exec_tileTaskIssue (c : CoreId) (s : State) :
    exec (.tileTaskIssue c) s = execTileTaskIssue c s := rfl
theorem exec_groupBind (die : Nat) (rec : Nat) (s : State) :
    exec (.groupBind die rec) s = execGroupBind die rec s := rfl
theorem exec_groupRestore (die : Nat) (rec : Nat) (s : State) :
    exec (.groupRestore die rec) s = execGroupRestore die rec s := rfl
theorem exec_faultSwapOut (g : GroupId) (s : State) :
    exec (.faultSwapOut g) s = execFaultSwapOut g s := rfl
theorem exec_preemptionRequest (g : GroupId) (s : State) :
    exec (.preemptionRequest g) s = execPreemptionRequest g s := rfl
theorem exec_preemptionComplete (g : GroupId) (s : State) :
    exec (.preemptionComplete g) s = execPreemptionComplete g s := rfl
theorem exec_preemptionFallback (g : GroupId) (s : State) :
    exec (.preemptionFallback g) s = execPreemptionFallback g s := rfl
theorem exec_groupRetire (g : GroupId) (s : State) :
    exec (.groupRetire g) s = execGroupRetire g s := rfl
theorem exec_starvationPreemption (die : Nat) (s : State) :
    exec (.starvationPreemption die) s = execStarvationPreemption die s := rfl
theorem exec_schedulingDecision (die : Nat) (s : State) :
    exec (.schedulingDecision die) s = execSchedulingDecision die s := rfl
theorem exec_queuePush (n : Nat) (s : State) :
    exec (.queuePush n) s = execQueuePush n s := rfl
theorem exec_pushRetry (n : Nat) (s : State) :
    exec (.pushRetry n) s = execPushRetry n s := rfl
theorem exec_launchDispatch (q : Nat) (s : State) :
    exec (.launchDispatch q) s = execLaunchDispatch q s := rfl
theorem exec_waitCounterRead (q : Nat) (s : State) :
    exec (.waitCounterRead q) s = execWaitCounterRead q s := rfl
theorem exec_launchComplete (l : Nat) (s : State) :
    exec (.launchComplete l) s = execLaunchComplete l s := rfl
theorem exec_completionCounterAdd (l : Nat) (s : State) :
    exec (.completionCounterAdd l) s = execCompletionCounterAdd l s := rfl
theorem exec_faultDescriptorWrite (die : Nat) (s : State) :
    exec (.faultDescriptorWrite die) s = execFaultDescriptorWrite die s := rfl
theorem exec_announcement (n : Nat) (s : State) :
    exec (.announcement n) s = execAnnouncement n s := rfl
theorem exec_withdrawal (n : Nat) (s : State) :
    exec (.withdrawal n) s = execWithdrawal n s := rfl
theorem exec_withdrawalAcknowledgement (n : Nat) (s : State) :
    exec (.withdrawalAcknowledgement n) s = execWithdrawalAcknowledgement n s := rfl
theorem exec_withdrawalLimit (die : Nat) (s : State) :
    exec (.withdrawalLimit die) s = execWithdrawalLimit die s := rfl
theorem exec_replicaListingAcknowledgement (n : Nat) (s : State) :
    exec (.replicaListingAcknowledgement n) s = execReplicaListingAcknowledgement n s := rfl
theorem exec_replicaAckTimeout (die : Nat) (s : State) :
    exec (.replicaAckTimeout die) s = execReplicaAckTimeout die s := rfl
theorem exec_promoteRequest (n : Nat) (s : State) :
    exec (.promoteRequest n) s = execPromoteRequest n s := rfl
theorem exec_moveFinal (n : Nat) (s : State) :
    exec (.moveFinal n) s = execMoveFinal n s := rfl
theorem exec_forwardListContinuation (n : Nat) (s : State) :
    exec (.forwardListContinuation n) s = execForwardListContinuation n s := rfl
theorem exec_moveParkedEnd (n : Nat) (s : State) :
    exec (.moveParkedEnd n) s = execMoveParkedEnd n s := rfl
theorem exec_promoTimeout (die : Nat) (s : State) :
    exec (.promoTimeout die) s = execPromoTimeout die s := rfl
theorem exec_frameReceived (port : Nat) (bytes : List (BitVec 8)) (s : State) :
    exec (.frameReceived port bytes) s = execFrameReceived port bytes s := rfl
theorem exec_refreshFlit (port : Nat) (s : State) :
    exec (.refreshFlit port) s = execRefreshFlit port s := rfl
theorem exec_refreshDue (port : Nat) (s : State) :
    exec (.refreshDue port) s = execRefreshDue port s := rfl
theorem exec_packetTransmit (port : Nat) (s : State) :
    exec (.packetTransmit port) s = execPacketTransmit port s := rfl
theorem exec_slotMarker (port : Nat) (s : State) :
    exec (.slotMarker port) s = execSlotMarker port s := rfl
theorem exec_meetingMarker (port : Nat) (s : State) :
    exec (.meetingMarker port) s = execMeetingMarker port s := rfl
theorem exec_drainMarker (port : Nat) (s : State) :
    exec (.drainMarker port) s = execDrainMarker port s := rfl
theorem exec_finalMarker (port : Nat) (s : State) :
    exec (.finalMarker port) s = execFinalMarker port s := rfl
theorem exec_relayPacket (n : Nat) (s : State) :
    exec (.relayPacket n) s = execRelayPacket n s := rfl
theorem exec_linkFunctionAccept (die : Nat) (s : State) :
    exec (.linkFunctionAccept die) s = execLinkFunctionAccept die s := rfl
theorem exec_wavelengthLock (port : Nat) (lane : Nat) (s : State) :
    exec (.wavelengthLock port lane) s = execWavelengthLock port lane s := rfl
theorem exec_lossOfLock (port : Nat) (lane : Nat) (s : State) :
    exec (.lossOfLock port lane) s = execLossOfLock port lane s := rfl
theorem exec_trainingTimeout (port : Nat) (s : State) :
    exec (.trainingTimeout port) s = execTrainingTimeout port s := rfl
theorem exec_wakeLockTimeout (port : Nat) (s : State) :
    exec (.wakeLockTimeout port) s = execWakeLockTimeout port s := rfl
theorem exec_darkTimeout (port : Nat) (s : State) :
    exec (.darkTimeout port) s = execDarkTimeout port s := rfl
theorem exec_depthRewrite (port : Nat) (s : State) :
    exec (.depthRewrite port) s = execDepthRewrite port s := rfl
theorem exec_signatureCompare (t : ThreadId) (s : State) :
    exec (.signatureCompare t) s = execSignatureCompare t s := rfl
theorem exec_purgeStart (n : Nat) (s : State) :
    exec (.purgeStart n) s = execPurgeStart n s := rfl
theorem exec_purgeAcknowledgement (n : Nat) (s : State) :
    exec (.purgeAcknowledgement n) s = execPurgeAcknowledgement n s := rfl
theorem exec_purgeRelease (n : Nat) (s : State) :
    exec (.purgeRelease n) s = execPurgeRelease n s := rfl
theorem exec_powerLimit (die : Nat) (gate : Bool) (s : State) :
    exec (.powerLimit die gate) s = execPowerLimit die gate s := rfl
theorem exec_freezePin (s : State) :
    exec (.freezePin) s = execFreezePin s := rfl
theorem exec_resetPin (s : State) :
    exec (.resetPin) s = execResetPin s := rfl
theorem exec_bypass (tdi : Bool) (s : State) :
    exec (.bypass tdi) s = execBypass tdi s := rfl
theorem exec_idcode (s : State) :
    exec (.idcode) s = execIdcode s := rfl
theorem exec_samplePreload (pins : List Bool) (preload : List Bool) (s : State) :
    exec (.samplePreload pins preload) s = execSamplePreload pins preload s := rfl
theorem exec_extest (s : State) :
    exec (.extest) s = execExtest s := rfl
theorem exec_seldie (die : Nat) (s : State) :
    exec (.seldie die) s = execSeldie die s := rfl
theorem exec_memrd (fa : Nat) (s : State) :
    exec (.memrd fa) s = execMemrd fa s := rfl
theorem exec_fwCreateContext (die : Nat) (s : State) :
    exec (.fwCreateContext die) s = execFwCreateContext die s := rfl
theorem exec_fwMakeContextLive (die : Nat) (s : State) :
    exec (.fwMakeContextLive die) s = execFwMakeContextLive die s := rfl
theorem exec_fwRetireContext (die : Nat) (s : State) :
    exec (.fwRetireContext die) s = execFwRetireContext die s := rfl
theorem exec_fwCreateRegion (die : Nat) (s : State) :
    exec (.fwCreateRegion die) s = execFwCreateRegion die s := rfl
theorem exec_fwChangeRegion (die : Nat) (s : State) :
    exec (.fwChangeRegion die) s = execFwChangeRegion die s := rfl
theorem exec_fwRetireRegion (die : Nat) (s : State) :
    exec (.fwRetireRegion die) s = execFwRetireRegion die s := rfl
theorem exec_fwCreateQueue (die : Nat) (s : State) :
    exec (.fwCreateQueue die) s = execFwCreateQueue die s := rfl
theorem exec_fwDestroyQueue (die : Nat) (s : State) :
    exec (.fwDestroyQueue die) s = execFwDestroyQueue die s := rfl
theorem exec_fwInvalidateTranslations (die : Nat) (s : State) :
    exec (.fwInvalidateTranslations die) s = execFwInvalidateTranslations die s := rfl
theorem exec_fwReplayParkedRange (die : Nat) (s : State) :
    exec (.fwReplayParkedRange die) s = execFwReplayParkedRange die s := rfl
theorem exec_fwEmptyFaultRecord (die : Nat) (s : State) :
    exec (.fwEmptyFaultRecord die) s = execFwEmptyFaultRecord die s := rfl
theorem exec_fwResetConsumed (die : Nat) (s : State) :
    exec (.fwResetConsumed die) s = execFwResetConsumed die s := rfl
theorem exec_fwSetBudget (die : Nat) (s : State) :
    exec (.fwSetBudget die) s = execFwSetBudget die s := rfl
theorem exec_fwAnnouncePortStatus (die : Nat) (s : State) :
    exec (.fwAnnouncePortStatus die) s = execFwAnnouncePortStatus die s := rfl
theorem exec_fwWithdrawPortStatus (die : Nat) (s : State) :
    exec (.fwWithdrawPortStatus die) s = execFwWithdrawPortStatus die s := rfl
theorem exec_fwAcquireSemaphore (die : Nat) (s : State) :
    exec (.fwAcquireSemaphore die) s = execFwAcquireSemaphore die s := rfl
theorem exec_fwReleaseSemaphore (die : Nat) (s : State) :
    exec (.fwReleaseSemaphore die) s = execFwReleaseSemaphore die s := rfl
theorem exec_fwSetRetry (die : Nat) (s : State) :
    exec (.fwSetRetry die) s = execFwSetRetry die s := rfl
theorem exec_fwSetPreemptionLimit (die : Nat) (s : State) :
    exec (.fwSetPreemptionLimit die) s = execFwSetPreemptionLimit die s := rfl
theorem exec_fwDesignateSequencer (die : Nat) (s : State) :
    exec (.fwDesignateSequencer die) s = execFwDesignateSequencer die s := rfl
theorem exec_fwVersionQuery (die : Nat) (s : State) :
    exec (.fwVersionQuery die) s = execFwVersionQuery die s := rfl
theorem exec_fwAttestationReport (die : Nat) (s : State) :
    exec (.fwAttestationReport die) s = execFwAttestationReport die s := rfl
theorem exec_fwDeviceCertificate (die : Nat) (s : State) :
    exec (.fwDeviceCertificate die) s = execFwDeviceCertificate die s := rfl
theorem exec_fwPowerState (die : Nat) (s : State) :
    exec (.fwPowerState die) s = execFwPowerState die s := rfl
theorem exec_fwFirmwareUpdate (die : Nat) (s : State) :
    exec (.fwFirmwareUpdate die) s = execFwFirmwareUpdate die s := rfl
theorem exec_fwFreeze (die : Nat) (s : State) :
    exec (.fwFreeze die) s = execFwFreeze die s := rfl
theorem exec_fwPackageReset (die : Nat) (s : State) :
    exec (.fwPackageReset die) s = execFwPackageReset die s := rfl
theorem exec_fwWriteStandTable (die : Nat) (s : State) :
    exec (.fwWriteStandTable die) s = execFwWriteStandTable die s := rfl
theorem exec_illegalInstruction (w : BitVec 32) (s : State) :
    exec (.illegalInstruction w) s = execIllegalInstruction w s := rfl
theorem exec_fixedLatencyWriteback (t : ThreadId) (s : State) :
    exec (.fixedLatencyWriteback t) s = execFixedLatencyWriteback t s := rfl
theorem exec_frameBoundary (port : Nat) (s : State) :
    exec (.frameBoundary port) s = execFrameBoundary port s := rfl

end Sys2Proof.Machine
end

