-- ==== Sys2Proof/Laws/Table.lean ====
section
/-! SUPPORT. Table: reads after writes of the finite tables of Map. -/

namespace Sys2Proof

section
variable {κ α : Type} [DecidableEq κ]

@[simp] theorem AMap.find_nil (k : κ) : AMap.find ([] : AMap κ α) k = none := rfl

theorem AMap.find_set (m : AMap κ α) (k j : κ) (v : α) :
    AMap.find (AMap.set m k v) j = if k = j then some v else AMap.find m j := by
  induction m with
  | nil => simp [AMap.set, AMap.find]
  | cons e m ih =>
    obtain ⟨a, b⟩ := e
    by_cases h : a = k
    · subst h; by_cases h2 : a = j <;> simp [AMap.set, AMap.find, h2]
    · by_cases h2 : a = j
      · subst h2; simp [AMap.set, AMap.find, h, Ne.symm h]
      · simp [AMap.set, AMap.find, h, h2, ih]

@[simp] theorem AMap.find_set_self (m : AMap κ α) (k : κ) (v : α) : AMap.find (AMap.set m k v) k = some v := by
  simp [AMap.find_set]

theorem AMap.find_set_ne (m : AMap κ α) {k j : κ} (v : α) (h : k ≠ j) : AMap.find (AMap.set m k v) j = AMap.find m j := by
  simp [AMap.find_set, h]

@[simp] theorem AMap.getD_nil (k : κ) (d : α) : AMap.getD ([] : AMap κ α) k d = d := rfl

@[simp] theorem AMap.getD_set_self (m : AMap κ α) (k : κ) (v d : α) : AMap.getD (AMap.set m k v) k d = v := by
  simp [AMap.getD]

theorem AMap.getD_set_ne (m : AMap κ α) {k j : κ} (v d : α) (h : k ≠ j) :
    AMap.getD (AMap.set m k v) j d = AMap.getD m j d := by
  simp [AMap.getD, AMap.find_set_ne m v h]

theorem AMap.getD_set (m : AMap κ α) (k j : κ) (v d : α) :
    AMap.getD (AMap.set m k v) j d = if k = j then v else AMap.getD m j d := by
  by_cases h : k = j
  · subst h; simp
  · simp [h, AMap.getD_set_ne m v d h]

@[simp] theorem AMap.set_set (m : AMap κ α) (k : κ) (v w : α) : AMap.set (AMap.set m k v) k w = AMap.set m k w := by
  induction m with
  | nil => simp [AMap.set]
  | cons e m ih =>
    obtain ⟨a, b⟩ := e
    by_cases h : a = k <;> simp [AMap.set, h, ih]

theorem AMap.find_map (f : κ → α → α) (m : AMap κ α) (k : κ) :
    AMap.find (m.map fun e => (e.1, f e.1 e.2)) k = (AMap.find m k).map (f k) := by
  induction m with
  | nil => rfl
  | cons e m ih =>
    obtain ⟨a, b⟩ := e
    by_cases h : a = k
    · subst h; simp [AMap.find]
    · simp [AMap.find, h]; simpa using ih

theorem AMap.find_del (m : AMap κ α) (k j : κ) : AMap.find (AMap.del m k) j = if k = j then none else AMap.find m j := by
  induction m with
  | nil => simp [AMap.del]
  | cons e m ih =>
    obtain ⟨a, b⟩ := e
    simp only [AMap.del] at ih
    by_cases h : a = k
    · subst h; by_cases h2 : a = j <;> simp_all [AMap.del, AMap.find]
    · by_cases h2 : a = j
      · subst h2; simp [AMap.del, AMap.find, h, Ne.symm h]
      · simp_all [AMap.del, AMap.find]
end

end Sys2Proof
end

