-- ==== Sys2Proof/Laws/State.lean ====
section
/-! SUPPORT. State: what each update of a part of the package leaves of the state, and of a thread; generated from the
fields of State and Thread. -/

namespace Sys2Proof.Machine

open Sys2Proof

@[simp] theorem State.setThr_mem (s : State) (t : ThreadId) (x : Thread) : (s.setThr t x).mem = s.mem := rfl
@[simp] theorem State.setThr_poison (s : State) (t : ThreadId) (x : Thread) : (s.setThr t x).poison = s.poison := rfl
@[simp] theorem State.setThr_dies (s : State) (t : ThreadId) (x : Thread) : (s.setThr t x).dies = s.dies := rfl
@[simp] theorem State.setThr_clusters (s : State) (t : ThreadId) (x : Thread) : (s.setThr t x).clusters = s.clusters := rfl
@[simp] theorem State.setThr_cores (s : State) (t : ThreadId) (x : Thread) : (s.setThr t x).cores = s.cores := rfl
@[simp] theorem State.setThr_copies (s : State) (t : ThreadId) (x : Thread) : (s.setThr t x).copies = s.copies := rfl
@[simp] theorem State.setThr_parts (s : State) (t : ThreadId) (x : Thread) : (s.setThr t x).parts = s.parts := rfl
@[simp] theorem State.setThr_groups (s : State) (t : ThreadId) (x : Thread) : (s.setThr t x).groups = s.groups := rfl
@[simp] theorem State.setThr_outs (s : State) (t : ThreadId) (x : Thread) : (s.setThr t x).outs = s.outs := rfl
@[simp] theorem State.setThr_ports (s : State) (t : ThreadId) (x : Thread) : (s.setThr t x).ports = s.ports := rfl
@[simp] theorem State.setThr_accs (s : State) (t : ThreadId) (x : Thread) : (s.setThr t x).accs = s.accs := rfl
@[simp] theorem State.setThr_riders (s : State) (t : ThreadId) (x : Thread) : (s.setThr t x).riders = s.riders := rfl
@[simp] theorem State.setThr_stage (s : State) (t : ThreadId) (x : Thread) : (s.setThr t x).stage = s.stage := rfl
@[simp] theorem State.setThr_syncBuf (s : State) (t : ThreadId) (x : Thread) : (s.setThr t x).syncBuf = s.syncBuf := rfl
@[simp] theorem State.setThr_syncFail (s : State) (t : ThreadId) (x : Thread) : (s.setThr t x).syncFail = s.syncFail := rfl
@[simp] theorem State.setThr_evlog (s : State) (t : ThreadId) (x : Thread) : (s.setThr t x).evlog = s.evlog := rfl
@[simp] theorem State.setThr_net (s : State) (t : ThreadId) (x : Thread) : (s.setThr t x).net = s.net := rfl
@[simp] theorem State.setThr_ctl (s : State) (t : ThreadId) (x : Thread) : (s.setThr t x).ctl = s.ctl := rfl
@[simp] theorem State.setThr_reports (s : State) (t : ThreadId) (x : Thread) : (s.setThr t x).reports = s.reports := rfl
@[simp] theorem State.setThr_nextId (s : State) (t : ThreadId) (x : Thread) : (s.setThr t x).nextId = s.nextId := rfl
@[simp] theorem State.setThr_queues (s : State) (t : ThreadId) (x : Thread) : (s.setThr t x).queues = s.queues := rfl
@[simp] theorem State.setThr_launches (s : State) (t : ThreadId) (x : Thread) : (s.setThr t x).launches = s.launches := rfl
@[simp] theorem State.setThr_ctxs (s : State) (t : ThreadId) (x : Thread) : (s.setThr t x).ctxs = s.ctxs := rfl
@[simp] theorem State.setThr_regions (s : State) (t : ThreadId) (x : Thread) : (s.setThr t x).regions = s.regions := rfl
@[simp] theorem State.setThr_seqs (s : State) (t : ThreadId) (x : Thread) : (s.setThr t x).seqs = s.seqs := rfl
@[simp] theorem State.setThr_seqHold (s : State) (t : ThreadId) (x : Thread) : (s.setThr t x).seqHold = s.seqHold := rfl
@[simp] theorem State.setThr_sysSeq (s : State) (t : ThreadId) (x : Thread) : (s.setThr t x).sysSeq = s.sysSeq := rfl
@[simp] theorem State.setThr_sem (s : State) (t : ThreadId) (x : Thread) : (s.setThr t x).sem = s.sem := rfl
@[simp] theorem State.setThr_boot (s : State) (t : ThreadId) (x : Thread) : (s.setThr t x).boot = s.boot := rfl
@[simp] theorem State.setThr_pkg (s : State) (t : ThreadId) (x : Thread) : (s.setThr t x).pkg = s.pkg := rfl
@[simp] theorem State.setThr_flash (s : State) (t : ThreadId) (x : Thread) : (s.setThr t x).flash = s.flash := rfl
@[simp] theorem State.setThr_tap (s : State) (t : ThreadId) (x : Thread) : (s.setThr t x).tap = s.tap := rfl
@[simp] theorem State.setThr_frozen (s : State) (t : ThreadId) (x : Thread) : (s.setThr t x).frozen = s.frozen := rfl
@[simp] theorem State.setThr_power (s : State) (t : ThreadId) (x : Thread) : (s.setThr t x).power = s.power := rfl
@[simp] theorem State.setThr_fraction (s : State) (t : ThreadId) (x : Thread) : (s.setThr t x).fraction = s.fraction := rfl
@[simp] theorem State.setThr_cur (s : State) (t : ThreadId) (x : Thread) : (s.setThr t x).cur = s.cur := rfl
@[simp] theorem State.setThr_glean (s : State) (t : ThreadId) (x : Thread) : (s.setThr t x).glean = s.glean := rfl
@[simp] theorem State.setThr_gleanNo (s : State) (t : ThreadId) (x : Thread) : (s.setThr t x).gleanNo = s.gleanNo := rfl
@[simp] theorem State.setThr_ir (s : State) (t : ThreadId) (x : Thread) : (s.setThr t x).ir = s.ir := rfl
@[simp] theorem State.setThr_choices (s : State) (t : ThreadId) (x : Thread) : (s.setThr t x).choices = s.choices := rfl
@[simp] theorem State.setThr_l1Serve (s : State) (t : ThreadId) (x : Thread) : (s.setThr t x).l1Serve = s.l1Serve := rfl
@[simp] theorem State.setThr_storeFull (s : State) (t : ThreadId) (x : Thread) : (s.setThr t x).storeFull = s.storeFull := rfl
@[simp] theorem State.setThr_blocks (s : State) (t : ThreadId) (x : Thread) : (s.setThr t x).blocks = s.blocks := rfl
@[simp] theorem State.setThr_seqViews (s : State) (t : ThreadId) (x : Thread) : (s.setThr t x).seqViews = s.seqViews := rfl
@[simp] theorem State.setThr_freeCtr (s : State) (t : ThreadId) (x : Thread) : (s.setThr t x).freeCtr = s.freeCtr := rfl

@[simp] theorem State.setMe_mem (s : State) (x : Thread) : (s.setMe x).mem = s.mem := rfl
@[simp] theorem State.setMe_poison (s : State) (x : Thread) : (s.setMe x).poison = s.poison := rfl
@[simp] theorem State.setMe_dies (s : State) (x : Thread) : (s.setMe x).dies = s.dies := rfl
@[simp] theorem State.setMe_clusters (s : State) (x : Thread) : (s.setMe x).clusters = s.clusters := rfl
@[simp] theorem State.setMe_cores (s : State) (x : Thread) : (s.setMe x).cores = s.cores := rfl
@[simp] theorem State.setMe_copies (s : State) (x : Thread) : (s.setMe x).copies = s.copies := rfl
@[simp] theorem State.setMe_parts (s : State) (x : Thread) : (s.setMe x).parts = s.parts := rfl
@[simp] theorem State.setMe_groups (s : State) (x : Thread) : (s.setMe x).groups = s.groups := rfl
@[simp] theorem State.setMe_outs (s : State) (x : Thread) : (s.setMe x).outs = s.outs := rfl
@[simp] theorem State.setMe_ports (s : State) (x : Thread) : (s.setMe x).ports = s.ports := rfl
@[simp] theorem State.setMe_accs (s : State) (x : Thread) : (s.setMe x).accs = s.accs := rfl
@[simp] theorem State.setMe_riders (s : State) (x : Thread) : (s.setMe x).riders = s.riders := rfl
@[simp] theorem State.setMe_stage (s : State) (x : Thread) : (s.setMe x).stage = s.stage := rfl
@[simp] theorem State.setMe_syncBuf (s : State) (x : Thread) : (s.setMe x).syncBuf = s.syncBuf := rfl
@[simp] theorem State.setMe_syncFail (s : State) (x : Thread) : (s.setMe x).syncFail = s.syncFail := rfl
@[simp] theorem State.setMe_evlog (s : State) (x : Thread) : (s.setMe x).evlog = s.evlog := rfl
@[simp] theorem State.setMe_net (s : State) (x : Thread) : (s.setMe x).net = s.net := rfl
@[simp] theorem State.setMe_ctl (s : State) (x : Thread) : (s.setMe x).ctl = s.ctl := rfl
@[simp] theorem State.setMe_reports (s : State) (x : Thread) : (s.setMe x).reports = s.reports := rfl
@[simp] theorem State.setMe_nextId (s : State) (x : Thread) : (s.setMe x).nextId = s.nextId := rfl
@[simp] theorem State.setMe_queues (s : State) (x : Thread) : (s.setMe x).queues = s.queues := rfl
@[simp] theorem State.setMe_launches (s : State) (x : Thread) : (s.setMe x).launches = s.launches := rfl
@[simp] theorem State.setMe_ctxs (s : State) (x : Thread) : (s.setMe x).ctxs = s.ctxs := rfl
@[simp] theorem State.setMe_regions (s : State) (x : Thread) : (s.setMe x).regions = s.regions := rfl
@[simp] theorem State.setMe_seqs (s : State) (x : Thread) : (s.setMe x).seqs = s.seqs := rfl
@[simp] theorem State.setMe_seqHold (s : State) (x : Thread) : (s.setMe x).seqHold = s.seqHold := rfl
@[simp] theorem State.setMe_sysSeq (s : State) (x : Thread) : (s.setMe x).sysSeq = s.sysSeq := rfl
@[simp] theorem State.setMe_sem (s : State) (x : Thread) : (s.setMe x).sem = s.sem := rfl
@[simp] theorem State.setMe_boot (s : State) (x : Thread) : (s.setMe x).boot = s.boot := rfl
@[simp] theorem State.setMe_pkg (s : State) (x : Thread) : (s.setMe x).pkg = s.pkg := rfl
@[simp] theorem State.setMe_flash (s : State) (x : Thread) : (s.setMe x).flash = s.flash := rfl
@[simp] theorem State.setMe_tap (s : State) (x : Thread) : (s.setMe x).tap = s.tap := rfl
@[simp] theorem State.setMe_frozen (s : State) (x : Thread) : (s.setMe x).frozen = s.frozen := rfl
@[simp] theorem State.setMe_power (s : State) (x : Thread) : (s.setMe x).power = s.power := rfl
@[simp] theorem State.setMe_fraction (s : State) (x : Thread) : (s.setMe x).fraction = s.fraction := rfl
@[simp] theorem State.setMe_cur (s : State) (x : Thread) : (s.setMe x).cur = s.cur := rfl
@[simp] theorem State.setMe_glean (s : State) (x : Thread) : (s.setMe x).glean = s.glean := rfl
@[simp] theorem State.setMe_gleanNo (s : State) (x : Thread) : (s.setMe x).gleanNo = s.gleanNo := rfl
@[simp] theorem State.setMe_ir (s : State) (x : Thread) : (s.setMe x).ir = s.ir := rfl
@[simp] theorem State.setMe_choices (s : State) (x : Thread) : (s.setMe x).choices = s.choices := rfl
@[simp] theorem State.setMe_l1Serve (s : State) (x : Thread) : (s.setMe x).l1Serve = s.l1Serve := rfl
@[simp] theorem State.setMe_storeFull (s : State) (x : Thread) : (s.setMe x).storeFull = s.storeFull := rfl
@[simp] theorem State.setMe_blocks (s : State) (x : Thread) : (s.setMe x).blocks = s.blocks := rfl
@[simp] theorem State.setMe_seqViews (s : State) (x : Thread) : (s.setMe x).seqViews = s.seqViews := rfl
@[simp] theorem State.setMe_freeCtr (s : State) (x : Thread) : (s.setMe x).freeCtr = s.freeCtr := rfl

@[simp] theorem State.setGrp_mem (s : State) (g : GroupId) (x : Group) : (s.setGrp g x).mem = s.mem := rfl
@[simp] theorem State.setGrp_poison (s : State) (g : GroupId) (x : Group) : (s.setGrp g x).poison = s.poison := rfl
@[simp] theorem State.setGrp_dies (s : State) (g : GroupId) (x : Group) : (s.setGrp g x).dies = s.dies := rfl
@[simp] theorem State.setGrp_clusters (s : State) (g : GroupId) (x : Group) : (s.setGrp g x).clusters = s.clusters := rfl
@[simp] theorem State.setGrp_cores (s : State) (g : GroupId) (x : Group) : (s.setGrp g x).cores = s.cores := rfl
@[simp] theorem State.setGrp_copies (s : State) (g : GroupId) (x : Group) : (s.setGrp g x).copies = s.copies := rfl
@[simp] theorem State.setGrp_parts (s : State) (g : GroupId) (x : Group) : (s.setGrp g x).parts = s.parts := rfl
@[simp] theorem State.setGrp_threads (s : State) (g : GroupId) (x : Group) : (s.setGrp g x).threads = s.threads := rfl
@[simp] theorem State.setGrp_outs (s : State) (g : GroupId) (x : Group) : (s.setGrp g x).outs = s.outs := rfl
@[simp] theorem State.setGrp_ports (s : State) (g : GroupId) (x : Group) : (s.setGrp g x).ports = s.ports := rfl
@[simp] theorem State.setGrp_accs (s : State) (g : GroupId) (x : Group) : (s.setGrp g x).accs = s.accs := rfl
@[simp] theorem State.setGrp_riders (s : State) (g : GroupId) (x : Group) : (s.setGrp g x).riders = s.riders := rfl
@[simp] theorem State.setGrp_stage (s : State) (g : GroupId) (x : Group) : (s.setGrp g x).stage = s.stage := rfl
@[simp] theorem State.setGrp_syncBuf (s : State) (g : GroupId) (x : Group) : (s.setGrp g x).syncBuf = s.syncBuf := rfl
@[simp] theorem State.setGrp_syncFail (s : State) (g : GroupId) (x : Group) : (s.setGrp g x).syncFail = s.syncFail := rfl
@[simp] theorem State.setGrp_evlog (s : State) (g : GroupId) (x : Group) : (s.setGrp g x).evlog = s.evlog := rfl
@[simp] theorem State.setGrp_net (s : State) (g : GroupId) (x : Group) : (s.setGrp g x).net = s.net := rfl
@[simp] theorem State.setGrp_ctl (s : State) (g : GroupId) (x : Group) : (s.setGrp g x).ctl = s.ctl := rfl
@[simp] theorem State.setGrp_reports (s : State) (g : GroupId) (x : Group) : (s.setGrp g x).reports = s.reports := rfl
@[simp] theorem State.setGrp_nextId (s : State) (g : GroupId) (x : Group) : (s.setGrp g x).nextId = s.nextId := rfl
@[simp] theorem State.setGrp_queues (s : State) (g : GroupId) (x : Group) : (s.setGrp g x).queues = s.queues := rfl
@[simp] theorem State.setGrp_launches (s : State) (g : GroupId) (x : Group) : (s.setGrp g x).launches = s.launches := rfl
@[simp] theorem State.setGrp_ctxs (s : State) (g : GroupId) (x : Group) : (s.setGrp g x).ctxs = s.ctxs := rfl
@[simp] theorem State.setGrp_regions (s : State) (g : GroupId) (x : Group) : (s.setGrp g x).regions = s.regions := rfl
@[simp] theorem State.setGrp_seqs (s : State) (g : GroupId) (x : Group) : (s.setGrp g x).seqs = s.seqs := rfl
@[simp] theorem State.setGrp_seqHold (s : State) (g : GroupId) (x : Group) : (s.setGrp g x).seqHold = s.seqHold := rfl
@[simp] theorem State.setGrp_sysSeq (s : State) (g : GroupId) (x : Group) : (s.setGrp g x).sysSeq = s.sysSeq := rfl
@[simp] theorem State.setGrp_sem (s : State) (g : GroupId) (x : Group) : (s.setGrp g x).sem = s.sem := rfl
@[simp] theorem State.setGrp_boot (s : State) (g : GroupId) (x : Group) : (s.setGrp g x).boot = s.boot := rfl
@[simp] theorem State.setGrp_pkg (s : State) (g : GroupId) (x : Group) : (s.setGrp g x).pkg = s.pkg := rfl
@[simp] theorem State.setGrp_flash (s : State) (g : GroupId) (x : Group) : (s.setGrp g x).flash = s.flash := rfl
@[simp] theorem State.setGrp_tap (s : State) (g : GroupId) (x : Group) : (s.setGrp g x).tap = s.tap := rfl
@[simp] theorem State.setGrp_frozen (s : State) (g : GroupId) (x : Group) : (s.setGrp g x).frozen = s.frozen := rfl
@[simp] theorem State.setGrp_power (s : State) (g : GroupId) (x : Group) : (s.setGrp g x).power = s.power := rfl
@[simp] theorem State.setGrp_fraction (s : State) (g : GroupId) (x : Group) : (s.setGrp g x).fraction = s.fraction := rfl
@[simp] theorem State.setGrp_cur (s : State) (g : GroupId) (x : Group) : (s.setGrp g x).cur = s.cur := rfl
@[simp] theorem State.setGrp_glean (s : State) (g : GroupId) (x : Group) : (s.setGrp g x).glean = s.glean := rfl
@[simp] theorem State.setGrp_gleanNo (s : State) (g : GroupId) (x : Group) : (s.setGrp g x).gleanNo = s.gleanNo := rfl
@[simp] theorem State.setGrp_ir (s : State) (g : GroupId) (x : Group) : (s.setGrp g x).ir = s.ir := rfl
@[simp] theorem State.setGrp_choices (s : State) (g : GroupId) (x : Group) : (s.setGrp g x).choices = s.choices := rfl
@[simp] theorem State.setGrp_l1Serve (s : State) (g : GroupId) (x : Group) : (s.setGrp g x).l1Serve = s.l1Serve := rfl
@[simp] theorem State.setGrp_storeFull (s : State) (g : GroupId) (x : Group) : (s.setGrp g x).storeFull = s.storeFull := rfl
@[simp] theorem State.setGrp_blocks (s : State) (g : GroupId) (x : Group) : (s.setGrp g x).blocks = s.blocks := rfl
@[simp] theorem State.setGrp_seqViews (s : State) (g : GroupId) (x : Group) : (s.setGrp g x).seqViews = s.seqViews := rfl
@[simp] theorem State.setGrp_freeCtr (s : State) (g : GroupId) (x : Group) : (s.setGrp g x).freeCtr = s.freeCtr := rfl

@[simp] theorem State.setCore_mem (s : State) (c : CoreId) (x : Core) : (s.setCore c x).mem = s.mem := rfl
@[simp] theorem State.setCore_poison (s : State) (c : CoreId) (x : Core) : (s.setCore c x).poison = s.poison := rfl
@[simp] theorem State.setCore_dies (s : State) (c : CoreId) (x : Core) : (s.setCore c x).dies = s.dies := rfl
@[simp] theorem State.setCore_clusters (s : State) (c : CoreId) (x : Core) : (s.setCore c x).clusters = s.clusters := rfl
@[simp] theorem State.setCore_copies (s : State) (c : CoreId) (x : Core) : (s.setCore c x).copies = s.copies := rfl
@[simp] theorem State.setCore_parts (s : State) (c : CoreId) (x : Core) : (s.setCore c x).parts = s.parts := rfl
@[simp] theorem State.setCore_groups (s : State) (c : CoreId) (x : Core) : (s.setCore c x).groups = s.groups := rfl
@[simp] theorem State.setCore_threads (s : State) (c : CoreId) (x : Core) : (s.setCore c x).threads = s.threads := rfl
@[simp] theorem State.setCore_outs (s : State) (c : CoreId) (x : Core) : (s.setCore c x).outs = s.outs := rfl
@[simp] theorem State.setCore_ports (s : State) (c : CoreId) (x : Core) : (s.setCore c x).ports = s.ports := rfl
@[simp] theorem State.setCore_accs (s : State) (c : CoreId) (x : Core) : (s.setCore c x).accs = s.accs := rfl
@[simp] theorem State.setCore_riders (s : State) (c : CoreId) (x : Core) : (s.setCore c x).riders = s.riders := rfl
@[simp] theorem State.setCore_stage (s : State) (c : CoreId) (x : Core) : (s.setCore c x).stage = s.stage := rfl
@[simp] theorem State.setCore_syncBuf (s : State) (c : CoreId) (x : Core) : (s.setCore c x).syncBuf = s.syncBuf := rfl
@[simp] theorem State.setCore_syncFail (s : State) (c : CoreId) (x : Core) : (s.setCore c x).syncFail = s.syncFail := rfl
@[simp] theorem State.setCore_evlog (s : State) (c : CoreId) (x : Core) : (s.setCore c x).evlog = s.evlog := rfl
@[simp] theorem State.setCore_net (s : State) (c : CoreId) (x : Core) : (s.setCore c x).net = s.net := rfl
@[simp] theorem State.setCore_ctl (s : State) (c : CoreId) (x : Core) : (s.setCore c x).ctl = s.ctl := rfl
@[simp] theorem State.setCore_reports (s : State) (c : CoreId) (x : Core) : (s.setCore c x).reports = s.reports := rfl
@[simp] theorem State.setCore_nextId (s : State) (c : CoreId) (x : Core) : (s.setCore c x).nextId = s.nextId := rfl
@[simp] theorem State.setCore_queues (s : State) (c : CoreId) (x : Core) : (s.setCore c x).queues = s.queues := rfl
@[simp] theorem State.setCore_launches (s : State) (c : CoreId) (x : Core) : (s.setCore c x).launches = s.launches := rfl
@[simp] theorem State.setCore_ctxs (s : State) (c : CoreId) (x : Core) : (s.setCore c x).ctxs = s.ctxs := rfl
@[simp] theorem State.setCore_regions (s : State) (c : CoreId) (x : Core) : (s.setCore c x).regions = s.regions := rfl
@[simp] theorem State.setCore_seqs (s : State) (c : CoreId) (x : Core) : (s.setCore c x).seqs = s.seqs := rfl
@[simp] theorem State.setCore_seqHold (s : State) (c : CoreId) (x : Core) : (s.setCore c x).seqHold = s.seqHold := rfl
@[simp] theorem State.setCore_sysSeq (s : State) (c : CoreId) (x : Core) : (s.setCore c x).sysSeq = s.sysSeq := rfl
@[simp] theorem State.setCore_sem (s : State) (c : CoreId) (x : Core) : (s.setCore c x).sem = s.sem := rfl
@[simp] theorem State.setCore_boot (s : State) (c : CoreId) (x : Core) : (s.setCore c x).boot = s.boot := rfl
@[simp] theorem State.setCore_pkg (s : State) (c : CoreId) (x : Core) : (s.setCore c x).pkg = s.pkg := rfl
@[simp] theorem State.setCore_flash (s : State) (c : CoreId) (x : Core) : (s.setCore c x).flash = s.flash := rfl
@[simp] theorem State.setCore_tap (s : State) (c : CoreId) (x : Core) : (s.setCore c x).tap = s.tap := rfl
@[simp] theorem State.setCore_frozen (s : State) (c : CoreId) (x : Core) : (s.setCore c x).frozen = s.frozen := rfl
@[simp] theorem State.setCore_power (s : State) (c : CoreId) (x : Core) : (s.setCore c x).power = s.power := rfl
@[simp] theorem State.setCore_fraction (s : State) (c : CoreId) (x : Core) : (s.setCore c x).fraction = s.fraction := rfl
@[simp] theorem State.setCore_cur (s : State) (c : CoreId) (x : Core) : (s.setCore c x).cur = s.cur := rfl
@[simp] theorem State.setCore_glean (s : State) (c : CoreId) (x : Core) : (s.setCore c x).glean = s.glean := rfl
@[simp] theorem State.setCore_gleanNo (s : State) (c : CoreId) (x : Core) : (s.setCore c x).gleanNo = s.gleanNo := rfl
@[simp] theorem State.setCore_ir (s : State) (c : CoreId) (x : Core) : (s.setCore c x).ir = s.ir := rfl
@[simp] theorem State.setCore_choices (s : State) (c : CoreId) (x : Core) : (s.setCore c x).choices = s.choices := rfl
@[simp] theorem State.setCore_l1Serve (s : State) (c : CoreId) (x : Core) : (s.setCore c x).l1Serve = s.l1Serve := rfl
@[simp] theorem State.setCore_storeFull (s : State) (c : CoreId) (x : Core) : (s.setCore c x).storeFull = s.storeFull := rfl
@[simp] theorem State.setCore_blocks (s : State) (c : CoreId) (x : Core) : (s.setCore c x).blocks = s.blocks := rfl
@[simp] theorem State.setCore_seqViews (s : State) (c : CoreId) (x : Core) : (s.setCore c x).seqViews = s.seqViews := rfl
@[simp] theorem State.setCore_freeCtr (s : State) (c : CoreId) (x : Core) : (s.setCore c x).freeCtr = s.freeCtr := rfl

@[simp] theorem State.setDie_mem (s : State) (d : Nat) (x : Die) : (s.setDie d x).mem = s.mem := rfl
@[simp] theorem State.setDie_poison (s : State) (d : Nat) (x : Die) : (s.setDie d x).poison = s.poison := rfl
@[simp] theorem State.setDie_clusters (s : State) (d : Nat) (x : Die) : (s.setDie d x).clusters = s.clusters := rfl
@[simp] theorem State.setDie_cores (s : State) (d : Nat) (x : Die) : (s.setDie d x).cores = s.cores := rfl
@[simp] theorem State.setDie_copies (s : State) (d : Nat) (x : Die) : (s.setDie d x).copies = s.copies := rfl
@[simp] theorem State.setDie_parts (s : State) (d : Nat) (x : Die) : (s.setDie d x).parts = s.parts := rfl
@[simp] theorem State.setDie_groups (s : State) (d : Nat) (x : Die) : (s.setDie d x).groups = s.groups := rfl
@[simp] theorem State.setDie_threads (s : State) (d : Nat) (x : Die) : (s.setDie d x).threads = s.threads := rfl
@[simp] theorem State.setDie_outs (s : State) (d : Nat) (x : Die) : (s.setDie d x).outs = s.outs := rfl
@[simp] theorem State.setDie_ports (s : State) (d : Nat) (x : Die) : (s.setDie d x).ports = s.ports := rfl
@[simp] theorem State.setDie_accs (s : State) (d : Nat) (x : Die) : (s.setDie d x).accs = s.accs := rfl
@[simp] theorem State.setDie_riders (s : State) (d : Nat) (x : Die) : (s.setDie d x).riders = s.riders := rfl
@[simp] theorem State.setDie_stage (s : State) (d : Nat) (x : Die) : (s.setDie d x).stage = s.stage := rfl
@[simp] theorem State.setDie_syncBuf (s : State) (d : Nat) (x : Die) : (s.setDie d x).syncBuf = s.syncBuf := rfl
@[simp] theorem State.setDie_syncFail (s : State) (d : Nat) (x : Die) : (s.setDie d x).syncFail = s.syncFail := rfl
@[simp] theorem State.setDie_evlog (s : State) (d : Nat) (x : Die) : (s.setDie d x).evlog = s.evlog := rfl
@[simp] theorem State.setDie_net (s : State) (d : Nat) (x : Die) : (s.setDie d x).net = s.net := rfl
@[simp] theorem State.setDie_ctl (s : State) (d : Nat) (x : Die) : (s.setDie d x).ctl = s.ctl := rfl
@[simp] theorem State.setDie_reports (s : State) (d : Nat) (x : Die) : (s.setDie d x).reports = s.reports := rfl
@[simp] theorem State.setDie_nextId (s : State) (d : Nat) (x : Die) : (s.setDie d x).nextId = s.nextId := rfl
@[simp] theorem State.setDie_queues (s : State) (d : Nat) (x : Die) : (s.setDie d x).queues = s.queues := rfl
@[simp] theorem State.setDie_launches (s : State) (d : Nat) (x : Die) : (s.setDie d x).launches = s.launches := rfl
@[simp] theorem State.setDie_ctxs (s : State) (d : Nat) (x : Die) : (s.setDie d x).ctxs = s.ctxs := rfl
@[simp] theorem State.setDie_regions (s : State) (d : Nat) (x : Die) : (s.setDie d x).regions = s.regions := rfl
@[simp] theorem State.setDie_seqs (s : State) (d : Nat) (x : Die) : (s.setDie d x).seqs = s.seqs := rfl
@[simp] theorem State.setDie_seqHold (s : State) (d : Nat) (x : Die) : (s.setDie d x).seqHold = s.seqHold := rfl
@[simp] theorem State.setDie_sysSeq (s : State) (d : Nat) (x : Die) : (s.setDie d x).sysSeq = s.sysSeq := rfl
@[simp] theorem State.setDie_sem (s : State) (d : Nat) (x : Die) : (s.setDie d x).sem = s.sem := rfl
@[simp] theorem State.setDie_boot (s : State) (d : Nat) (x : Die) : (s.setDie d x).boot = s.boot := rfl
@[simp] theorem State.setDie_pkg (s : State) (d : Nat) (x : Die) : (s.setDie d x).pkg = s.pkg := rfl
@[simp] theorem State.setDie_flash (s : State) (d : Nat) (x : Die) : (s.setDie d x).flash = s.flash := rfl
@[simp] theorem State.setDie_tap (s : State) (d : Nat) (x : Die) : (s.setDie d x).tap = s.tap := rfl
@[simp] theorem State.setDie_frozen (s : State) (d : Nat) (x : Die) : (s.setDie d x).frozen = s.frozen := rfl
@[simp] theorem State.setDie_power (s : State) (d : Nat) (x : Die) : (s.setDie d x).power = s.power := rfl
@[simp] theorem State.setDie_fraction (s : State) (d : Nat) (x : Die) : (s.setDie d x).fraction = s.fraction := rfl
@[simp] theorem State.setDie_cur (s : State) (d : Nat) (x : Die) : (s.setDie d x).cur = s.cur := rfl
@[simp] theorem State.setDie_glean (s : State) (d : Nat) (x : Die) : (s.setDie d x).glean = s.glean := rfl
@[simp] theorem State.setDie_gleanNo (s : State) (d : Nat) (x : Die) : (s.setDie d x).gleanNo = s.gleanNo := rfl
@[simp] theorem State.setDie_ir (s : State) (d : Nat) (x : Die) : (s.setDie d x).ir = s.ir := rfl
@[simp] theorem State.setDie_choices (s : State) (d : Nat) (x : Die) : (s.setDie d x).choices = s.choices := rfl
@[simp] theorem State.setDie_l1Serve (s : State) (d : Nat) (x : Die) : (s.setDie d x).l1Serve = s.l1Serve := rfl
@[simp] theorem State.setDie_storeFull (s : State) (d : Nat) (x : Die) : (s.setDie d x).storeFull = s.storeFull := rfl
@[simp] theorem State.setDie_blocks (s : State) (d : Nat) (x : Die) : (s.setDie d x).blocks = s.blocks := rfl
@[simp] theorem State.setDie_seqViews (s : State) (d : Nat) (x : Die) : (s.setDie d x).seqViews = s.seqViews := rfl
@[simp] theorem State.setDie_freeCtr (s : State) (d : Nat) (x : Die) : (s.setDie d x).freeCtr = s.freeCtr := rfl

@[simp] theorem State.setPart_mem (s : State) (p : PartId) (x : Part) : (s.setPart p x).mem = s.mem := rfl
@[simp] theorem State.setPart_poison (s : State) (p : PartId) (x : Part) : (s.setPart p x).poison = s.poison := rfl
@[simp] theorem State.setPart_dies (s : State) (p : PartId) (x : Part) : (s.setPart p x).dies = s.dies := rfl
@[simp] theorem State.setPart_clusters (s : State) (p : PartId) (x : Part) : (s.setPart p x).clusters = s.clusters := rfl
@[simp] theorem State.setPart_cores (s : State) (p : PartId) (x : Part) : (s.setPart p x).cores = s.cores := rfl
@[simp] theorem State.setPart_copies (s : State) (p : PartId) (x : Part) : (s.setPart p x).copies = s.copies := rfl
@[simp] theorem State.setPart_groups (s : State) (p : PartId) (x : Part) : (s.setPart p x).groups = s.groups := rfl
@[simp] theorem State.setPart_threads (s : State) (p : PartId) (x : Part) : (s.setPart p x).threads = s.threads := rfl
@[simp] theorem State.setPart_outs (s : State) (p : PartId) (x : Part) : (s.setPart p x).outs = s.outs := rfl
@[simp] theorem State.setPart_ports (s : State) (p : PartId) (x : Part) : (s.setPart p x).ports = s.ports := rfl
@[simp] theorem State.setPart_accs (s : State) (p : PartId) (x : Part) : (s.setPart p x).accs = s.accs := rfl
@[simp] theorem State.setPart_riders (s : State) (p : PartId) (x : Part) : (s.setPart p x).riders = s.riders := rfl
@[simp] theorem State.setPart_stage (s : State) (p : PartId) (x : Part) : (s.setPart p x).stage = s.stage := rfl
@[simp] theorem State.setPart_syncBuf (s : State) (p : PartId) (x : Part) : (s.setPart p x).syncBuf = s.syncBuf := rfl
@[simp] theorem State.setPart_syncFail (s : State) (p : PartId) (x : Part) : (s.setPart p x).syncFail = s.syncFail := rfl
@[simp] theorem State.setPart_evlog (s : State) (p : PartId) (x : Part) : (s.setPart p x).evlog = s.evlog := rfl
@[simp] theorem State.setPart_net (s : State) (p : PartId) (x : Part) : (s.setPart p x).net = s.net := rfl
@[simp] theorem State.setPart_ctl (s : State) (p : PartId) (x : Part) : (s.setPart p x).ctl = s.ctl := rfl
@[simp] theorem State.setPart_reports (s : State) (p : PartId) (x : Part) : (s.setPart p x).reports = s.reports := rfl
@[simp] theorem State.setPart_nextId (s : State) (p : PartId) (x : Part) : (s.setPart p x).nextId = s.nextId := rfl
@[simp] theorem State.setPart_queues (s : State) (p : PartId) (x : Part) : (s.setPart p x).queues = s.queues := rfl
@[simp] theorem State.setPart_launches (s : State) (p : PartId) (x : Part) : (s.setPart p x).launches = s.launches := rfl
@[simp] theorem State.setPart_ctxs (s : State) (p : PartId) (x : Part) : (s.setPart p x).ctxs = s.ctxs := rfl
@[simp] theorem State.setPart_regions (s : State) (p : PartId) (x : Part) : (s.setPart p x).regions = s.regions := rfl
@[simp] theorem State.setPart_seqs (s : State) (p : PartId) (x : Part) : (s.setPart p x).seqs = s.seqs := rfl
@[simp] theorem State.setPart_seqHold (s : State) (p : PartId) (x : Part) : (s.setPart p x).seqHold = s.seqHold := rfl
@[simp] theorem State.setPart_sysSeq (s : State) (p : PartId) (x : Part) : (s.setPart p x).sysSeq = s.sysSeq := rfl
@[simp] theorem State.setPart_sem (s : State) (p : PartId) (x : Part) : (s.setPart p x).sem = s.sem := rfl
@[simp] theorem State.setPart_boot (s : State) (p : PartId) (x : Part) : (s.setPart p x).boot = s.boot := rfl
@[simp] theorem State.setPart_pkg (s : State) (p : PartId) (x : Part) : (s.setPart p x).pkg = s.pkg := rfl
@[simp] theorem State.setPart_flash (s : State) (p : PartId) (x : Part) : (s.setPart p x).flash = s.flash := rfl
@[simp] theorem State.setPart_tap (s : State) (p : PartId) (x : Part) : (s.setPart p x).tap = s.tap := rfl
@[simp] theorem State.setPart_frozen (s : State) (p : PartId) (x : Part) : (s.setPart p x).frozen = s.frozen := rfl
@[simp] theorem State.setPart_power (s : State) (p : PartId) (x : Part) : (s.setPart p x).power = s.power := rfl
@[simp] theorem State.setPart_fraction (s : State) (p : PartId) (x : Part) : (s.setPart p x).fraction = s.fraction := rfl
@[simp] theorem State.setPart_cur (s : State) (p : PartId) (x : Part) : (s.setPart p x).cur = s.cur := rfl
@[simp] theorem State.setPart_glean (s : State) (p : PartId) (x : Part) : (s.setPart p x).glean = s.glean := rfl
@[simp] theorem State.setPart_gleanNo (s : State) (p : PartId) (x : Part) : (s.setPart p x).gleanNo = s.gleanNo := rfl
@[simp] theorem State.setPart_ir (s : State) (p : PartId) (x : Part) : (s.setPart p x).ir = s.ir := rfl
@[simp] theorem State.setPart_choices (s : State) (p : PartId) (x : Part) : (s.setPart p x).choices = s.choices := rfl
@[simp] theorem State.setPart_l1Serve (s : State) (p : PartId) (x : Part) : (s.setPart p x).l1Serve = s.l1Serve := rfl
@[simp] theorem State.setPart_storeFull (s : State) (p : PartId) (x : Part) : (s.setPart p x).storeFull = s.storeFull := rfl
@[simp] theorem State.setPart_blocks (s : State) (p : PartId) (x : Part) : (s.setPart p x).blocks = s.blocks := rfl
@[simp] theorem State.setPart_seqViews (s : State) (p : PartId) (x : Part) : (s.setPart p x).seqViews = s.seqViews := rfl
@[simp] theorem State.setPart_freeCtr (s : State) (p : PartId) (x : Part) : (s.setPart p x).freeCtr = s.freeCtr := rfl

@[simp] theorem State.setCluster_mem (s : State) (d c : Nat) (x : Cluster) : (s.setCluster d c x).mem = s.mem := rfl
@[simp] theorem State.setCluster_poison (s : State) (d c : Nat) (x : Cluster) : (s.setCluster d c x).poison = s.poison := rfl
@[simp] theorem State.setCluster_dies (s : State) (d c : Nat) (x : Cluster) : (s.setCluster d c x).dies = s.dies := rfl
@[simp] theorem State.setCluster_cores (s : State) (d c : Nat) (x : Cluster) : (s.setCluster d c x).cores = s.cores := rfl
@[simp] theorem State.setCluster_copies (s : State) (d c : Nat) (x : Cluster) : (s.setCluster d c x).copies = s.copies := rfl
@[simp] theorem State.setCluster_parts (s : State) (d c : Nat) (x : Cluster) : (s.setCluster d c x).parts = s.parts := rfl
@[simp] theorem State.setCluster_groups (s : State) (d c : Nat) (x : Cluster) : (s.setCluster d c x).groups = s.groups := rfl
@[simp] theorem State.setCluster_threads (s : State) (d c : Nat) (x : Cluster) : (s.setCluster d c x).threads = s.threads := rfl
@[simp] theorem State.setCluster_outs (s : State) (d c : Nat) (x : Cluster) : (s.setCluster d c x).outs = s.outs := rfl
@[simp] theorem State.setCluster_ports (s : State) (d c : Nat) (x : Cluster) : (s.setCluster d c x).ports = s.ports := rfl
@[simp] theorem State.setCluster_accs (s : State) (d c : Nat) (x : Cluster) : (s.setCluster d c x).accs = s.accs := rfl
@[simp] theorem State.setCluster_riders (s : State) (d c : Nat) (x : Cluster) : (s.setCluster d c x).riders = s.riders := rfl
@[simp] theorem State.setCluster_stage (s : State) (d c : Nat) (x : Cluster) : (s.setCluster d c x).stage = s.stage := rfl
@[simp] theorem State.setCluster_syncBuf (s : State) (d c : Nat) (x : Cluster) : (s.setCluster d c x).syncBuf = s.syncBuf := rfl
@[simp] theorem State.setCluster_syncFail (s : State) (d c : Nat) (x : Cluster) : (s.setCluster d c x).syncFail = s.syncFail := rfl
@[simp] theorem State.setCluster_evlog (s : State) (d c : Nat) (x : Cluster) : (s.setCluster d c x).evlog = s.evlog := rfl
@[simp] theorem State.setCluster_net (s : State) (d c : Nat) (x : Cluster) : (s.setCluster d c x).net = s.net := rfl
@[simp] theorem State.setCluster_ctl (s : State) (d c : Nat) (x : Cluster) : (s.setCluster d c x).ctl = s.ctl := rfl
@[simp] theorem State.setCluster_reports (s : State) (d c : Nat) (x : Cluster) : (s.setCluster d c x).reports = s.reports := rfl
@[simp] theorem State.setCluster_nextId (s : State) (d c : Nat) (x : Cluster) : (s.setCluster d c x).nextId = s.nextId := rfl
@[simp] theorem State.setCluster_queues (s : State) (d c : Nat) (x : Cluster) : (s.setCluster d c x).queues = s.queues := rfl
@[simp] theorem State.setCluster_launches (s : State) (d c : Nat) (x : Cluster) : (s.setCluster d c x).launches = s.launches := rfl
@[simp] theorem State.setCluster_ctxs (s : State) (d c : Nat) (x : Cluster) : (s.setCluster d c x).ctxs = s.ctxs := rfl
@[simp] theorem State.setCluster_regions (s : State) (d c : Nat) (x : Cluster) : (s.setCluster d c x).regions = s.regions := rfl
@[simp] theorem State.setCluster_seqs (s : State) (d c : Nat) (x : Cluster) : (s.setCluster d c x).seqs = s.seqs := rfl
@[simp] theorem State.setCluster_seqHold (s : State) (d c : Nat) (x : Cluster) : (s.setCluster d c x).seqHold = s.seqHold := rfl
@[simp] theorem State.setCluster_sysSeq (s : State) (d c : Nat) (x : Cluster) : (s.setCluster d c x).sysSeq = s.sysSeq := rfl
@[simp] theorem State.setCluster_sem (s : State) (d c : Nat) (x : Cluster) : (s.setCluster d c x).sem = s.sem := rfl
@[simp] theorem State.setCluster_boot (s : State) (d c : Nat) (x : Cluster) : (s.setCluster d c x).boot = s.boot := rfl
@[simp] theorem State.setCluster_pkg (s : State) (d c : Nat) (x : Cluster) : (s.setCluster d c x).pkg = s.pkg := rfl
@[simp] theorem State.setCluster_flash (s : State) (d c : Nat) (x : Cluster) : (s.setCluster d c x).flash = s.flash := rfl
@[simp] theorem State.setCluster_tap (s : State) (d c : Nat) (x : Cluster) : (s.setCluster d c x).tap = s.tap := rfl
@[simp] theorem State.setCluster_frozen (s : State) (d c : Nat) (x : Cluster) : (s.setCluster d c x).frozen = s.frozen := rfl
@[simp] theorem State.setCluster_power (s : State) (d c : Nat) (x : Cluster) : (s.setCluster d c x).power = s.power := rfl
@[simp] theorem State.setCluster_fraction (s : State) (d c : Nat) (x : Cluster) : (s.setCluster d c x).fraction = s.fraction := rfl
@[simp] theorem State.setCluster_cur (s : State) (d c : Nat) (x : Cluster) : (s.setCluster d c x).cur = s.cur := rfl
@[simp] theorem State.setCluster_glean (s : State) (d c : Nat) (x : Cluster) : (s.setCluster d c x).glean = s.glean := rfl
@[simp] theorem State.setCluster_gleanNo (s : State) (d c : Nat) (x : Cluster) : (s.setCluster d c x).gleanNo = s.gleanNo := rfl
@[simp] theorem State.setCluster_ir (s : State) (d c : Nat) (x : Cluster) : (s.setCluster d c x).ir = s.ir := rfl
@[simp] theorem State.setCluster_choices (s : State) (d c : Nat) (x : Cluster) : (s.setCluster d c x).choices = s.choices := rfl
@[simp] theorem State.setCluster_l1Serve (s : State) (d c : Nat) (x : Cluster) : (s.setCluster d c x).l1Serve = s.l1Serve := rfl
@[simp] theorem State.setCluster_storeFull (s : State) (d c : Nat) (x : Cluster) : (s.setCluster d c x).storeFull = s.storeFull := rfl
@[simp] theorem State.setCluster_blocks (s : State) (d c : Nat) (x : Cluster) : (s.setCluster d c x).blocks = s.blocks := rfl
@[simp] theorem State.setCluster_seqViews (s : State) (d c : Nat) (x : Cluster) : (s.setCluster d c x).seqViews = s.seqViews := rfl
@[simp] theorem State.setCluster_freeCtr (s : State) (d c : Nat) (x : Cluster) : (s.setCluster d c x).freeCtr = s.freeCtr := rfl

@[simp] theorem State.setPort_mem (s : State) (q : Nat) (x : Port) : (s.setPort q x).mem = s.mem := rfl
@[simp] theorem State.setPort_poison (s : State) (q : Nat) (x : Port) : (s.setPort q x).poison = s.poison := rfl
@[simp] theorem State.setPort_dies (s : State) (q : Nat) (x : Port) : (s.setPort q x).dies = s.dies := rfl
@[simp] theorem State.setPort_clusters (s : State) (q : Nat) (x : Port) : (s.setPort q x).clusters = s.clusters := rfl
@[simp] theorem State.setPort_cores (s : State) (q : Nat) (x : Port) : (s.setPort q x).cores = s.cores := rfl
@[simp] theorem State.setPort_copies (s : State) (q : Nat) (x : Port) : (s.setPort q x).copies = s.copies := rfl
@[simp] theorem State.setPort_parts (s : State) (q : Nat) (x : Port) : (s.setPort q x).parts = s.parts := rfl
@[simp] theorem State.setPort_groups (s : State) (q : Nat) (x : Port) : (s.setPort q x).groups = s.groups := rfl
@[simp] theorem State.setPort_threads (s : State) (q : Nat) (x : Port) : (s.setPort q x).threads = s.threads := rfl
@[simp] theorem State.setPort_outs (s : State) (q : Nat) (x : Port) : (s.setPort q x).outs = s.outs := rfl
@[simp] theorem State.setPort_accs (s : State) (q : Nat) (x : Port) : (s.setPort q x).accs = s.accs := rfl
@[simp] theorem State.setPort_riders (s : State) (q : Nat) (x : Port) : (s.setPort q x).riders = s.riders := rfl
@[simp] theorem State.setPort_stage (s : State) (q : Nat) (x : Port) : (s.setPort q x).stage = s.stage := rfl
@[simp] theorem State.setPort_syncBuf (s : State) (q : Nat) (x : Port) : (s.setPort q x).syncBuf = s.syncBuf := rfl
@[simp] theorem State.setPort_syncFail (s : State) (q : Nat) (x : Port) : (s.setPort q x).syncFail = s.syncFail := rfl
@[simp] theorem State.setPort_evlog (s : State) (q : Nat) (x : Port) : (s.setPort q x).evlog = s.evlog := rfl
@[simp] theorem State.setPort_net (s : State) (q : Nat) (x : Port) : (s.setPort q x).net = s.net := rfl
@[simp] theorem State.setPort_ctl (s : State) (q : Nat) (x : Port) : (s.setPort q x).ctl = s.ctl := rfl
@[simp] theorem State.setPort_reports (s : State) (q : Nat) (x : Port) : (s.setPort q x).reports = s.reports := rfl
@[simp] theorem State.setPort_nextId (s : State) (q : Nat) (x : Port) : (s.setPort q x).nextId = s.nextId := rfl
@[simp] theorem State.setPort_queues (s : State) (q : Nat) (x : Port) : (s.setPort q x).queues = s.queues := rfl
@[simp] theorem State.setPort_launches (s : State) (q : Nat) (x : Port) : (s.setPort q x).launches = s.launches := rfl
@[simp] theorem State.setPort_ctxs (s : State) (q : Nat) (x : Port) : (s.setPort q x).ctxs = s.ctxs := rfl
@[simp] theorem State.setPort_regions (s : State) (q : Nat) (x : Port) : (s.setPort q x).regions = s.regions := rfl
@[simp] theorem State.setPort_seqs (s : State) (q : Nat) (x : Port) : (s.setPort q x).seqs = s.seqs := rfl
@[simp] theorem State.setPort_seqHold (s : State) (q : Nat) (x : Port) : (s.setPort q x).seqHold = s.seqHold := rfl
@[simp] theorem State.setPort_sysSeq (s : State) (q : Nat) (x : Port) : (s.setPort q x).sysSeq = s.sysSeq := rfl
@[simp] theorem State.setPort_sem (s : State) (q : Nat) (x : Port) : (s.setPort q x).sem = s.sem := rfl
@[simp] theorem State.setPort_boot (s : State) (q : Nat) (x : Port) : (s.setPort q x).boot = s.boot := rfl
@[simp] theorem State.setPort_pkg (s : State) (q : Nat) (x : Port) : (s.setPort q x).pkg = s.pkg := rfl
@[simp] theorem State.setPort_flash (s : State) (q : Nat) (x : Port) : (s.setPort q x).flash = s.flash := rfl
@[simp] theorem State.setPort_tap (s : State) (q : Nat) (x : Port) : (s.setPort q x).tap = s.tap := rfl
@[simp] theorem State.setPort_frozen (s : State) (q : Nat) (x : Port) : (s.setPort q x).frozen = s.frozen := rfl
@[simp] theorem State.setPort_power (s : State) (q : Nat) (x : Port) : (s.setPort q x).power = s.power := rfl
@[simp] theorem State.setPort_fraction (s : State) (q : Nat) (x : Port) : (s.setPort q x).fraction = s.fraction := rfl
@[simp] theorem State.setPort_cur (s : State) (q : Nat) (x : Port) : (s.setPort q x).cur = s.cur := rfl
@[simp] theorem State.setPort_glean (s : State) (q : Nat) (x : Port) : (s.setPort q x).glean = s.glean := rfl
@[simp] theorem State.setPort_gleanNo (s : State) (q : Nat) (x : Port) : (s.setPort q x).gleanNo = s.gleanNo := rfl
@[simp] theorem State.setPort_ir (s : State) (q : Nat) (x : Port) : (s.setPort q x).ir = s.ir := rfl
@[simp] theorem State.setPort_choices (s : State) (q : Nat) (x : Port) : (s.setPort q x).choices = s.choices := rfl
@[simp] theorem State.setPort_l1Serve (s : State) (q : Nat) (x : Port) : (s.setPort q x).l1Serve = s.l1Serve := rfl
@[simp] theorem State.setPort_storeFull (s : State) (q : Nat) (x : Port) : (s.setPort q x).storeFull = s.storeFull := rfl
@[simp] theorem State.setPort_blocks (s : State) (q : Nat) (x : Port) : (s.setPort q x).blocks = s.blocks := rfl
@[simp] theorem State.setPort_seqViews (s : State) (q : Nat) (x : Port) : (s.setPort q x).seqViews = s.seqViews := rfl
@[simp] theorem State.setPort_freeCtr (s : State) (q : Nat) (x : Port) : (s.setPort q x).freeCtr = s.freeCtr := rfl

@[simp] theorem Thread.setReg_pc (x : Thread) (n : Nat) (r : Reg) : (x.setReg n r).pc = x.pc := rfl
@[simp] theorem Thread.setReg_wb (x : Thread) (n : Nat) (r : Reg) : (x.setReg n r).wb = x.wb := rfl
@[simp] theorem Thread.setReg_preds (x : Thread) (n : Nat) (r : Reg) : (x.setReg n r).preds = x.preds := rfl
@[simp] theorem Thread.setReg_ix (x : Thread) (n : Nat) (r : Reg) : (x.setReg n r).ix = x.ix := rfl
@[simp] theorem Thread.setReg_clos (x : Thread) (n : Nat) (r : Reg) : (x.setReg n r).clos = x.clos := rfl
@[simp] theorem Thread.setReg_fsr (x : Thread) (n : Nat) (r : Reg) : (x.setReg n r).fsr = x.fsr := rfl
@[simp] theorem Thread.setReg_tsp (x : Thread) (n : Nat) (r : Reg) : (x.setReg n r).tsp = x.tsp := rfl
@[simp] theorem Thread.setReg_trapcause (x : Thread) (n : Nat) (r : Reg) : (x.setReg n r).trapcause = x.trapcause := rfl
@[simp] theorem Thread.setReg_trappc (x : Thread) (n : Nat) (r : Reg) : (x.setReg n r).trappc = x.trappc := rfl
@[simp] theorem Thread.setReg_trapval (x : Thread) (n : Nat) (r : Reg) : (x.setReg n r).trapval = x.trapval := rfl
@[simp] theorem Thread.setReg_tag (x : Thread) (n : Nat) (r : Reg) : (x.setReg n r).tag = x.tag := rfl
@[simp] theorem Thread.setReg_marked (x : Thread) (n : Nat) (r : Reg) : (x.setReg n r).marked = x.marked := rfl
@[simp] theorem Thread.setReg_latch (x : Thread) (n : Nat) (r : Reg) : (x.setReg n r).latch = x.latch := rfl
@[simp] theorem Thread.setReg_loops (x : Thread) (n : Nat) (r : Reg) : (x.setReg n r).loops = x.loops := rfl
@[simp] theorem Thread.setReg_level (x : Thread) (n : Nat) (r : Reg) : (x.setReg n r).level = x.level := rfl
@[simp] theorem Thread.setReg_anchor (x : Thread) (n : Nat) (r : Reg) : (x.setReg n r).anchor = x.anchor := rfl
@[simp] theorem Thread.setReg_handler (x : Thread) (n : Nat) (r : Reg) : (x.setReg n r).handler = x.handler := rfl
@[simp] theorem Thread.setReg_homeRead (x : Thread) (n : Nat) (r : Reg) : (x.setReg n r).homeRead = x.homeRead := rfl
@[simp] theorem Thread.setReg_bpend (x : Thread) (n : Nat) (r : Reg) : (x.setReg n r).bpend = x.bpend := rfl
@[simp] theorem Thread.setReg_bleft (x : Thread) (n : Nat) (r : Reg) : (x.setReg n r).bleft = x.bleft := rfl
@[simp] theorem Thread.setReg_arrived (x : Thread) (n : Nat) (r : Reg) : (x.setReg n r).arrived = x.arrived := rfl
@[simp] theorem Thread.setReg_after (x : Thread) (n : Nat) (r : Reg) : (x.setReg n r).after = x.after := rfl
@[simp] theorem Thread.setReg_status (x : Thread) (n : Nat) (r : Reg) : (x.setReg n r).status = x.status := rfl
@[simp] theorem Thread.setReg_notBefore (x : Thread) (n : Nat) (r : Reg) : (x.setReg n r).notBefore = x.notBefore := rfl
@[simp] theorem Thread.setReg_since (x : Thread) (n : Nat) (r : Reg) : (x.setReg n r).since = x.since := rfl
@[simp] theorem Thread.setReg_pend (x : Thread) (n : Nat) (r : Reg) : (x.setReg n r).pend = x.pend := rfl
@[simp] theorem Thread.setReg_vpend (x : Thread) (n : Nat) (r : Reg) : (x.setReg n r).vpend = x.vpend := rfl
@[simp] theorem Thread.setReg_busy (x : Thread) (n : Nat) (r : Reg) : (x.setReg n r).busy = x.busy := rfl
@[simp] theorem Thread.setReg_impr (x : Thread) (n : Nat) (r : Reg) : (x.setReg n r).impr = x.impr := rfl
@[simp] theorem Thread.setReg_raise (x : Thread) (n : Nat) (r : Reg) : (x.setReg n r).raise = x.raise := rfl
@[simp] theorem Thread.setReg_saving (x : Thread) (n : Nat) (r : Reg) : (x.setReg n r).saving = x.saving := rfl
@[simp] theorem Thread.setReg_safept (x : Thread) (n : Nat) (r : Reg) : (x.setReg n r).safept = x.safept := rfl
@[simp] theorem Thread.setReg_restoring (x : Thread) (n : Nat) (r : Reg) : (x.setReg n r).restoring = x.restoring := rfl
@[simp] theorem Thread.setReg_issued (x : Thread) (n : Nat) (r : Reg) : (x.setReg n r).issued = x.issued := rfl
@[simp] theorem Thread.setReg_mwaitBy (x : Thread) (n : Nat) (r : Reg) : (x.setReg n r).mwaitBy = x.mwaitBy := rfl
@[simp] theorem Thread.setReg_port (x : Thread) (n : Nat) (r : Reg) : (x.setReg n r).port = x.port := rfl
@[simp] theorem Thread.setReg_sig (x : Thread) (n : Nat) (r : Reg) : (x.setReg n r).sig = x.sig := rfl
@[simp] theorem Thread.setReg_nstores (x : Thread) (n : Nat) (r : Reg) : (x.setReg n r).nstores = x.nstores := rfl
@[simp] theorem Thread.setReg_held (x : Thread) (n : Nat) (r : Reg) : (x.setReg n r).held = x.held := rfl
@[simp] theorem Thread.setReg_cmds (x : Thread) (n : Nat) (r : Reg) : (x.setReg n r).cmds = x.cmds := rfl
@[simp] theorem Thread.setReg_atCommit (x : Thread) (n : Nat) (r : Reg) : (x.setReg n r).atCommit = x.atCommit := rfl

@[simp] theorem Thread.noPort_pc (x : Thread) : (x.noPort).pc = x.pc := rfl
@[simp] theorem Thread.noPort_regs (x : Thread) : (x.noPort).regs = x.regs := rfl
@[simp] theorem Thread.noPort_wb (x : Thread) : (x.noPort).wb = x.wb := rfl
@[simp] theorem Thread.noPort_preds (x : Thread) : (x.noPort).preds = x.preds := rfl
@[simp] theorem Thread.noPort_ix (x : Thread) : (x.noPort).ix = x.ix := rfl
@[simp] theorem Thread.noPort_clos (x : Thread) : (x.noPort).clos = x.clos := rfl
@[simp] theorem Thread.noPort_fsr (x : Thread) : (x.noPort).fsr = x.fsr := rfl
@[simp] theorem Thread.noPort_tsp (x : Thread) : (x.noPort).tsp = x.tsp := rfl
@[simp] theorem Thread.noPort_trapcause (x : Thread) : (x.noPort).trapcause = x.trapcause := rfl
@[simp] theorem Thread.noPort_trappc (x : Thread) : (x.noPort).trappc = x.trappc := rfl
@[simp] theorem Thread.noPort_trapval (x : Thread) : (x.noPort).trapval = x.trapval := rfl
@[simp] theorem Thread.noPort_tag (x : Thread) : (x.noPort).tag = x.tag := rfl
@[simp] theorem Thread.noPort_marked (x : Thread) : (x.noPort).marked = x.marked := rfl
@[simp] theorem Thread.noPort_latch (x : Thread) : (x.noPort).latch = x.latch := rfl
@[simp] theorem Thread.noPort_loops (x : Thread) : (x.noPort).loops = x.loops := rfl
@[simp] theorem Thread.noPort_level (x : Thread) : (x.noPort).level = x.level := rfl
@[simp] theorem Thread.noPort_anchor (x : Thread) : (x.noPort).anchor = x.anchor := rfl
@[simp] theorem Thread.noPort_handler (x : Thread) : (x.noPort).handler = x.handler := rfl
@[simp] theorem Thread.noPort_homeRead (x : Thread) : (x.noPort).homeRead = x.homeRead := rfl
@[simp] theorem Thread.noPort_bpend (x : Thread) : (x.noPort).bpend = x.bpend := rfl
@[simp] theorem Thread.noPort_bleft (x : Thread) : (x.noPort).bleft = x.bleft := rfl
@[simp] theorem Thread.noPort_arrived (x : Thread) : (x.noPort).arrived = x.arrived := rfl
@[simp] theorem Thread.noPort_after (x : Thread) : (x.noPort).after = x.after := rfl
@[simp] theorem Thread.noPort_status (x : Thread) : (x.noPort).status = x.status := rfl
@[simp] theorem Thread.noPort_notBefore (x : Thread) : (x.noPort).notBefore = x.notBefore := rfl
@[simp] theorem Thread.noPort_since (x : Thread) : (x.noPort).since = x.since := rfl
@[simp] theorem Thread.noPort_pend (x : Thread) : (x.noPort).pend = x.pend := rfl
@[simp] theorem Thread.noPort_vpend (x : Thread) : (x.noPort).vpend = x.vpend := rfl
@[simp] theorem Thread.noPort_busy (x : Thread) : (x.noPort).busy = x.busy := rfl
@[simp] theorem Thread.noPort_impr (x : Thread) : (x.noPort).impr = x.impr := rfl
@[simp] theorem Thread.noPort_raise (x : Thread) : (x.noPort).raise = x.raise := rfl
@[simp] theorem Thread.noPort_saving (x : Thread) : (x.noPort).saving = x.saving := rfl
@[simp] theorem Thread.noPort_safept (x : Thread) : (x.noPort).safept = x.safept := rfl
@[simp] theorem Thread.noPort_restoring (x : Thread) : (x.noPort).restoring = x.restoring := rfl
@[simp] theorem Thread.noPort_sig (x : Thread) : (x.noPort).sig = x.sig := rfl
@[simp] theorem Thread.noPort_nstores (x : Thread) : (x.noPort).nstores = x.nstores := rfl
@[simp] theorem Thread.noPort_held (x : Thread) : (x.noPort).held = x.held := rfl
@[simp] theorem Thread.noPort_cmds (x : Thread) : (x.noPort).cmds = x.cmds := rfl
@[simp] theorem Thread.noPort_atCommit (x : Thread) : (x.noPort).atCommit = x.atCommit := rfl

@[simp] theorem Thread.flowTo_regs (x : Thread) (a : Nat) : (x.flowTo a).regs = x.regs := rfl
@[simp] theorem Thread.flowTo_wb (x : Thread) (a : Nat) : (x.flowTo a).wb = x.wb := rfl
@[simp] theorem Thread.flowTo_ix (x : Thread) (a : Nat) : (x.flowTo a).ix = x.ix := rfl
@[simp] theorem Thread.flowTo_clos (x : Thread) (a : Nat) : (x.flowTo a).clos = x.clos := rfl
@[simp] theorem Thread.flowTo_fsr (x : Thread) (a : Nat) : (x.flowTo a).fsr = x.fsr := rfl
@[simp] theorem Thread.flowTo_tsp (x : Thread) (a : Nat) : (x.flowTo a).tsp = x.tsp := rfl
@[simp] theorem Thread.flowTo_trapcause (x : Thread) (a : Nat) : (x.flowTo a).trapcause = x.trapcause := rfl
@[simp] theorem Thread.flowTo_trappc (x : Thread) (a : Nat) : (x.flowTo a).trappc = x.trappc := rfl
@[simp] theorem Thread.flowTo_trapval (x : Thread) (a : Nat) : (x.flowTo a).trapval = x.trapval := rfl
@[simp] theorem Thread.flowTo_tag (x : Thread) (a : Nat) : (x.flowTo a).tag = x.tag := rfl
@[simp] theorem Thread.flowTo_marked (x : Thread) (a : Nat) : (x.flowTo a).marked = x.marked := rfl
@[simp] theorem Thread.flowTo_latch (x : Thread) (a : Nat) : (x.flowTo a).latch = x.latch := rfl
@[simp] theorem Thread.flowTo_level (x : Thread) (a : Nat) : (x.flowTo a).level = x.level := rfl
@[simp] theorem Thread.flowTo_anchor (x : Thread) (a : Nat) : (x.flowTo a).anchor = x.anchor := rfl
@[simp] theorem Thread.flowTo_handler (x : Thread) (a : Nat) : (x.flowTo a).handler = x.handler := rfl
@[simp] theorem Thread.flowTo_homeRead (x : Thread) (a : Nat) : (x.flowTo a).homeRead = x.homeRead := rfl
@[simp] theorem Thread.flowTo_bpend (x : Thread) (a : Nat) : (x.flowTo a).bpend = x.bpend := rfl
@[simp] theorem Thread.flowTo_bleft (x : Thread) (a : Nat) : (x.flowTo a).bleft = x.bleft := rfl
@[simp] theorem Thread.flowTo_arrived (x : Thread) (a : Nat) : (x.flowTo a).arrived = x.arrived := rfl
@[simp] theorem Thread.flowTo_after (x : Thread) (a : Nat) : (x.flowTo a).after = x.after := rfl
@[simp] theorem Thread.flowTo_status (x : Thread) (a : Nat) : (x.flowTo a).status = x.status := rfl
@[simp] theorem Thread.flowTo_notBefore (x : Thread) (a : Nat) : (x.flowTo a).notBefore = x.notBefore := rfl
@[simp] theorem Thread.flowTo_since (x : Thread) (a : Nat) : (x.flowTo a).since = x.since := rfl
@[simp] theorem Thread.flowTo_pend (x : Thread) (a : Nat) : (x.flowTo a).pend = x.pend := rfl
@[simp] theorem Thread.flowTo_vpend (x : Thread) (a : Nat) : (x.flowTo a).vpend = x.vpend := rfl
@[simp] theorem Thread.flowTo_busy (x : Thread) (a : Nat) : (x.flowTo a).busy = x.busy := rfl
@[simp] theorem Thread.flowTo_impr (x : Thread) (a : Nat) : (x.flowTo a).impr = x.impr := rfl
@[simp] theorem Thread.flowTo_raise (x : Thread) (a : Nat) : (x.flowTo a).raise = x.raise := rfl
@[simp] theorem Thread.flowTo_saving (x : Thread) (a : Nat) : (x.flowTo a).saving = x.saving := rfl
@[simp] theorem Thread.flowTo_safept (x : Thread) (a : Nat) : (x.flowTo a).safept = x.safept := rfl
@[simp] theorem Thread.flowTo_restoring (x : Thread) (a : Nat) : (x.flowTo a).restoring = x.restoring := rfl
@[simp] theorem Thread.flowTo_issued (x : Thread) (a : Nat) : (x.flowTo a).issued = x.issued := rfl
@[simp] theorem Thread.flowTo_mwaitBy (x : Thread) (a : Nat) : (x.flowTo a).mwaitBy = x.mwaitBy := rfl
@[simp] theorem Thread.flowTo_port (x : Thread) (a : Nat) : (x.flowTo a).port = x.port := rfl
@[simp] theorem Thread.flowTo_sig (x : Thread) (a : Nat) : (x.flowTo a).sig = x.sig := rfl
@[simp] theorem Thread.flowTo_nstores (x : Thread) (a : Nat) : (x.flowTo a).nstores = x.nstores := rfl
@[simp] theorem Thread.flowTo_held (x : Thread) (a : Nat) : (x.flowTo a).held = x.held := rfl
@[simp] theorem Thread.flowTo_cmds (x : Thread) (a : Nat) : (x.flowTo a).cmds = x.cmds := rfl
@[simp] theorem Thread.flowTo_atCommit (x : Thread) (a : Nat) : (x.flowTo a).atCommit = x.atCommit := rfl

@[simp] theorem Thread.jumpTo_regs (x : Thread) (a : Nat) : (x.jumpTo a).regs = x.regs := rfl
@[simp] theorem Thread.jumpTo_wb (x : Thread) (a : Nat) : (x.jumpTo a).wb = x.wb := rfl
@[simp] theorem Thread.jumpTo_preds (x : Thread) (a : Nat) : (x.jumpTo a).preds = x.preds := rfl
@[simp] theorem Thread.jumpTo_ix (x : Thread) (a : Nat) : (x.jumpTo a).ix = x.ix := rfl
@[simp] theorem Thread.jumpTo_clos (x : Thread) (a : Nat) : (x.jumpTo a).clos = x.clos := rfl
@[simp] theorem Thread.jumpTo_fsr (x : Thread) (a : Nat) : (x.jumpTo a).fsr = x.fsr := rfl
@[simp] theorem Thread.jumpTo_tsp (x : Thread) (a : Nat) : (x.jumpTo a).tsp = x.tsp := rfl
@[simp] theorem Thread.jumpTo_trapcause (x : Thread) (a : Nat) : (x.jumpTo a).trapcause = x.trapcause := rfl
@[simp] theorem Thread.jumpTo_trappc (x : Thread) (a : Nat) : (x.jumpTo a).trappc = x.trappc := rfl
@[simp] theorem Thread.jumpTo_trapval (x : Thread) (a : Nat) : (x.jumpTo a).trapval = x.trapval := rfl
@[simp] theorem Thread.jumpTo_tag (x : Thread) (a : Nat) : (x.jumpTo a).tag = x.tag := rfl
@[simp] theorem Thread.jumpTo_marked (x : Thread) (a : Nat) : (x.jumpTo a).marked = x.marked := rfl
@[simp] theorem Thread.jumpTo_latch (x : Thread) (a : Nat) : (x.jumpTo a).latch = x.latch := rfl
@[simp] theorem Thread.jumpTo_level (x : Thread) (a : Nat) : (x.jumpTo a).level = x.level := rfl
@[simp] theorem Thread.jumpTo_anchor (x : Thread) (a : Nat) : (x.jumpTo a).anchor = x.anchor := rfl
@[simp] theorem Thread.jumpTo_handler (x : Thread) (a : Nat) : (x.jumpTo a).handler = x.handler := rfl
@[simp] theorem Thread.jumpTo_homeRead (x : Thread) (a : Nat) : (x.jumpTo a).homeRead = x.homeRead := rfl
@[simp] theorem Thread.jumpTo_bpend (x : Thread) (a : Nat) : (x.jumpTo a).bpend = x.bpend := rfl
@[simp] theorem Thread.jumpTo_bleft (x : Thread) (a : Nat) : (x.jumpTo a).bleft = x.bleft := rfl
@[simp] theorem Thread.jumpTo_arrived (x : Thread) (a : Nat) : (x.jumpTo a).arrived = x.arrived := rfl
@[simp] theorem Thread.jumpTo_after (x : Thread) (a : Nat) : (x.jumpTo a).after = x.after := rfl
@[simp] theorem Thread.jumpTo_status (x : Thread) (a : Nat) : (x.jumpTo a).status = x.status := rfl
@[simp] theorem Thread.jumpTo_notBefore (x : Thread) (a : Nat) : (x.jumpTo a).notBefore = x.notBefore := rfl
@[simp] theorem Thread.jumpTo_since (x : Thread) (a : Nat) : (x.jumpTo a).since = x.since := rfl
@[simp] theorem Thread.jumpTo_pend (x : Thread) (a : Nat) : (x.jumpTo a).pend = x.pend := rfl
@[simp] theorem Thread.jumpTo_vpend (x : Thread) (a : Nat) : (x.jumpTo a).vpend = x.vpend := rfl
@[simp] theorem Thread.jumpTo_busy (x : Thread) (a : Nat) : (x.jumpTo a).busy = x.busy := rfl
@[simp] theorem Thread.jumpTo_impr (x : Thread) (a : Nat) : (x.jumpTo a).impr = x.impr := rfl
@[simp] theorem Thread.jumpTo_raise (x : Thread) (a : Nat) : (x.jumpTo a).raise = x.raise := rfl
@[simp] theorem Thread.jumpTo_saving (x : Thread) (a : Nat) : (x.jumpTo a).saving = x.saving := rfl
@[simp] theorem Thread.jumpTo_safept (x : Thread) (a : Nat) : (x.jumpTo a).safept = x.safept := rfl
@[simp] theorem Thread.jumpTo_restoring (x : Thread) (a : Nat) : (x.jumpTo a).restoring = x.restoring := rfl
@[simp] theorem Thread.jumpTo_issued (x : Thread) (a : Nat) : (x.jumpTo a).issued = x.issued := rfl
@[simp] theorem Thread.jumpTo_mwaitBy (x : Thread) (a : Nat) : (x.jumpTo a).mwaitBy = x.mwaitBy := rfl
@[simp] theorem Thread.jumpTo_port (x : Thread) (a : Nat) : (x.jumpTo a).port = x.port := rfl
@[simp] theorem Thread.jumpTo_sig (x : Thread) (a : Nat) : (x.jumpTo a).sig = x.sig := rfl
@[simp] theorem Thread.jumpTo_nstores (x : Thread) (a : Nat) : (x.jumpTo a).nstores = x.nstores := rfl
@[simp] theorem Thread.jumpTo_held (x : Thread) (a : Nat) : (x.jumpTo a).held = x.held := rfl
@[simp] theorem Thread.jumpTo_cmds (x : Thread) (a : Nat) : (x.jumpTo a).cmds = x.cmds := rfl
@[simp] theorem Thread.jumpTo_atCommit (x : Thread) (a : Nat) : (x.jumpTo a).atCommit = x.atCommit := rfl
/-! ### Reads after updates -/

@[simp] theorem State.thr_setThr_self (s : State) (t : ThreadId) (x : Thread) : (s.setThr t x).thr t = x := by
  simp [State.thr, State.setThr]
theorem State.thr_setThr_ne (s : State) {t u : ThreadId} (x : Thread) (h : t ≠ u) : (s.setThr t x).thr u = s.thr u := by
  simp [State.thr, State.setThr, AMap.getD_set_ne _ _ _ h]
@[simp] theorem State.me_setMe (s : State) (x : Thread) : (s.setMe x).me = x := by simp [State.me, State.setMe]
@[simp] theorem State.setMe_setMe (s : State) (x y : Thread) : (s.setMe x).setMe y = s.setMe y := by
  simp [State.setMe, State.setThr]
theorem State.thr_setMe_ne (s : State) {u : ThreadId} (x : Thread) (h : s.cur ≠ u) : (s.setMe x).thr u = s.thr u :=
  State.thr_setThr_ne s x h
@[simp] theorem State.grp_setGrp_self (s : State) (g : GroupId) (x : Group) : (s.setGrp g x).grp g = x := by
  simp [State.grp, State.setGrp]
@[simp] theorem State.core_setCore_self (s : State) (c : CoreId) (x : Core) : (s.setCore c x).core c = x := by
  simp [State.core, State.setCore]
@[simp] theorem State.die_setDie_self (s : State) (d : Nat) (x : Die) : (s.setDie d x).die d = x := by
  simp [State.die, State.setDie]
@[simp] theorem State.part_setPart_self (s : State) (p : PartId) (x : Part) : (s.setPart p x).part p = x := by
  simp [State.part, State.setPart]
@[simp] theorem State.port_setPort_self (s : State) (q : Nat) (x : Port) : (s.setPort q x).port q = x := by
  simp [State.port, State.setPort]

/-! ### What an update of the issuing thread leaves of what is read through other parts -/

@[simp] theorem State.myGrp_setMe (s : State) (x : Thread) : (s.setMe x).myGrp = s.myGrp := rfl
@[simp] theorem State.grp_setMe (s : State) (x : Thread) (g : GroupId) : (s.setMe x).grp g = s.grp g := rfl
@[simp] theorem State.now_setMe (s : State) (x : Thread) (d : Nat) : (s.setMe x).now d = s.now d := rfl
@[simp] theorem State.die_setMe (s : State) (x : Thread) (d : Nat) : (s.setMe x).die d = s.die d := rfl
@[simp] theorem State.core_setMe (s : State) (x : Thread) (c : CoreId) : (s.setMe x).core c = s.core c := rfl

/-! ### Registers and predicates of a thread -/

theorem Thread.reg_setReg (x : Thread) (n m : Nat) (r : Reg) : (x.setReg n r).reg m = if n = m then r else x.reg m := by
  simp [Thread.reg, Thread.setReg, AMap.getD_set]

@[simp] theorem Thread.reg_setReg_self (x : Thread) (n : Nat) (r : Reg) : (x.setReg n r).reg n = r := by
  simp [Thread.reg_setReg]

@[simp] theorem Thread.pred_zero (x : Thread) : x.pred 0 = true := rfl

theorem BitVec.getLsbD_ofNat_two_pow_16 (n m : Nat) (h : n < 16) : (BitVec.ofNat 16 (2 ^ n)).getLsbD m = decide (n = m) := by
  rw [BitVec.getLsbD_ofNat, Nat.testBit_two_pow]
  by_cases h2 : n = m
  · subst h2; simp [h]
  · simp [h2]

theorem Thread.pred_setPred (x : Thread) (n m : Nat) (b : Bool) (h : n < 16) :
    (x.setPred n b).pred m = if n = m ∧ n ≠ 0 then b else x.pred m := by
  have key := BitVec.getLsbD_ofNat_two_pow_16 n m h
  unfold Thread.setPred
  generalize BitVec.ofNat 16 (2 ^ n) = w at *
  by_cases hn : n = 0
  · subst hn; simp
  · by_cases hm : m = 0
    · subst hm; simp [Thread.pred, predBit, hn]
    · by_cases h2 : n = m
      · subst h2
        cases b <;> simp [Thread.pred, hn, predBit, key]
      · by_cases h3 : m < 16
        · rw [BitVec.getLsbD_eq_getElem h3] at key
          cases b <;> simp [Thread.pred, hn, predBit, hm, h2, h3, key]
        · cases b <;> simp [Thread.pred, hn, predBit, hm, h2, key, BitVec.getLsbD_of_ge x.preds m (by omega)]

end Sys2Proof.Machine
end

