-- ==== Sys2Proof/Laws/Issue.lean ====
section
/-! SUPPORT. Issue: what one issue comes to when the checks of R47 are passed, and what its end leaves. -/

namespace Sys2Proof.Machine

open Sys2Proof

@[simp] theorem State.flushed_myGrp (s : State) : s.flushed.myGrp = s.myGrp := rfl
@[simp] theorem State.flushed_cur (s : State) : s.flushed.cur = s.cur := rfl
@[simp] theorem State.flushed_now (s : State) (d : Nat) : s.flushed.now d = s.now d := rfl
@[simp] theorem State.flushed_me (s : State) : s.flushed.me = s.me.settled s.time := by
  simp [State.flushed, State.time]

/-- An instruction whose checks are passed has its own effect (R47). -/
theorem laneRes_of_issues {i : Instr} {s : State} (h : issues i s = true) (body : State → Res) :
    laneRes i s body = body s.flushed := by
  simp only [issues, Bool.and_eq_true, Bool.not_eq_true', bne_iff_ne, ne_eq] at h
  obtain ⟨⟨⟨⟨⟨⟨h1, h2⟩, h3⟩, h4⟩, h5⟩, h6⟩, h7⟩ := h
  simp only [guardReadable, Bool.and_eq_true, Bool.not_eq_true'] at h3
  have e : s.setMe (s.me.settled (s.now s.cur.die)) = s.flushed := rfl
  have h4' : (!guardTrue s.flushed.me (ctlOf i) && !isSel i) = false := by
    simp only [acts] at h4
    revert h4
    cases guardTrue s.flushed.me (ctlOf i) <;> cases isSel i <;> simp
  have h2' : (!modeOk s.flushed (sigOf i).priv) = false := by simpa [privileged] using h2
  have h5' : (!mapped s.flushed.me s.flushed.myGrp.count (sigOf i)) = false := by
    have : mapped s.flushed.me s.myGrp.count (sigOf i) = true := h5
    rw [State.flushed_myGrp, this]; rfl
  have h6' : waitsFor s.flushed.me i = false := h6
  have h7' : (s.flushed.myGrp.strict && tooSoon s.flushed.me i) = false := h7
  have h3' : (s.flushed.myGrp.strict && (gatePreds i).any fun n => s.flushed.me.pend.any fun p => p.preds.any fun r => r.1 == n) = false :=
    h3.2
  unfold laneRes
  simp only [e, h2', h3.1, h3', h4', h5', h6', h7', Bool.false_eq_true, if_false]

theorem issue_of_issues {i : Instr} {s : State} (h : issues i s = true) (body : State → Res) :
    issue i s body = settle i (body s.flushed) := by
  have h1 : s.myGrp.shadow ≠ 1 := by
    simp only [issues, Bool.and_eq_true, bne_iff_ne, ne_eq] at h
    exact h.1.1.1.1.1.1
  rw [issue, if_neg h1, laneRes_of_issues h]

theorem run_of_issues {i : Instr} {s : State} (h : issues i s = true) (body : State → Res) :
    run i s body = .next (settle i (body s.flushed)).endIssue := by
  rw [run, issue_of_issues h]

/-! ### The end of an issue -/

/-- What one thread's instruction kept between its issues, dropped. -/
def dropPort (s : State) (t : ThreadId) : State :=
  if (s.thr t).keeps then s.setThr t (s.thr t).noPort else s

theorem dropPort_cur (s : State) (t : ThreadId) : (dropPort s t).cur = s.cur := by unfold dropPort; split <;> rfl

theorem dropPort_thr (s : State) (t u : ThreadId) :
    (dropPort s t).thr u = if t = u then (s.thr u).noPort else s.thr u := by
  unfold dropPort
  split
  · by_cases e : t = u
    · subst e; simp
    · simp [e, State.thr_setThr_ne _ _ e]
  · rename_i hp
    by_cases e : t = u
    · subst e
      have h : ((s.thr t).port = none ∧ (s.thr t).mwaitBy = none) ∧ (s.thr t).issued = none := by simpa [Thread.keeps] using hp
      rw [if_pos rfl]
      cases hx : s.thr t
      rw [hx] at h
      simp only at h
      simp only [Thread.noPort, h.1.1, h.1.2, h.2]
    · simp [e]

theorem dropPort_rest (s : State) (t : ThreadId) : ∃ m, dropPort s t = { s with threads := m } := by
  unfold dropPort; split
  · exact ⟨_, rfl⟩
  · exact ⟨s.threads, rfl⟩

theorem sameThread_self (t : ThreadId) : sameThread t t = true := by simp [sameThread]

/-- The end of an issue whose thread neither waits nor is parked: what reads had brought for it is gone, and nothing else. -/
theorem State.endIssue_spec {s : State} (h : s.me.status = .ready) :
    s.endIssue.me = s.me.noPort ∧ OthersSame s s.endIssue ∧ SameRest s s.endIssue := by
  have e : s.endIssue = { dropPort (dropPort s s.cur) { (dropPort s s.cur).cur with sh := true } with
      syncBuf := (dropPort (dropPort s s.cur) { (dropPort s s.cur).cur with sh := true }).syncBuf.filter
        (fun e => e.1 != .thread (dropPort (dropPort s s.cur) { (dropPort s s.cur).cur with sh := true }).cur)
      syncFail := (dropPort (dropPort s s.cur) { (dropPort s s.cur).cur with sh := true }).syncFail.filter
        fun e => e.1 != .thread (dropPort (dropPort s s.cur) { (dropPort s s.cur).cur with sh := true }).cur } := by
    rw [State.endIssue, h]
    have k : ({ (dropPort s s.cur).cur with sh := true } : ThreadId) = { s.cur with sh := true } := by rw [dropPort_cur]
    simp only [k]
    rfl
  have k : ({ (dropPort s s.cur).cur with sh := true } : ThreadId) = { s.cur with sh := true } := by rw [dropPort_cur]
  rw [k] at e
  have et : ∀ u, s.endIssue.thr u = (dropPort (dropPort s s.cur) { s.cur with sh := true }).thr u := by
    intro u; rw [e]; rfl
  have ec : s.endIssue.cur = s.cur := by
    rw [e]; show (dropPort (dropPort s s.cur) { s.cur with sh := true }).cur = s.cur
    rw [dropPort_cur, dropPort_cur]
  refine ⟨?_, ?_, ?_⟩
  · rw [State.me, ec, et, dropPort_thr, dropPort_thr]
    split <;> simp [State.me, Thread.noPort]
  · intro u hu
    have n1 : s.cur ≠ u := by rintro rfl; rw [sameThread_self] at hu; cases hu
    have n2 : ({ s.cur with sh := true } : ThreadId) ≠ u := by
      rintro rfl; simp [sameThread] at hu
    rw [et, dropPort_thr, dropPort_thr, if_neg n2, if_neg n1]
  · obtain ⟨m, hm⟩ := dropPort_rest s s.cur
    obtain ⟨n, hn⟩ := dropPort_rest (dropPort s s.cur) { s.cur with sh := true }
    rw [e, hn, hm]
    rfl

/-- The way most instructions end: the lane goes on by sequential flow with the thread it has. -/
theorem ends_of_next {i : Instr} {s : State} {body : State → Res} {x : Thread} (h : issues i s = true)
    (hx : exec i s = run i s body) (hb : body s.flushed = .next (s.flushed.setMe x)) : Completes i s x := by
  have hs : settle i (body s.flushed) =
      s.flushed.setMe { x.flowTo (x.pc.toNat + sizeIn i) with
        status := .ready, notBefore := s.now s.cur.die + 1 + stallOf i, since := s.now s.cur.die + 1 + stallOf i } := by
    rw [hb]; simp [settle, Thread.stall]
  have hr : (settle i (body s.flushed)).me.status = .ready := by rw [hs]; simp
  obtain ⟨a, b, c⟩ := State.endIssue_spec hr
  refine ⟨_, hx.trans (run_of_issues h body), ?_, ?_, ?_⟩
  · rw [a, hs]; simp [State.goesOn, State.time, Thread.noPort]
  · intro u hu
    have hc : (settle i (body s.flushed)).cur = s.cur := by rw [hs]; rfl
    rw [b u (by rw [hc]; exact hu), hs]
    have n1 : s.cur ≠ u := by rintro rfl; rw [sameThread_self] at hu; cases hu
    exact (State.thr_setMe_ne s.flushed _ (u := u) n1).trans (State.thr_setMe_ne s _ n1)
  · unfold SameRest at *
    rw [hs] at c ⊢
    generalize (s.flushed.setMe _ : State).endIssue = t at c ⊢
    have := congrArg (fun q : State => { q with threads := s.threads, syncBuf := s.syncBuf, syncFail := s.syncFail }) c
    exact this

/-- A result in registers. -/
theorem completes_give {i : Instr} {s : State} {body : State → Res} {lat d : Nat} {rs : List Reg} {fl : BitVec 7} {may : Bool}
    (h : issues i s = true) (hx : exec i s = run i s body) (hb : body s.flushed = .next (s.flushed.give lat d rs fl may)) :
    Completes i s (s.withResult lat d rs fl may) :=
  ends_of_next h hx hb

/-- A result in a predicate. -/
theorem completes_giveP {i : Instr} {s : State} {body : State → Res} {lat n : Nat} {b : Bool} {fl : BitVec 7} {may : Bool}
    (h : issues i s = true) (hx : exec i s = run i s body) (hb : body s.flushed = .next (s.flushed.giveP lat n b fl may)) :
    Completes i s (s.withPred lat n b fl may) :=
  ends_of_next h hx hb

end Sys2Proof.Machine
end

