-- ==== Sys2Proof/Laws/Memory.lean ====
section
/-! SUPPORT. Memory: a read after a write, and the canonical form that every memory operation keeps. -/

namespace Sys2Proof.Machine

open Sys2Proof

theorem Memory.wf_cons (x : Nat) (b : Byte) (m : List Host.Cell) :
    Memory.wf ((x, b) :: m) = true ↔ b ≠ 0 ∧ (∀ e ∈ m, x < e.1) ∧ Memory.wf m = true := by
  simp [Memory.wf, and_assoc]

/-- Every cell written was there, or is the byte written. -/
theorem Memory.mem_write {m : List Host.Cell} {a : Nat} {b : Byte} {e : Host.Cell} (h : e ∈ Memory.write m a b) :
    e ∈ m ∨ e = (a, b) := by
  induction m with
  | nil => unfold Memory.write at h; split at h <;> simp_all
  | cons c m ih =>
    obtain ⟨x, c⟩ := c
    unfold Memory.write at h
    split at h
    · split at h <;> simp_all; tauto
    · split at h
      · split at h <;> simp_all; tauto
      · simp only [List.mem_cons] at h ⊢
        rcases h with h | h
        · exact .inl (.inl h)
        · rcases ih h with h | h
          · exact .inl (.inr h)
          · exact .inr h

/-- A write keeps the canonical form. -/
theorem Memory.wf_write {m : List Host.Cell} (a : Nat) (b : Byte) (h : Memory.wf m = true) : Memory.wf (Memory.write m a b) = true := by
  induction m with
  | nil =>
    unfold Memory.write
    split
    · rfl
    · simp_all [Memory.wf]
  | cons c m ih =>
    obtain ⟨x, c⟩ := c
    have ⟨hc, hx, hm⟩ := (Memory.wf_cons x c m).1 h
    unfold Memory.write
    split
    · split
      · exact h
      · rename_i h1 h2
        refine (Memory.wf_cons _ _ _).2 ⟨h2, ?_, h⟩
        intro e he
        rcases List.mem_cons.1 he with rfl | he
        · exact h1
        · exact Nat.lt_trans h1 (hx e he)
    · split
      · rename_i h1 h2
        subst h2
        split
        · exact hm
        · exact (Memory.wf_cons _ _ _).2 ⟨by assumption, hx, hm⟩
      · rename_i h1 h2
        refine (Memory.wf_cons _ _ _).2 ⟨hc, ?_, ih hm⟩
        intro e he
        rcases Memory.mem_write he with he | rfl
        · exact hx e he
        · simp only; omega

theorem Memory.wf_writeAll {m : List Host.Cell} (cs : List Host.Cell) (h : Memory.wf m = true) :
    Memory.wf (Memory.writeAll m cs) = true := by
  induction cs generalizing m with
  | nil => exact h
  | cons c cs ih => exact ih (Memory.wf_write c.1 c.2 h)

/-- Cells left out keep the canonical form. -/
theorem Memory.wf_filter {m : List Host.Cell} (p : Host.Cell → Bool) (h : Memory.wf m = true) : Memory.wf (m.filter p) = true := by
  induction m with
  | nil => rfl
  | cons c m ih =>
    obtain ⟨x, c⟩ := c
    have ⟨hc, hx, hm⟩ := (Memory.wf_cons x c m).1 h
    by_cases hp : p (x, c) = true
    · rw [List.filter_cons_of_pos hp]
      exact (Memory.wf_cons _ _ _).2 ⟨hc, fun e he => hx e (List.mem_of_mem_filter he), ih hm⟩
    · rw [List.filter_cons_of_neg hp]; exact ih hm

@[simp] theorem Memory.read_nil (a : Nat) : Memory.read [] a = 0 := rfl

/-- Nothing below the first address is listed. -/
theorem Memory.read_below {m : List Host.Cell} {a : Nat} (h : ∀ e ∈ m, a < e.1) : Memory.read m a = 0 := by
  induction m with
  | nil => rfl
  | cons c m ih =>
    obtain ⟨x, c⟩ := c
    have hx := h (x, c) (List.mem_cons_self ..)
    simp only at hx
    rw [Memory.read, if_neg (by omega)]
    exact ih fun e he => h e (List.mem_cons_of_mem _ he)

/-- A read after a write: the byte written at its address, every other byte as before. -/
theorem Memory.read_write {m : List Host.Cell} (a : Nat) (b : Byte) (x : Nat) (h : Memory.wf m = true) :
    Memory.read (Memory.write m a b) x = if a = x then b else Memory.read m x := by
  induction m with
  | nil =>
    unfold Memory.write
    split
    · simp_all
    · simp [Memory.read]
  | cons c m ih =>
    obtain ⟨y, c⟩ := c
    have ⟨hc, hy, hm⟩ := (Memory.wf_cons y c m).1 h
    unfold Memory.write
    split
    · rename_i h1
      split
      · rename_i h2
        by_cases hx : a = x
        · subst hx
          rw [if_pos rfl, h2]
          refine Memory.read_below fun e he => ?_
          rcases List.mem_cons.1 he with rfl | he
          · exact h1
          · exact Nat.lt_trans h1 (hy e he)
        · rw [if_neg hx]
      · simp [Memory.read]
    · split
      · rename_i h1 h2
        subst h2
        split
        · rename_i h3
          by_cases hx : a = x
          · subst hx; rw [if_pos rfl, h3]; exact Memory.read_below hy
          · simp [hx, Memory.read]
        · by_cases hx : a = x <;> simp [hx, Memory.read]
      · rename_i h1 h2
        simp only [Memory.read]
        by_cases hx : y = x
        · subst hx; simp [h2]
        · simp [hx, ih hm]

theorem Memory.read_writeAll_of_notMem {m : List Host.Cell} {cs : List Host.Cell} {x : Nat} (h : Memory.wf m = true)
    (hx : ∀ c ∈ cs, c.1 ≠ x) : Memory.read (Memory.writeAll m cs) x = Memory.read m x := by
  induction cs generalizing m with
  | nil => rfl
  | cons c cs ih =>
    have h1 := ih (m := Memory.write m c.1 c.2) (Memory.wf_write _ _ h) fun d hd => hx d (List.mem_cons_of_mem _ hd)
    have h2 := Memory.read_write c.1 c.2 x h
    rw [if_neg (hx c (List.mem_cons_self ..))] at h2
    exact h1.trans h2

end Sys2Proof.Machine
end

