-- ==== Sys2Proof/Tests/Slice0.lean ====
section
/-! SUPPORT. Tests: words decoded, ill-formed terms, single instructions, and a witness for the hypotheses of every statement. -/

open Sys2Proof Sys2Proof.Machine

/-! ### A small machine -/

namespace Sys2Proof.Tests

set_option Elab.async false

/-- Thread 0 of the group in slot 0 of core 0 of die 0. -/
def t0 : ThreadId := ⟨0, 0, 0, 0, false⟩
def g0 : GroupId := ⟨0, 0, 0⟩
def c0 : CoreId := ⟨0, 0⟩
def p0 : PartId := ⟨0, 0, 0⟩

/-- A ready thread whose registers hold these words. -/
def thread (rs : List (Nat × Nat)) : Thread :=
  { pc := 0x1000, regs := rs.map fun r => (r.1, { v := BitVec.ofNat 32 r.2 }), status := .ready, tsp := 0x8000 }

/-- A group of one thread with 64 registers, of a region and a context of number 1. -/
def group : Group := { num := 1, region := 1, ctx := 1, count := 64, header := 0x2000, launch := some 1, nbar := 1
                       sheaves := [(0, { dk := 5, active := true })] }

/-- A region of a live context, and a page of its first 64 KiB held at fabric address 0x10000. -/
def region : Region := { parent := 0, ctx := 1, sys := false, boundary := true, fail := false, shadow := 0, prio := 0, ovr := 0
                         budget := 0, consumed := 0, tagLo := 0, tagHi := 9, st := 0, frec := 0x9000 }
def page : TlbE := { ctx := 1, va := 0, size := 16, fa := 0x10000, perm := 7 }

/-- The package with this thread of this group, which is about to issue. -/
def withThread (g : Group) (x : Thread) : State :=
  { State.reset with
    cur := t0, threads := [(t0, x)], groups := [(g0, g)], regions := [(1, region)]
    ctxs := [(1, { root := 0x100000, area := 0x200000, cap := 16, notice := 0x300000, live := true })]
    cores := [(c0, { tlb := [page] })], nextId := 100, boot := false }

/-- The same with these registers. -/
def on (rs : List (Nat × Nat)) : State := withThread group (thread rs)

/-- Of a group in system mode. -/
def sysOn (rs : List (Nat × Nat)) : State := withThread { group with sys := true } (thread rs)

/-- What a register of the thread holds after an instruction. -/
noncomputable def after (i : Instr) (s : State) (f : State → α) : Option α :=
  match exec i s with
  | .next t => some (f t)
  | .fault _ => none
  | .refused _ => none

/-! ### Decoding: a word of every row of the opcode table, its fields written into the places the table gives them (R33, R44-R46) -/

theorem test_decode_1 :
  decode 0x022120C9 0 = .ok (.add { g := 2, s := 1 } 8 36 12) ∧
  decode 0x042120C9 0 = .ok (.sub { g := 2, s := 1 } 8 36 12) ∧
  decode 0x062120C9 0 = .ok (.mul { g := 2, s := 1 } 8 36 12) ∧
  decode 0x082120C9 0 = .ok (.mulh { g := 2, s := 1 } 8 36 12) ∧
  decode 0x0A2120C9 0 = .ok (.mulhu { g := 2, s := 1 } 8 36 12) ∧
  decode 0x0C2120C9 0 = .ok (.div { g := 2, s := 1 } 8 36 12) ∧
  decode 0x0E2120C9 0 = .ok (.divu { g := 2, s := 1 } 8 36 12) ∧
  decode 0x102120C9 0 = .ok (.rem { g := 2, s := 1 } 8 36 12) ∧
  decode 0x122120C9 0 = .ok (.remu { g := 2, s := 1 } 8 36 12) ∧
  decode 0x142120C9 0 = .ok (.and { g := 2, s := 1 } 8 36 12) ∧
  decode 0x162120C9 0 = .ok (.or { g := 2, s := 1 } 8 36 12) ∧
  decode 0x182120C9 0 = .ok (.xor { g := 2, s := 1 } 8 36 12) ∧
  decode 0x1A2120C9 0 = .ok (.andn { g := 2, s := 1 } 8 36 12) ∧
  decode 0x1C2120C9 0 = .ok (.shl { g := 2, s := 1 } 8 36 12) ∧
  decode 0x1E2120C9 0 = .ok (.shr { g := 2, s := 1 } 8 36 12) ∧
  decode 0x202120C9 0 = .ok (.sra { g := 2, s := 1 } 8 36 12) ∧
  decode 0x222120C9 0 = .ok (.rol { g := 2, s := 1 } 8 36 12) ∧
  decode 0x242120C9 0 = .ok (.min { g := 2, s := 1 } 8 36 12) ∧
  decode 0x262120C9 0 = .ok (.max { g := 2, s := 1 } 8 36 12) ∧
  decode 0x282120C9 0 = .ok (.minu { g := 2, s := 1 } 8 36 12) ∧
  decode 0x2A2120C9 0 = .ok (.maxu { g := 2, s := 1 } 8 36 12) ∧
  decode 0x2C2120C9 0 = .ok (.mad { g := 2, s := 1 } 8 36 12) ∧
  decode 0x2E2120C9 0 = .ok (.bfx { g := 2, s := 1 } 8 36 12) ∧
  decode 0x302120C9 0 = .ok (.bfi { g := 2, s := 1 } 8 36 12) ∧
  decode 0x322120C9 0 = .ok (.sel { g := 2, s := 1 } 8 36 12) ∧
  decode 0x342120C9 0 = .ok (.add64 { g := 2, s := 1 } 8 36 12) ∧
  decode 0x362120C9 0 = .ok (.sub64 { g := 2, s := 1 } 8 36 12) ∧
  decode 0x3A2120C9 0 = .ok (.slt { g := 2, s := 1 } 8 36 12) := by decide +kernel

theorem test_decode_2 :
  decode 0x3C2120C9 0 = .ok (.sltu { g := 2, s := 1 } 8 36 12) ∧
  decode 0x3E2120C9 0 = .ok (.seq { g := 2, s := 1 } 8 36 12) ∧
  decode 0x38212009 0 = .ok (.mov { g := 2, s := 1 } 8 36) ∧
  decode 0x38212019 0 = .ok (.not { g := 2, s := 1 } 8 36) ∧
  decode 0x38212029 0 = .ok (.neg { g := 2, s := 1 } 8 36) ∧
  decode 0x38212039 0 = .ok (.abs { g := 2, s := 1 } 8 36) ∧
  decode 0x38212049 0 = .ok (.clz { g := 2, s := 1 } 8 36) ∧
  decode 0x38212059 0 = .ok (.ctz { g := 2, s := 1 } 8 36) ∧
  decode 0x38212069 0 = .ok (.popc { g := 2, s := 1 } 8 36) ∧
  decode 0x38212079 0 = .ok (.brev { g := 2, s := 1 } 8 36) ∧
  decode 0x38212089 0 = .ok (.sext8 { g := 2, s := 1 } 8 36) ∧
  decode 0x38212099 0 = .ok (.sext16 { g := 2, s := 1 } 8 36) ∧
  decode 0x382120A9 0 = .ok (.zext8 { g := 2, s := 1 } 8 36) ∧
  decode 0x382120B9 0 = .ok (.zext16 { g := 2, s := 1 } 8 36) ∧
  decode 0x382120C9 0 = .ok (.bswap { g := 2, s := 1 } 8 36) ∧
  decode 0x382120D9 0 = .ok (.mov64 { g := 2, s := 1 } 8 36) ∧
  decode 0x40212695 0 = .ok (.addi { s := 1 } 8 36 421) ∧
  decode 0x42212695 0 = .ok (.andi { s := 1 } 8 36 421) ∧
  decode 0x44212695 0 = .ok (.ori { s := 1 } 8 36 421) ∧
  decode 0x46212695 0 = .ok (.xori { s := 1 } 8 36 421) ∧
  decode 0x48212045 0 = .ok (.shli { s := 1 } 8 36 17) ∧
  decode 0x4A212049 0 = .ok (.shri { s := 1 } 8 36 18) ∧
  decode 0x4C21204D 0 = .ok (.srai { s := 1 } 8 36 19) ∧
  decode 0x4E212695 0 = .ok (.muli { s := 1 } 8 36 421) ∧
  decode 0x50212695 0 = .ok (.slti { s := 1 } 8 36 421) ∧
  decode 0x52212695 0 = .ok (.sltui { s := 1 } 8 36 421) ∧
  decode 0x54212695 0 = .ok (.seqi { s := 1 } 8 36 421) ∧
  decode 0x56212695 0 = .ok (.mini { s := 1 } 8 36 421) := by decide +kernel

theorem test_decode_3 :
  decode 0x58212695 0 = .ok (.maxi { s := 1 } 8 36 421) ∧
  decode 0x5A22A5C3 0 = .ok (.li {} 8 173507) ∧
  decode 0x5C22A5C3 0 = .ok (.lih {} 8 173507) ∧
  decode 0x5ED520C9 0 = .ok (.cmp { g := 2, s := 1 } 6 5 36 12) ∧
  decode 0x60D52695 0 = .ok (.cmpi { s := 1 } 6 5 36 421) ∧
  decode 0x622430D9 0 = .ok (.pand { g := 2, s := 1 } 9 6 13) ∧
  decode 0x622431D9 0 = .ok (.por { g := 2, s := 1 } 9 6 13) ∧
  decode 0x622432D9 0 = .ok (.pxor { g := 2, s := 1 } 9 6 13) ∧
  decode 0x622433D9 0 = .ok (.pandn { g := 2, s := 1 } 9 6 13) ∧
  decode 0x622434D9 0 = .ok (.porn { g := 2, s := 1 } 9 6 13) ∧
  decode 0x62243509 0 = .ok (.pmv { g := 2, s := 1 } 9 6) ∧
  decode 0x62243609 0 = .ok (.pnot { g := 2, s := 1 } 9 6) ∧
  decode 0x62248709 0 = .ok (.pset { g := 2, s := 1 } 9) ∧
  decode 0x62240709 0 = .ok (.pclr { g := 2, s := 1 } 9) ∧
  decode 0x64200009 0 = .ok (.pmovToRegister { g := 2, s := 1 } 8) ∧
  decode 0x64012019 0 = .ok (.pmovFromRegister { g := 2, s := 1 } 36) ∧
  decode 0x66D9B3C5 0 = .ok (.br 6 1 635845) ∧
  decode 0x69234567 0 = .ok (.jmp 19088743) ∧
  decode 0x6B234567 0 = .ok (.call 19088743) ∧
  decode 0x6C012009 0 = .ok (.callr { g := 2, s := 1 } 36) ∧
  decode 0x6E012009 0 = .ok (.jr { g := 2, s := 1 } 36) ∧
  decode 0x70000009 0 = .ok (.nop { g := 2, s := 1 }) ∧
  decode 0x70000019 0 = .ok (.ret { g := 2, s := 1 }) ∧
  decode 0x70000029 0 = .ok (.exit { g := 2, s := 1 }) ∧
  decode 0x70000039 0 = .ok (.yield { g := 2, s := 1 }) ∧
  decode 0x70028849 0 = .ok (.trap { g := 2, s := 1 } 81) ∧
  decode 0x70000059 0 = .ok (.brk { g := 2, s := 1 }) ∧
  decode 0x70000069 0 = .ok (.eret { g := 2, s := 1 }) := by decide +kernel

theorem test_decode_4 :
  decode 0x70068879 0 = .ok (.safept { g := 2, s := 1 } 1 81) ∧
  decode 0x7003D889 0 = .ok (.win { g := 2, s := 1 } 123) ∧
  decode 0x70212099 0 = .ok (.mwait { g := 2, s := 1 } 8 36) ∧
  decode 0x702000A9 0 = .ok (.cyc { g := 2, s := 1 } 8) ∧
  decode 0x702000B9 0 = .ok (.cych { g := 2, s := 1 } 8) ∧
  decode 0x702048C9 0 = .ok (.getsr { g := 2, s := 1 } 8 9) ∧
  decode 0x701D20D9 0 = .ok (.setsr { g := 2, s := 1 } 7 36) ∧
  decode 0x72929C14 0 = .ok (.loopCnt 36 167 5) ∧
  decode 0x72929D95 0 = .ok (.loopPipe 36 167 3 5) ∧
  decode 0x721A9C16 0 = .ok (.loopWhile 6 167 5) ∧
  decode 0x74000009 0 = .ok (.lexit { g := 2, s := 1 }) ∧
  decode 0x74000019 0 = .ok (.lbrk { g := 2, s := 1 }) ∧
  decode 0x7420D029 0 = .ok (.lrd { g := 2, s := 1 } 8 6 2) ∧
  decode 0x74692039 0 = .ok (.lwr { g := 2, s := 1 } 6 2 36) ∧
  decode 0x77B21214 0 = .ok (.cap 13 1 2 36 20) ∧
  decode 0x78005809 0 = .ok (.apply { g := 2, s := 1 } 11) ∧
  decode 0x7A005809 0 = .ok (.cpin { g := 2, s := 1 } 11) ∧
  decode 0x7A005819 0 = .ok (.cdrop { g := 2, s := 1 } 11) ∧
  decode 0x7A243029 0 = .ok (.cmov { g := 2, s := 1 } 9 6) ∧
  decode 0x7A205839 0 = .ok (.cst { g := 2, s := 1 } 8 11) ∧
  decode 0x7A2D2049 0 = .ok (.cld { g := 2, s := 1 } 11 36) ∧
  decode 0x7A205859 0 = .ok (.cenv { g := 2, s := 1 } 8 11) ∧
  decode 0x7A185869 0 = .ok (.clive { g := 2, s := 1 } 6 11) ∧
  decode 0x7A212079 0 = .ok (.fref { g := 2, s := 1 } 8 36) ∧
  decode 0x7C22A809 0 = .ok (.xget { g := 2, s := 1 } 8 2 21) ∧
  decode 0x7E22A809 0 = .ok (.xput { g := 2, s := 1 } 8 2 21) ∧
  decode 0x802120CD 0 = .ok (.fadd { fzi := true, fzo := true, s := 1 } 8 36 12) ∧
  decode 0x822120CD 0 = .ok (.fsub { fzi := true, fzo := true, s := 1 } 8 36 12) := by decide +kernel

theorem test_decode_5 :
  decode 0x842120CD 0 = .ok (.fmul { fzi := true, fzo := true, s := 1 } 8 36 12) ∧
  decode 0x862120CD 0 = .ok (.fma { fzi := true, fzo := true, s := 1 } 8 36 12) ∧
  decode 0x882120CD 0 = .ok (.fnma { fzi := true, fzo := true, s := 1 } 8 36 12) ∧
  decode 0x8A2120CD 0 = .ok (.fmin { fzi := true, fzo := true, s := 1 } 8 36 12) ∧
  decode 0x8C2120CD 0 = .ok (.fmax { fzi := true, fzo := true, s := 1 } 8 36 12) ∧
  decode 0x8E2120CD 0 = .ok (.fdiv { fzi := true, fzo := true, s := 1 } 8 36 12) ∧
  decode 0x9021200D 0 = .ok (.fsqrt { fzi := true, fzo := true, s := 1 } 8 36) ∧
  decode 0x9221200D 0 = .ok (.fabs { fzi := true, fzo := true, s := 1 } 8 36) ∧
  decode 0x9221201D 0 = .ok (.fneg { fzi := true, fzo := true, s := 1 } 8 36) ∧
  decode 0x9221202D 0 = .ok (.frcp { fzi := true, fzo := true, s := 1 } 8 36) ∧
  decode 0x9221203D 0 = .ok (.frsq { fzi := true, fzo := true, s := 1 } 8 36) ∧
  decode 0x9221204D 0 = .ok (.fexp2 { fzi := true, fzo := true, s := 1 } 8 36) ∧
  decode 0x9221205D 0 = .ok (.flog2 { fzi := true, fzo := true, s := 1 } 8 36) ∧
  decode 0x9221206D 0 = .ok (.fsinpi { fzi := true, fzo := true, s := 1 } 8 36) ∧
  decode 0x9221207D 0 = .ok (.fcospi { fzi := true, fzo := true, s := 1 } 8 36) ∧
  decode 0x9221208D 0 = .ok (.ftanh { fzi := true, fzo := true, s := 1 } 8 36) ∧
  decode 0x9221209D 0 = .ok (.ffloor { fzi := true, fzo := true, s := 1 } 8 36) ∧
  decode 0x922120AD 0 = .ok (.fceil { fzi := true, fzo := true, s := 1 } 8 36) ∧
  decode 0x922120BD 0 = .ok (.ftrunc { fzi := true, fzo := true, s := 1 } 8 36) ∧
  decode 0x922120CD 0 = .ok (.frint { fzi := true, fzo := true, s := 1 } 8 36) ∧
  decode 0x922120DD 0 = .ok (.fclass { fzi := true, fzo := true, s := 1 } 8 36) ∧
  decode 0x9421200D 0 = .ok (.fcvtF32I32 { fzi := true, fzo := true, s := 1 } 8 36) ∧
  decode 0x9421201D 0 = .ok (.fcvtF32Ui32 { fzi := true, fzo := true, s := 1 } 8 36) ∧
  decode 0x9421202D 0 = .ok (.fcvtI32F32 { fzi := true, fzo := true, s := 1 } 8 36) ∧
  decode 0x9421203D 0 = .ok (.fcvtI32rF32 { fzi := true, fzo := true, s := 1 } 8 36) ∧
  decode 0x9421204D 0 = .ok (.fcvtUi32F32 { fzi := true, fzo := true, s := 1 } 8 36) ∧
  decode 0x9421205D 0 = .ok (.fcvtF16F32 { fzi := true, fzo := true, s := 1 } 8 36) ∧
  decode 0x9421206D 0 = .ok (.fcvtF32F16 { fzi := true, fzo := true, s := 1 } 8 36) := by decide +kernel

theorem test_decode_6 :
  decode 0x9421207D 0 = .ok (.fcvtBf16F32 { fzi := true, fzo := true, s := 1 } 8 36) ∧
  decode 0x9421208D 0 = .ok (.fcvtF32Bf16 { fzi := true, fzo := true, s := 1 } 8 36) ∧
  decode 0x9421209D 0 = .ok (.fcvtE4m3F32 { fzi := true, fzo := true, s := 1 } 8 36) ∧
  decode 0x942120AD 0 = .ok (.fcvtE4m3nF32 { fzi := true, fzo := true, s := 1 } 8 36) ∧
  decode 0x942120BD 0 = .ok (.fcvtE5m2F32 { fzi := true, fzo := true, s := 1 } 8 36) ∧
  decode 0x942120ED 0 = .ok (.fcvtF32E4m3 { fzi := true, fzo := true, s := 1 } 8 36 2) ∧
  decode 0x9421212D 0 = .ok (.fcvtF32E5m2 { fzi := true, fzo := true, s := 1 } 8 36 2) ∧
  decode 0x9421214D 0 = .ok (.fcvtF32F64 { fzi := true, fzo := true, s := 1 } 8 36) ∧
  decode 0x9421215D 0 = .ok (.fcvtF64F32 { fzi := true, fzo := true, s := 1 } 8 36) ∧
  decode 0x9421216D 0 = .ok (.fcvtF64I32 { fzi := true, fzo := true, s := 1 } 8 36) ∧
  decode 0x9421217D 0 = .ok (.fcvtI32F64 { fzi := true, fzo := true, s := 1 } 8 36) ∧
  decode 0x96D520CD 0 = .ok (.fcmp { fzi := true, fzo := true, s := 1 } 6 5 36 12) ∧
  decode 0x982120CD 0 = .ok (.hfma2 { fzi := true, fzo := true, s := 1 } 8 36 12) ∧
  decode 0x9A2120CD 0 = .ok (.hadd2 { fzi := true, fzo := true, s := 1 } 8 36 12) ∧
  decode 0x9C2120CD 0 = .ok (.hmul2 { fzi := true, fzo := true, s := 1 } 8 36 12) ∧
  decode 0x9E2120CD 0 = .ok (.bfma2 { fzi := true, fzo := true, s := 1 } 8 36 12) ∧
  decode 0xA02120CD 0 = .ok (.dadd { fzi := true, fzo := true, s := 1 } 8 36 12) ∧
  decode 0xA22120CD 0 = .ok (.dmul { fzi := true, fzo := true, s := 1 } 8 36 12) ∧
  decode 0xA42120CD 0 = .ok (.dfma { fzi := true, fzo := true, s := 1 } 8 36 12) ∧
  decode 0xA621200D 0 = .ok (.dsub { fzi := true, fzo := true, s := 1 } 8 36) ∧
  decode 0xA621201D 0 = .ok (.dmin { fzi := true, fzo := true, s := 1 } 8 36) ∧
  decode 0xA621202D 0 = .ok (.dmax { fzi := true, fzo := true, s := 1 } 8 36) ∧
  decode 0xA621203D 0 = .ok (.ddiv { fzi := true, fzo := true, s := 1 } 8 36) ∧
  decode 0xA621204D 0 = .ok (.dsqrt { fzi := true, fzo := true, s := 1 } 8 36) ∧
  decode 0xA621205D 0 = .ok (.dneg { fzi := true, fzo := true, s := 1 } 8 36) ∧
  decode 0xA621206D 0 = .ok (.dabs { fzi := true, fzo := true, s := 1 } 8 36) ∧
  decode 0xA82120C9 0 = .ok (.dp4 { g := 2, s := 1 } 8 36 12) ∧
  decode 0xAA2120C1 0 = .ok (.qpush { s := 1 } 8 36 12) := by decide +kernel

theorem test_decode_7 :
  decode 0xAA2120C5 0 = .ok (.qtry { s := 1 } 8 36 12) ∧
  decode 0xAA2120C9 0 = .ok (.qspawn { s := 1 } 8 36 12) ∧
  decode 0xAA21200D 0 = .ok (.qlen { s := 1 } 8 36) ∧
  decode 0xAC2120C1 0 = .ok (.ann { s := 1 } 8 36 12) ∧
  decode 0xAC212005 0 = .ok (.wdr { s := 1 } 8 36) ∧
  decode 0xAC212009 0 = .ok (.promo { s := 1 } 8 36) ∧
  decode 0xAC21200D 0 = .ok (.rqry { s := 1 } 8 36) ∧
  decode 0xAE212009 0 = .ok (.lnkpark { g := 2, s := 1 } 8 36) ∧
  decode 0xAE212019 0 = .ok (.lnkwake { g := 2, s := 1 } 8 36) ∧
  decode 0xAE212029 0 = .ok (.lnkstat { g := 2, s := 1 } 8 36) ∧
  decode 0xAE212039 0 = .ok (.lnkdrain { g := 2, s := 1 } 8 36) ∧
  decode 0xAE212049 0 = .ok (.lnksched { g := 2, s := 1 } 8 36) ∧
  decode 0xAE200059 0 = .ok (.semacq { g := 2, s := 1 } 8) ∧
  decode 0xAE200069 0 = .ok (.semrel { g := 2, s := 1 } 8) ∧
  decode 0xAE212089 0 = .ok (.purge { g := 2, s := 1 } 8 36) ∧
  decode 0xB0212459 0 = .ok (.lb { g := 2, h := 1 } 8 36 69) ∧
  decode 0xB2212459 0 = .ok (.lbu { g := 2, h := 1 } 8 36 69) ∧
  decode 0xB4212459 0 = .ok (.lh { g := 2, h := 1 } 8 36 69) ∧
  decode 0xB6212459 0 = .ok (.lhu { g := 2, h := 1 } 8 36 69) ∧
  decode 0xB8212459 0 = .ok (.lw { g := 2, h := 1 } 8 36 69) ∧
  decode 0xBA212459 0 = .ok (.ld { g := 2, h := 1 } 8 36 69) ∧
  decode 0xBC212459 0 = .ok (.lq { g := 2, h := 1 } 8 36 69) ∧
  decode 0xBE212459 0 = .ok (.sb { g := 2, h := 1 } 8 36 69) ∧
  decode 0xC0212459 0 = .ok (.sh { g := 2, h := 1 } 8 36 69) ∧
  decode 0xC2212459 0 = .ok (.sw { g := 2, h := 1 } 8 36 69) ∧
  decode 0xC4212459 0 = .ok (.sd { g := 2, h := 1 } 8 36 69) ∧
  decode 0xC6212459 0 = .ok (.sq { g := 2, h := 1 } 8 36 69) ∧
  decode 0xC80920C1 0 = .ok (.setbase { s := 1 } 2 36 12) := by decide +kernel

theorem test_decode_8 :
  decode 0xC8092005 0 = .ok (.setidx { s := 1 } 2 36) ∧
  decode 0xC8092009 0 = .ok (.addidx { s := 1 } 2 36) ∧
  decode 0xC820100D 0 = .ok (.getidx { s := 1 } 8 2) ∧
  decode 0xCA212458 0 = .ok (.frl { g := 2 } 8 36 69) ∧
  decode 0xCC212458 0 = .ok (.frs { g := 2 } 8 36 69) ∧
  decode 0xCE212009 0 = .ok (.wload { g := 2, s := 1 } 8 36) ∧
  decode 0xCE212019 0 = .ok (.mma { g := 2, s := 1 } 8 36) ∧
  decode 0xCE212029 0 = .ok (.accx { g := 2, s := 1 } 8 36) ∧
  decode 0xCE012039 0 = .ok (.tclr { g := 2, s := 1 } 36) ∧
  decode 0xCE212049 0 = .ok (.quant2 { g := 2, s := 1 } 8 36) ∧
  decode 0xCE200059 0 = .ok (.tstat { g := 2, s := 1 } 8) ∧
  decode 0xCE212069 0 = .ok (.tdep { g := 2, s := 1 } 8 36) ∧
  decode 0xCE212079 0 = .ok (.tarv { g := 2, s := 1 } 8 36) ∧
  decode 0xCE212089 0 = .ok (.tarm { g := 2, s := 1 } 8 36) ∧
  decode 0xD02120C9 0 = .ok (.aadd { ord := 2, sc := 1 } 8 36 12) ∧
  decode 0xD22120C9 0 = .ok (.aand { ord := 2, sc := 1 } 8 36 12) ∧
  decode 0xD42120C9 0 = .ok (.aor { ord := 2, sc := 1 } 8 36 12) ∧
  decode 0xD62120C9 0 = .ok (.axor { ord := 2, sc := 1 } 8 36 12) ∧
  decode 0xD82120C9 0 = .ok (.amin { ord := 2, sc := 1 } 8 36 12) ∧
  decode 0xDA2120C9 0 = .ok (.amax { ord := 2, sc := 1 } 8 36 12) ∧
  decode 0xDC2120C9 0 = .ok (.aminu { ord := 2, sc := 1 } 8 36 12) ∧
  decode 0xDE2120C9 0 = .ok (.amaxu { ord := 2, sc := 1 } 8 36 12) ∧
  decode 0xE02120C9 0 = .ok (.aswp { ord := 2, sc := 1 } 8 36 12) ∧
  decode 0xE22120C9 0 = .ok (.acas { ord := 2, sc := 1 } 8 36 12) ∧
  decode 0xE42120C9 0 = .ok (.afadd { ord := 2, sc := 1 } 8 36 12) ∧
  decode 0xE62120C9 0 = .ok (.amaxp { ord := 2, sc := 1 } 8 36 12) ∧
  decode 0xE82120C9 0 = .ok (.aincm { ord := 2, sc := 1 } 8 36 12) ∧
  decode 0xEA5559E9 0 = .ok (.fence { g := 2, s := 1 } 21 43 7 2) := by decide +kernel

theorem test_decode_9 :
  decode 0xEC209809 0 = .ok (.barInit { g := 2, s := 1 } 8 19) ∧
  decode 0xEC009819 0 = .ok (.barArrive { g := 2, s := 1 } 19) ∧
  decode 0xEC009829 0 = .ok (.barWait { g := 2, s := 1 } 19) ∧
  decode 0xEC009839 0 = .ok (.barSync { g := 2, s := 1 } 19) ∧
  decode 0xEC209849 0 = .ok (.barArrivec { g := 2, s := 1 } 8 19) ∧
  decode 0xEC209859 0 = .ok (.barTest { g := 2, s := 1 } 8 19) ∧
  decode 0xEC009869 0 = .ok (.barLeave { g := 2, s := 1 } 19) ∧
  decode 0xEE001829 0 = .ok (.drain { g := 2, s := 1 } 3 2) ∧
  decode 0xF0243009 0 = .ok (.voteAny { g := 2, s := 1 } 9 6) ∧
  decode 0xF0243019 0 = .ok (.voteAll { g := 2, s := 1 } 9 6) ∧
  decode 0xF0203029 0 = .ok (.voteBallot { g := 2, s := 1 } 8 6) ∧
  decode 0xF0243039 0 = .ok (.voteUni { g := 2, s := 1 } 9 6) ∧
  decode 0xF0256849 0 = .ok (.voteFany { g := 2, s := 1 } 9 45) ∧
  decode 0xF0256859 0 = .ok (.voteFall { g := 2, s := 1 } 9 45) ∧
  decode 0xF0216869 0 = .ok (.voteFballot { g := 2, s := 1 } 8 45) ∧
  decode 0xF22120C1 0 = .ok (.shflIdx { s := 1 } 8 36 12) ∧
  decode 0xF22120C5 0 = .ok (.shflUp { s := 1 } 8 36 12) ∧
  decode 0xF22120C9 0 = .ok (.shflDown { s := 1 } 8 36 12) ∧
  decode 0xF22120CD 0 = .ok (.shflXor { s := 1 } 8 36 12) ∧
  decode 0xF4212009 0 = .ok (.redAdd { g := 2, s := 1 } 8 36) ∧
  decode 0xF4212019 0 = .ok (.redMin { g := 2, s := 1 } 8 36) ∧
  decode 0xF4212029 0 = .ok (.redMax { g := 2, s := 1 } 8 36) ∧
  decode 0xF4212039 0 = .ok (.redMinu { g := 2, s := 1 } 8 36) ∧
  decode 0xF4212049 0 = .ok (.redMaxu { g := 2, s := 1 } 8 36) ∧
  decode 0xF4212059 0 = .ok (.redAnd { g := 2, s := 1 } 8 36) ∧
  decode 0xF4212069 0 = .ok (.redOr { g := 2, s := 1 } 8 36) ∧
  decode 0xF4212079 0 = .ok (.redXor { g := 2, s := 1 } 8 36) ∧
  decode 0xF4212089 0 = .ok (.redFadd { g := 2, s := 1 } 8 36) := by decide +kernel

theorem test_decode_10 :
  decode 0xF4212099 0 = .ok (.redFmin { g := 2, s := 1 } 8 36) ∧
  decode 0xF42120A9 0 = .ok (.redFmax { g := 2, s := 1 } 8 36) ∧
  decode 0xF42120B9 0 = .ok (.redAdd64 { g := 2, s := 1 } 8 36) ∧
  decode 0xF6212109 0 = .ok (.scanAdd { g := 2, s := 1 } 8 36 1) ∧
  decode 0xF6212119 0 = .ok (.scanMin { g := 2, s := 1 } 8 36 1) ∧
  decode 0xF6212129 0 = .ok (.scanMax { g := 2, s := 1 } 8 36 1) ∧
  decode 0xF6212139 0 = .ok (.scanMinu { g := 2, s := 1 } 8 36 1) ∧
  decode 0xF6212149 0 = .ok (.scanMaxu { g := 2, s := 1 } 8 36 1) ∧
  decode 0xF6212159 0 = .ok (.scanAnd { g := 2, s := 1 } 8 36 1) ∧
  decode 0xF6212169 0 = .ok (.scanOr { g := 2, s := 1 } 8 36 1) ∧
  decode 0xF6212179 0 = .ok (.scanXor { g := 2, s := 1 } 8 36 1) ∧
  decode 0xF6212189 0 = .ok (.scanFadd { g := 2, s := 1 } 8 36 1) ∧
  decode 0xF6212199 0 = .ok (.scanFmin { g := 2, s := 1 } 8 36 1) ∧
  decode 0xF62121A9 0 = .ok (.scanFmax { g := 2, s := 1 } 8 36 1) ∧
  decode 0xF62121B9 0 = .ok (.scanAdd64 { g := 2, s := 1 } 8 36 1) ∧
  decode 0xF8212009 0 = .ok (.matchEq32 { g := 2, s := 1 } 8 36) ∧
  decode 0xF8212019 0 = .ok (.matchEq64 { g := 2, s := 1 } 8 36) ∧
  decode 0xF8212029 0 = .ok (.matchLeader { g := 2, s := 1 } 8 36) ∧
  decode 0xFA002009 0 = .ok (.part { g := 2, s := 1 } 4) ∧
  decode 0xFC212009 0 = .ok (.cpy { g := 2, s := 1 } 8 36) ∧
  decode 0xFC212019 0 = .ok (.cpym { g := 2, s := 1 } 8 36) ∧
  decode 0xFC212029 0 = .ok (.chain { g := 2, s := 1 } 8 36) ∧
  decode 0xFC212039 0 = .ok (.psum { g := 2, s := 1 } 8 36) ∧
  decode 0xFC212049 0 = .ok (.rsort { g := 2, s := 1 } 8 36) ∧
  decode 0xFC212059 0 = .ok (.walk { g := 2, s := 1 } 8 36) := by decide +kernel


/-- A prefix that carries one field. -/
def pfx (p : Pfx) : Ctl := { pfx := some p }

theorem test_decode_prefixed :
    decode (0x7F * 2 ^ 25 + 0x13 * 2 ^ 20) (0x01 * 2 ^ 25 + 5 * 2 ^ 18 + 6 * 2 ^ 11 + 7 * 2 ^ 4) = .ok (.add (pfx { guard5 := 0x13 }) 5 6 7) ∧
    decode (0x7F * 2 ^ 25 + 0x1ABC) (0x20 * 2 ^ 25 + 5 * 2 ^ 18 + 6 * 2 ^ 11 + 9 * 2 ^ 2) = .ok (.addi (pfx { immext := 0x1ABC }) 5 6 9) ∧
    decode (0x7F * 2 ^ 25 + 1 * 2 ^ 19 + 2 * 2 ^ 17) (0x40 * 2 ^ 25 + 5 * 2 ^ 18 + 6 * 2 ^ 11 + 7 * 2 ^ 4) =
      .ok (.fadd (pfx { nf := true, rm := 2 }) 5 6 7) ∧
    decode (0x7F * 2 ^ 25 + 1 * 2 ^ 16 + 6 * 2 ^ 13) (0x68 * 2 ^ 25 + 4 * 2 ^ 18 + 5 * 2 ^ 11 + 6 * 2 ^ 4 + 2 * 2 ^ 2) =
      .ok (.aadd { pfx := some { w64 := true, scope := 6 }, ord := 2 } 4 5 6) := by decide +kernel

/-! ### Check 2 of R47: for each of its parts an instruction that it refuses, and one that passes -/

theorem test_wf_ok : wellFormed (.add {} 5 6 7) = true ∧ wellFormed (.fence {} 0x20 0x20 7 2) = true ∧ wellFormed (.ld {} 4 5 1) = true ∧
    wellFormed (.cap 1 1 2 12 2) = true ∧ wellFormed (.cpy {} 8 112) = true := by decide +kernel

/-- R42: a prefix field before an instruction that does not take it, and a prefix before a format that takes none. -/
theorem test_wf_prefix : wellFormed (.add (pfx { nf := true }) 5 6 7) = false ∧ wellFormed (.add (pfx { rm := 1 }) 5 6 7) = false ∧
    wellFormed (.lw (pfx { w64 := true }) 5 6 7) = false ∧ wellFormed (.lw (pfx { scope := 3 }) 5 6 7) = false ∧
    wellFormed (.add (pfx { immext := 1 }) 5 6 7) = false ∧ wellFormed (.li (pfx { guard5 := 1 }) 5 6) = false ∧
    wellFormed (.fadd (pfx { nf := true, rm := 3 }) 5 6 7) = true := by decide +kernel

/-- R36, R43: two guard sources; a scope override beside a nonzero scope. -/
theorem test_wf_override : wellFormed (.add { pfx := some { guard5 := 2 }, g := 1 } 5 6 7) = false ∧
    wellFormed (.aadd { pfx := some { scope := 3 }, sc := 1 } 5 6 7) = false := by decide +kernel

/-- R33: a control field that the format does not have. -/
theorem test_wf_fields_of_format : wellFormed (.addi { g := 1 } 5 6 7) = false ∧ wellFormed (.aadd { s := 1 } 5 6 7) = false ∧
    wellFormed (.add { h := 1 } 5 6 7) = false ∧ wellFormed (.add { ord := 1 } 5 6 7) = false ∧ wellFormed (.add { sc := 1 } 5 6 7) = false ∧
    wellFormed (.add { fzi := true } 5 6 7) = false ∧ wellFormed (.add { fzo := true } 5 6 7) = false := by decide +kernel

/-- R34, R203: a register number past the window, a constant as a destination, an odd pair, a quad off its place, a tuple past x119. -/
theorem test_wf_registers : wellFormed (.add {} 5 126 7) = false ∧ wellFormed (.add {} 125 6 7) = false ∧ wellFormed (.add {} 120 125 7) = true ∧
    wellFormed (.add64 {} 5 6 8) = false ∧ wellFormed (.mov64 {} 122 6) = false ∧ wellFormed (.lq {} 6 5 0) = false ∧
    wellFormed (.cpy {} 8 113) = false ∧ wellFormed (.cenv {} 121 1) = false := by decide +kernel

/-- The instructions with limits of their own, at the first value each refuses (R46, R79, R119, R136, R153, R162, R170, R235, R250, R294). -/
theorem test_wf_own : wellFormed (.shli {} 5 6 32) = false ∧ wellFormed (.shri {} 5 6 0x1FF) = false ∧ wellFormed (.srai (pfx { immext := 1 }) 5 6 3) = false ∧
    wellFormed (.shli {} 5 6 31) = true ∧ wellFormed (.getsr {} 5 13) = false ∧ wellFormed (.setsr {} 1 5) = false ∧ wellFormed (.lwr {} 2 3 5) = false ∧
    wellFormed (.cap 1 0 15 4 2) = false ∧ wellFormed (.cap 1 0 0 4 2) = false ∧ wellFormed (.cap 1 1 3 4 2) = false ∧ wellFormed (.cap 1 1 2 5 2) = false ∧
    wellFormed (.fence {} 0 1 1 1) = false ∧ wellFormed (.fence {} 1 0 1 1) = false ∧ wellFormed (.fence {} 1 1 0 1) = false ∧
    wellFormed (.fence {} 0x20 1 6 1) = false ∧ wellFormed (.drain {} 5 0) = false ∧ wellFormed (.drain {} 0 4) = false := by decide +kernel

theorem test_wf_own_2 : wellFormed (.part {} 0) = false ∧ wellFormed (.part {} 6) = false ∧ wellFormed (.voteFany {} 1 0) = false ∧
    wellFormed (.voteFall {} 1 0) = false ∧ wellFormed (.voteFballot {} 1 0) = false ∧ wellFormed (.qpush {} 1 2 5) = false ∧
    wellFormed (.qtry {} 1 2 6) = false ∧ wellFormed (.tarv {} 1 3) = false ∧ wellFormed (.tarm {} 1 3) = false ∧ wellFormed (.frl { h := 1 } 1 2 3) = false ∧
    wellFormed (.frs { h := 2 } 1 2 3) = false ∧ wellFormed (.frameReceived 16 []) = false ∧ wellFormed (.frameReceived 0 []) = false ∧
    wellFormed (.wavelengthLock 0 8) = false ∧ wellFormed (.lossOfLock 16 0) = false ∧ wellFormed (.seldie 4) = false := by decide +kernel

/-- R32, R33, R48: words that decode to nothing. -/
theorem test_decode_illegal : decode 0 0 = .illegal 0 ∧ decode 0x01FFFFFF 0 = .illegal 0x01FFFFFF ∧
    decode (0x01 * 2 ^ 25 + 126 * 2 ^ 18) 0 = .illegal (0x01 * 2 ^ 25 + 126 * 2 ^ 18) := by decide +kernel

/-- R48, R119: the immediate of a shift beyond its nine bits stands in the prefix, which is the word reported. -/
theorem test_decode_shift_prefix : decode (0x7F * 2 ^ 25 + 1) (0x24 * 2 ^ 25 + 5 * 2 ^ 18 + 6 * 2 ^ 11 + 3 * 2 ^ 2) = .illegal (0x7F * 2 ^ 25 + 1) := by
  decide +kernel

/-! ### One instruction on a small state: the value the spec gives -/

/-- R113: the sum is modulo 2^32. -/
theorem test_add_wraps : after (.add {} 5 6 7) (on [(6, 3), (7, 0xFFFFFFFF)]) (fun t => t.me.reg 5) = some ⟨2, false⟩ := by
  decide +kernel

/-- R113: a shift takes the whole of x[b], so 32 gives 0 and 64 copies the sign. -/
theorem test_shl_32 : after (.shl {} 5 6 7) (on [(6, 3), (7, 32)]) (fun t => t.me.reg 5) = some ⟨0, false⟩ := by decide +kernel
theorem test_sra_64 : after (.sra {} 5 6 7) (on [(6, 0x80000000), (7, 64)]) (fun t => t.me.reg 5) = some ⟨0xFFFFFFFF, false⟩ := by
  decide +kernel

/-- R113: the high words of (-1) * (-1) and of (2^32 - 1)^2. -/
theorem test_mulh : after (.mulh {} 5 6 7) (on [(6, 0xFFFFFFFF), (7, 0xFFFFFFFF)]) (fun t => (t.me.flush 99).reg 5) = some ⟨0, false⟩ := by
  decide +kernel
theorem test_mulhu : after (.mulhu {} 5 6 7) (on [(6, 0xFFFFFFFF), (7, 0xFFFFFFFF)]) (fun t => (t.me.flush 99).reg 5) =
    some ⟨0xFFFFFFFE, false⟩ := by decide +kernel

/-- R113: `mad` reads its destination. -/
theorem test_mad : after (.mad {} 5 6 7) (on [(5, 1), (6, 3), (7, 4)]) (fun t => (t.me.flush 99).reg 5) = some ⟨13, false⟩ := by decide +kernel

/-- R114: the carry goes into the high word. -/
theorem test_add64 : after (.add64 {} 4 6 8) (on [(6, 0xFFFFFFFF), (8, 1)]) (fun t => ((t.me.flush 99).reg 4, (t.me.flush 99).reg 5)) =
    some (⟨0, false⟩, ⟨1, false⟩) := by decide +kernel

/-- R116: the example of the spec. -/
theorem test_bfx_signed : after (.bfx {} 5 6 7) (on [(6, 0xDEADBEEF), (7, 0x10B08)]) (fun t => (t.me.flush 99).reg 5) =
    some ⟨0xFFFFFDBE, false⟩ := by decide +kernel
theorem test_bfx_unsigned : after (.bfx {} 5 6 7) (on [(6, 0xDEADBEEF), (7, 0xB08)]) (fun t => (t.me.flush 99).reg 5) =
    some ⟨0xDBE, false⟩ := by decide +kernel

/-- R117: a false guard takes x[b]. -/
theorem test_sel_false : after (.sel { g := 1 } 5 6 7) (on [(6, 3), (7, 4)]) (fun t => (t.me.flush 99).reg 5) = some ⟨4, false⟩ := by
  decide +kernel

/-- The placed thread of a group whose header at 0x10000 has a handler at 0x10900 for cause 0x17. -/
noncomputable def placed : State :=
  let s := State.reset.seat.place 0x2000085C 4 0x900
  let s := s.setGrp g0 { s.grp g0 with header := 0x10000, handOff := 0x800 }
  s.setMe { s.me with tsp := 0x1A000 }

/-- R100, R88: `trap 77` enters the handler of cause 0x17, trappc the following instruction, trapval 77, its frame below tsp. -/
theorem test_trap : after (.trap {} 77) placed (fun t => (t.me.trapcause, t.me.trappc, t.me.trapval, t.me.pc, t.me.tsp)) =
    some (0x17, 0x10004, 77, 0x10900, 0x19FE0) := by decide +kernel

/-- R87: while the handler-state bit is set the same is a group fault. -/
theorem test_trap_in_handler : after (.trap {} 77) (placed.setMe { placed.me with handler := true }) (fun t => (t.grp g0).st) =
    some .ending := by decide +kernel

/-- R56: 1.0 + 1.0 is 2.0. -/
theorem test_fadd : after (.fadd {} 5 6 7) (on [(6, 0x3F800000), (7, 0x3F800000)]) (fun t => (t.me.flush 99).reg 5) =
    some ⟨0x40000000, false⟩ := by decide +kernel

/-- R2: a word is stored with its lowest byte at the lowest address. -/
theorem test_sw_bytes : after (.sw {} 5 6 1) (on [(5, 0x01020304), (6, 0x100)])
    (fun t => t.sendOff.net.map fun e => e.2.cells) = some [[(0x10104, 4), (0x10105, 3), (0x10106, 2), (0x10107, 1)]] := by decide +kernel

/-- R31, R113: a word of the spec's encoding table as the host hands it over. -/
theorem test_table_word : decodeTableWord 32 0x022120C9 = some (.add { g := 2, s := 1 } 8 36 12) := by decide +kernel

/-- What a machine holds after a step. -/
noncomputable def stepped (s : State) (f : State → α) : Option α :=
  match step s with
  | .next t => some (f t)
  | .fault _ => none
  | .refused _ => none

/-- R32, R87: the word 0 raises illegal instruction, which ends a group without a handler; R101: `andn` goes on at the next word. -/
theorem test_step_zero : stepped (State.reset.withFetchWord 32 0) (fun t => (t.grp g0).st) = some .ending := by decide +kernel
theorem test_step_placed : stepped (State.reset.withFetchWord 32 0x142120C9) (fun t => t.me.pc.toNat) = some 0x10004 := by decide +kernel

/-! ### Witnesses: for the hypotheses of each statement a concrete state and operands that meet them -/

/-- Registers 4 to 23 hold small numbers. -/
def some20 : List (Nat × Nat) := (List.range 20).map fun k => (4 + k, 3 * k + 1)

/-- A register is poisoned. -/
def poisoned (s : State) (n : Nat) : State := s.setMe { s.me with regs := AMap.set s.me.regs n { v := 1, p := true } }

/-- What a read, a store or a translation that can be made at once leads to. -/
def brought (r : RRes) (f : State → List (Byte × Bool) → Bool) : Bool :=
  match r with
  | .ok s bs => f s bs
  | _ => false
def storedAs (r : Res) (f : State → Bool) : Bool :=
  match r with
  | .next s => f s
  | _ => false
def translated (r : XRes) (f : State → Nat → Bool) : Bool :=
  match r with
  | .ok s fa => f s fa
  | _ => false
theorem hyp_IntegerTable : ([.add {} 5 6 7, .sub {} 5 6 7, .mul {} 5 6 7, .mulh {} 5 6 7, .mulhu {} 5 6 7, .and {} 5 6 7, .or {} 5 6 7,
    .xor {} 5 6 7, .andn {} 5 6 7, .shl {} 5 6 7, .shr {} 5 6 7, .sra {} 5 6 7, .rol {} 5 6 7, .min {} 5 6 7, .max {} 5 6 7, .minu {} 5 6 7,
    .maxu {} 5 6 7, .mad {} 5 6 7, .slt {} 5 6 7, .sltu {} 5 6 7, .seq {} 120 5 5] : List Instr).all (fun i => issues i (on some20)) = true := by
  decide +kernel

theorem hyp_WideIntegers : ([.add64 {} 4 6 8, .sub64 {} 4 6 8, .div {} 5 6 7, .divu {} 5 6 7, .rem {} 5 6 7, .remu {} 5 6 7, .bfx {} 5 6 7,
    .bfi {} 5 6 7, .sel {} 5 6 7, .mov {} 5 6, .not {} 5 6, .neg {} 5 6, .abs {} 5 6, .clz {} 5 6, .ctz {} 5 6, .popc {} 5 6, .brev {} 5 6,
    .sext8 {} 5 6, .sext16 {} 5 6, .zext8 {} 5 6, .zext16 {} 5 6, .bswap {} 5 6, .mov64 {} 4 6] : List Instr).all
      (fun i => issues i (on some20)) = true := by decide +kernel

/-- The four cases of a division: neither, a zero divisor, the overflow, and with the trap flag. -/
theorem hyp_Divisions : (let s := on [(6, 0x80000000), (7, 0xFFFFFFFF)]
    issues (.div {} 5 6 7) s = true ∧ s.myGrp.inttrap = false ∧ (s.flushed.readF 6).v = 0x80000000 ∧ (s.flushed.readF 7).v = 0xFFFFFFFF ∧
      (s.flushed.readF 8).v = 0) ∧
    issues (.div {} 5 6 7) (withThread { group with inttrap := true } (thread [(6, 1)])) = true := by decide +kernel

theorem hyp_Immediates : ([.addi {} 5 6 9, .andi {} 5 6 9, .ori {} 5 6 9, .xori {} 5 6 9, .shli {} 5 6 0, .shri {} 5 6 31, .srai {} 5 6 31,
    .muli {} 5 6 9, .slti {} 5 6 9, .sltui {} 5 6 9, .seqi {} 5 6 9, .mini {} 5 6 9, .maxi (pfx { immext := 5 }) 5 6 9, .li {} 5 9, .lih {} 5 9,
    .dp4 {} 5 6 7] : List Instr).all (fun i => issues i (on some20) && wellFormed i) = true := by decide +kernel

theorem hyp_PredicateResults : ([.cmp {} 3 2 5 6, .cmpi {} 3 2 5 6, .pand {} 1 2 3, .por {} 1 2 3, .pxor {} 1 2 3, .pandn {} 1 2 3, .porn {} 1 2 3,
    .pmv {} 1 2, .pnot {} 1 2, .pset {} 1, .pclr {} 0] : List Instr).all (fun i => issues i (on some20)) = true ∧
    issues (.cmp {} 3 2 5 6) (poisoned (on some20) 5) = true ∧ ((poisoned (on some20) 5).flushed.readF 5).p = true ∧
    issues (.cmpi {} 3 2 5 6) (poisoned (on some20) 5) = true ∧ ((on some20).flushed.readF 5).p = false := by decide +kernel

theorem hyp_PredicateImage : issues (.pmovToRegister {} 5) (on some20) = true ∧ issues (.pmovFromRegister {} 5) (on some20) = true := by
  decide +kernel

theorem hyp_RoundingIsCorrect : f16 ∈ Claims.formats ∧ f64 ∈ Claims.formats ∧ (1 : Nat) ≠ 0 := by decide

theorem hyp_FloatArithmetic : f32.decode false 0x3F800000 = .fin false 0x800000 (-23) ∧ f32.decode false 0x80000000 = .fin true 0 (-149) ∧
    (f32.decode false 0x7F800001).isSig = true ∧ (f32.decode false 0x7FC00000).isNan = true ∧ (f32.decode false 0x7FC00000).isSig = false ∧
    f32.decode false 0xFF800000 = .inf true ∧ (f32.decode false 0).isZero = true := by decide +kernel

theorem hyp_FloatInstructions : ([.fadd {} 5 6 7, .fsub {} 5 6 7, .fmul {} 5 6 7, .fma {} 5 6 7, .fnma {} 5 6 7, .fmin {} 5 6 7, .fmax {} 5 6 7,
    .fdiv {} 5 6 7, .fsqrt {} 5 6, .fabs {} 5 6, .fneg {} 5 6, .ffloor {} 5 6, .fceil {} 5 6, .ftrunc {} 5 6, .frint {} 5 6, .fclass {} 5 6,
    .hfma2 {} 5 6 7, .hadd2 {} 5 6 7, .hmul2 {} 5 6 7, .bfma2 {} 5 6 7, .dadd {} 4 6 8, .dmul {} 4 6 8, .dfma {} 4 6 8, .dsub {} 4 6, .dmin {} 4 6,
    .dmax {} 4 6, .ddiv {} 4 6, .dsqrt {} 4 6, .dneg {} 4 6, .dabs {} 4 6] : List Instr).all (fun i => issues i (on some20)) = true ∧
    (0x3F800000 : Nat) < 2 ^ f32.width := by decide +kernel

theorem hyp_FloatConversions : ([.fcvtF32I32 {} 5 6, .fcvtF32Ui32 {} 5 6, .fcvtI32F32 {} 5 6, .fcvtI32rF32 {} 5 6, .fcvtUi32F32 {} 5 6,
    .fcvtF16F32 {} 5 6, .fcvtF32F16 {} 5 6, .fcvtBf16F32 {} 5 6, .fcvtF32Bf16 {} 5 6, .fcvtE4m3F32 {} 5 8, .fcvtE4m3nF32 {} 5 8,
    .fcvtE5m2F32 {} 5 8, .fcvtF32E4m3 {} 5 6 3, .fcvtF32E5m2 {} 5 6 3, .fcvtF32F64 {} 5 6, .fcvtF64F32 {} 4 6, .fcvtF64I32 {} 4 6,
    .fcvtI32F64 {} 5 6] : List Instr).all (fun i => issues i (on some20)) = true := by decide +kernel

theorem hyp_FunctionsAndCompare : ([.frcp {} 5 6, .frsq {} 5 6, .fexp2 {} 5 6, .flog2 {} 5 6, .fsinpi {} 5 6, .fcospi {} 5 6, .ftanh {} 5 6,
    .fcmp {} 1 2 5 6] : List Instr).all (fun i => issues i (on some20)) = true ∧ issues (.fcmp {} 1 2 5 6) (poisoned (on some20) 5) = true ∧
    funCase 2 (f32.decode false 0x40400000) = none ∧ 2 ^ 23 * 255 < (0x7FC00000 : Word).toNat % 2 ^ 31 := by decide +kernel

/-- A taken and an untaken branch; a target that is a multiple of 4, one that is not, a poisoned one. -/
theorem hyp_Transfers : (let s := on [(4, 0x2000), (6, 0x2002)]
    issues (.br 0 0 5) s = true ∧ (s.flushed.me.pred 0 ^^ (0 : BitVec 1) == 1#1) = true ∧ issues (.br 0 1 5) s = true ∧ (s.flushed.me.pred 0 ^^ (1 : BitVec 1) == 1#1) = false ∧
      issues (.jmp 5) s = true ∧ issues (.jr {} 4) s = true ∧ (s.flushed.readD 4).2 = false ∧ (s.flushed.readD 4).1.toNat % 4 = 0 ∧
      issues (.jr {} 6) s = true ∧ (s.flushed.readD 6).1.toNat % 4 ≠ 0) ∧
    issues (.jr {} 4) (poisoned (on some20) 4) = true ∧ ((poisoned (on some20) 4).flushed.readD 4).2 = true := by decide +kernel


/-- This memory, word by word, at addresses of the page. -/
def State.withWordsAt (s : State) (va : Nat) (ws : List Nat) : State :=
  { s with mem := Memory.writeAll s.mem (cellsAt (0x10000 + va) (ws.flatMap (leBytes 4))) }

theorem hyp_Calls : (let s := on [(4, 0x2000)]
    issues (.call 5) s = true ∧ issues (.callr {} 4) s = true ∧ (s.flushed.readD 4).2 = false ∧ (s.flushed.readD 4).1.toNat % 4 = 0 ∧
      s.flushed.me.tsp.toNat % 16 = 0 ∧
      storedAs (s.flushed.storePiece (s.flushed.me.tsp - 16).toNat ((Claims.record s.flushed.me 0x1004).map fun b => (b, false))) (fun _ => true) = true) ∧
    issues (.call 5) (withThread group { thread [] with tsp := 8 }) = true := by decide +kernel

/-- A record of a call at tsp: return address 0x2040, no frame. -/
def returning : State := State.withWordsAt (withThread group { thread [] with level := 1 }) 0x8000 [0x2040, 0, 0, 0]

theorem hyp_Returns : (let s := returning
    issues (.ret {}) s = true ∧ s.flushed.me.anchor = none ∧ s.flushed.me.saving = none ∧ brought (s.flushed.readPiece s.flushed.me.tsp.toNat 16 0 1) (fun s1 bs =>
      !(bs.take 9).any (·.2) && leNat ((bs.take 8).map (·.1)) % 4 == 0 && decide (8 * leNat (((bs.drop 8).take 1).map (·.1)) + 8 ≤ s1.myGrp.count)) = true) ∧
    (let s := withThread { group with st := .preempting } { thread [] with level := 1, saving := some 0 }
     issues (.ret {}) s = true ∧ s.flushed.me.saving = some (s.flushed.me.level - 1) ∧ s.myGrp.st = .preempting) ∧
    issues (.ret {}) (withThread group { thread [] with tsp := 8 }) = true := by decide +kernel

/-- Safe point 0 of a group asked to leave; its save routine is at header + 0x40. -/
def saving : State := State.withWordsAt (withThread { group with st := .preempting, safeCount := 1, safeOff := 16 } (thread [])) 0x2010 [0x40, 0x80]

theorem hyp_SafePointCall : (let s := saving
    issues (.safept {} 0 0) s = true ∧ 0 < s.myGrp.safeCount ∧ brought (s.flushed.readPiece 0x2010 8 0 1) (fun s1 bs => !(bs.take 4).any (·.2) &&
      storedAs (s1.storePiece 0x7FF0 ((Claims.record s.flushed.me 0x1004).map fun b => (b, false))) fun _ => true) = true) := by decide +kernel

theorem hyp_SystemFunctions : (let s := withThread { group with safeCount := 1 } (thread [])
    issues (.nop {}) s = true ∧ issues (.yield {}) s = true ∧ issues (.safept {} 0 0) s = true ∧ s.myGrp.st ≠ .preempting ∧ s.myGrp.shadow = 0 ∧
      issues (.safept {} 0 1) s = true ∧ s.myGrp.safeCount ≤ 1 ∧ issues (.win {} 7) s = true ∧ (∀ f ∈ owned s.flushed.me, f.rot = 0) ∧
      issues (.win {} 8) s = true ∧ issues (.win {} 127) s = true ∧ issues (.cyc {} 5) s = true ∧ issues (.cych {} 5) s = true ∧ s.myGrp.count = 64) := by
  decide +kernel

theorem hyp_Traps : issues (.trap {} 9) (on []) = true ∧ issues (.brk {}) (on []) = true := by decide +kernel

/-- A load of the thread's is under way, or a store not yet acknowledged. -/
def withAcc (s : State) (k : AccKind) : State :=
  { s with accs := [(9, { owner := .thread s.cur, core := coreOf s.cur, kind := k, fa := 0x10100, len := 4, dest := [5], counted := true })] }

theorem hyp_ExitAndMonitor : (let s := on []
    issues (.exit {}) s = true ∧ s.myGrp.shadow = 0 ∧ s.cur.sh = false ∧ s.outLoads s.cur = 0) ∧
    (let s := withAcc (on []) .load
     issues (.exit {}) s = true ∧ 0 < s.outLoads s.cur) := by decide +kernel

theorem hyp_MonitorWait : (let s := State.withWordsAt (on [(4, 0x100), (6, 7), (8, 0x102)]) 0x100 [7]
    issues (.mwait {} 6 4) s = true ∧ (s.flushed.readD 4).2 = false ∧ (s.flushed.readD 4).1.toNat % 4 = 0 ∧ (s.flushed.readD 8).1.toNat % 4 ≠ 0 ∧
      (s.flushed.readF 6).v = 7 ∧ (s.flushed.readF 10).v ≠ 7 ∧
      brought (s.flushed.readPiece 0x100 4 0 1) (fun s1 bs => leNat (bs.map (·.1)) == 7 && !bs.any (·.2) && translated (s1.xlate s1.space 0x100 1) fun _ _ => true) = true) := by
  decide +kernel

/-- Flags of an earlier instruction that are still to come. -/
def flagsComing : State := withThread group { thread [] with pend := [{ due := 9, flags := 0x10, may := true }] }

theorem hyp_SpecialRegisters : (let s := on [(4, 56), (5, 57), (6, 58)]
    (∀ n ∈ ([0, 5, 7, 8, 9, 11, 12] : List (BitVec 7)), issues (.getsr {} 4 n) s = true ∧ n.toNat ≤ 12) ∧
      issues (.setsr {} 0 4) s = true ∧ issues (.setsr {} 2 4) s = true ∧ (s.flushed.readF 4).v.toNat % 8 = 0 ∧ (s.flushed.readF 4).v.toNat + 8 ≤ s.myGrp.count ∧
      (∀ f ∈ owned s.flushed.me, f.rot = 0) ∧ (s.flushed.readF 5).v.toNat % 8 ≠ 0 ∧ issues (.setsr {} 2 5) s = true ∧
      issues (.setsr {} 7 4) s = true ∧ issues (.setsr {} 8 4) s = true ∧ issues (.setsr {} 9 4) s = true ∧ issues (.setsr {} 11 4) s = true) ∧
    (let s := sysOn [(4, 9)]
     issues (.setsr {} 5 4) s = true ∧ s.flushed.effTag treeDepth s.myGrp.region = (0, 9)) ∧
    issues (.getsr {} 4 0) flagsComing = true ∧ (∃ p ∈ flagsComing.flushed.me.vpend ++ flagsComing.flushed.me.pend, p.may = true) ∧
    flagsComing.flushed.me.vpend = [] ∧ (flagsComing.flushed.me.pend.find? (·.may)).isSome = true := by
  decide +kernel

/-- An index register over registers 8 to 11, at its last place; over a place past it. -/
def indexed (k : Nat) : State := withThread group { thread some20 with ix := [(1, ⟨8, 4, BitVec.ofNat 32 k⟩)] }

theorem hyp_IndexRegisters : (let s := indexed 3
    issues (.setbase {} 2 5 6) s = true ∧ (s.flushed.readF 5).v.toNat + (s.flushed.readF 6).v.toNat ≤ s.myGrp.count ∧
      issues (.setbase {} 2 23 6) s = true ∧ s.myGrp.count < (s.flushed.readF 23).v.toNat + (s.flushed.readF 6).v.toNat ∧
      issues (.setidx {} 1 5) s = true ∧ issues (.addidx {} 1 5) s = true ∧ issues (.getidx {} 5 1) s = true ∧ issues (.xget {} 5 1 0) s = true ∧
      issues (.xput {} 5 1 0) s = true ∧ (s.flushed.me.ixr 1).idx.toInt < (s.flushed.me.ixr 1).bound.toNat ∧ .reg 11 ∉ s.flushed.me.busy ∧ s.myGrp.strict = false) ∧
    (let s := indexed 4
     s.cur.sh = false ∧ ¬(s.flushed.me.ixr 1).idx.toInt < (s.flushed.me.ixr 1).bound.toNat ∧ issues (.xget {} 5 1 0) s = true ∧ issues (.xput {} 5 1 0) s = true) := by
  decide +kernel

/-- A frame whose body is the words 0x1000 to 0x1008. -/
def frame (kind cnt : Nat) : Frame :=
  { start := 0x1000, len := 3, kind, stages := 2, rot := 0, rrb := 0, cnt := BitVec.ofNat 32 cnt, epi := 1, stop := false, pidx := 0, level := 0 }

theorem hyp_LoopDeclarations : (let s := State.withWordsAt (on [(4, 2)]) 0x1004 [0x02000000, 0x02000000]
    issues (.loopCnt 4 1 0) s = true ∧ issues (.loopPipe 4 1 2 0) s = true ∧ issues (.loopWhile 1 1 0) s = true ∧ issues (.loopCnt 5 1 0) s = true ∧
      (s.flushed.readF 4).v = 2 ∧ (s.flushed.readF 5).v = 0 ∧ s.flushed.me.loops = [] ∧ (owned s.flushed.me).head? = none ∧
      brought (s.flushed.readPiece 0x1008 4 3 4) (fun _ bs => leNat (bs.map (·.1)) / 2 ^ 25 % 2 ^ 7 != 0x7F) = true) ∧
    (let s := withThread group { thread [(4, 2)] with loops := (List.range 8).map fun _ => frame 0 3 }
     issues (.loopCnt 4 1 0) s = true ∧ 8 ≤ s.flushed.me.loops.length) ∧
    issues (.loopCnt 4 1 0) (poisoned (on []) 4) = true := by decide +kernel

theorem hyp_BackEdges : (let x : Thread := { thread [] with loops := [frame 0 3] }
    x.loops = frame 0 3 :: [] ∧ (frame 0 3).level = x.level ∧ ((frame 0 3).start + 4 * (frame 0 3).len) % 2 ^ 64 = 0x100C ∧
      (Claims.backEdge (frame 0 3) x.preds).isSome = true ∧ Claims.backEdge (frame 0 0) x.preds = none ∧ (frame 1 0).kind ≤ 2 ∧
      (Claims.backEdge (frame 1 0) x.preds).isSome = true ∧ (owned x).head? = some (frame 0 3)) := by decide +kernel

theorem hyp_FrameControl : (let s := withThread group { thread some20 with loops := [frame 0 3], handler := true }
    s.flushed.me.loops = frame 0 3 :: [] ∧ issues (.lexit {}) s = true ∧ issues (.lbrk {}) s = true ∧ s.flushed.me.loops[(0 : BitVec 3).toNat]? = some (frame 0 3) ∧
      issues (.lrd {} 4 0 0) s = true ∧ issues (.lrd {} 4 0 1) s = true ∧ issues (.lrd {} 4 0 2) s = true ∧ issues (.lrd {} 4 0 3) s = true ∧
      issues (.lwr {} 0 0 5) s = true ∧ issues (.lwr {} 0 1 30) s = true ∧ issues (.lwr {} 0 2 30) s = true ∧ (s.flushed.readF 30).v = 0 ∧
      s.flushed.me.loops.length ≤ (1 : BitVec 3).toNat ∧ issues (.lrd {} 4 1 0) s = true ∧ issues (.lwr {} 1 0 5) s = true) ∧
    (let s := on []
     issues (.lexit {}) s = true ∧ issues (.lbrk {}) s = true ∧ s.flushed.me.loops.head? = none) := by decide +kernel

/-- A group whose handler table stands at header + 0x100, with a handler for cause 3 at header + 0x500. -/
def handled (x : Thread) : State := State.withWordsAt (withThread { group with handOff := 0x100 } x) 0x210C [0x500]

theorem hyp_Exceptions : (let s := handled (thread [])
    3 < 256 ∧ 3 ∉ 0x10 :: Claims.unhandled ∧ s.me.handler = false ∧ s.myGrp.handOff ≠ 0 ∧ s.me.tsp.toNat % 16 = 0 ∧
      brought (s.readPiece (s.myGrp.header + s.myGrp.handOff + 4 * 3) 4 0 1) (fun s1 bs => leNat (bs.map (·.1)) != 0 && !bs.any (·.2) &&
        storedAs (State.storeVA 2 s1 (s.me.tsp - 32).toNat ((Claims.trapFrame s.me 3 0 0).map fun b => (b, false))) fun _ => true) = true ∧
      brought (s.readPiece (s.myGrp.header + s.myGrp.handOff + 4 * 4) 4 0 1) (fun _ bs => leNat (bs.map (·.1)) == 0 && !bs.any (·.2)) = true ∧
      4 ∉ 0x10 :: Claims.unhandled ∧ 0x14 ∈ Claims.unhandled) ∧
    (handled { thread [] with handler := true }).me.handler = true ∧ (on []).myGrp.handOff = 0 ∧
    (let s : State := { handled (thread []) with poison := [0x1210C] }
     brought (s.readPiece (s.myGrp.header + s.myGrp.handOff + 4 * 3) 4 0 1) (fun _ bs => bs.any (·.2)) = true) ∧
    (let s : State := { handled (thread []) with syncFail := [(.thread t0, 0x1210C, 0x11)] }
     (match s.readPiece (s.myGrp.header + s.myGrp.handOff + 4 * 3) 4 0 1 with | .lost _ => true | _ => false) = true) := by decide +kernel

theorem hyp_ExceptionReturn : (let s := State.withWordsAt (withThread group { thread [] with handler := true }) 0x8000 [0x10, 0, 0, 0, 0, 0, 0, 0]
    issues (.eret {}) s = true ∧ s.flushed.me.tsp.toNat % 16 = 0 ∧ s.flushed.me.anchor = none ∧ s.myGrp.shadow = 0 ∧
      brought (State.readVA 2 s.flushed s.flushed.me.tsp.toNat) (fun _ bs => !bs.any (·.2)) = true) ∧
    (thread []).wb % 8 = 0 ∧ (thread []).wb < 2048 ∧ (thread []).loops.length < 256 := by decide +kernel

theorem hyp_DecodeOfEncode : wellFormed (.add {} 5 6 7) = true ∧ isEvent (.add {} 5 6 7) = false ∧ wellFormed (.add { pfx := some { guard5 := 1 } } 5 6 7) = true ∧
    isEvent (.fmul { pfx := some { guard5 := 1 } } 5 6 7) = false := by decide +kernel

theorem hyp_EncodeOfDecode : decode (0x01 * 2 ^ 25 + 5 * 2 ^ 18 + 6 * 2 ^ 11 + 7 * 2 ^ 4) 0 = .ok (.add {} 5 6 7) ∧
    (0x01 * 2 ^ 25 + 5 * 2 ^ 18 + 6 * 2 ^ 11 + 7 * 2 ^ 4 : Nat) < 2 ^ 32 := by decide +kernel

/-- A lane about to issue the word at 0x1000. -/
def fetching (w : Nat) : State := { State.withWordsAt (on some20) 0x1000 [w, 0] with glean := [t0] }

/-- What a fetch brings. -/
def words (f : Fetched) (p : Nat → Nat → Bool) : Bool :=
  match f with
  | .ok _ w0 w1 => p w0 w1
  | _ => false

theorem hyp_StepRunsDecoded : (let s := fetching 0x02143070
    let q := Claims.lane s t0 []
    s.frozen = false ∧ s.glean = t0 :: [] ∧ ({ s with cur := t0, glean := [] } : State).me.status = .ready ∧
      ({ s with cur := t0, glean := [] } : State).canRun t0 = true ∧ q.me.raise = none ∧ q.me.impr = [] ∧ q.me.restoring = false ∧
      words q.fetch (fun w0 _ => w0 == 0x02143070) = true ∧ decode 0x02143070 0 = .ok (.add {} 5 6 7)) ∧
    ({ (withThread group { thread [] with status := .saved }) with glean := [] } : State).me.status ≠ .ready := by decide +kernel

theorem hyp_ZeroWord : (let s := fetching 0x01234567
    words (Claims.lane s t0 []).fetch (fun w0 _ => w0 == 0x01234567 && decide (w0 < 2 ^ 25)) = true ∧ s.frozen = false ∧ s.glean = t0 :: [] ∧
      ({ s with cur := t0, glean := [] } : State).me.status = .ready ∧ ({ s with cur := t0, glean := [] } : State).canRun t0 = true ∧ s.myGrp.shadow ≠ 1) := by
  decide +kernel

theorem hyp_IssueChecks : Claims.plain (.add {} 5 6 7) = true ∧ (let s := on some20
    s.myGrp.shadow ≠ 1 ∧ s.cur.sh = false ∧ privileged (.add {} 5 6 7) s = true ∧ privileged (.ann {} 4 8 12) s = false ∧
      guardReadable (.add { g := 1 } 5 6 7) s = true ∧ acts (.add { g := 1 } 5 6 7) s = false ∧ (sigOf (.add {} 5 6 7)).coll = false ∧
      inCount (.add {} 64 6 7) s = false ∧ inCount (.add {} 63 6 7) s = true ∧ issues (.add {} 5 6 7) s = true) ∧
    (let s := withThread group { thread [] with busy := [.reg 6, .pred 8] }
     scored (.add {} 5 6 7) s = true ∧ ((guardPreds (.add { g := 1 } 5 6 7)).any fun n => s.flushed.me.busy.contains (.pred n)) = true) ∧
    (let s := withThread { group with strict := true } { thread [] with pend := [{ due := 9, regs := [(6, {})], preds := [(8, true)] }] }
     tooEarly (.add {} 5 6 7) s = true ∧ ((guardPreds (.add { g := 1 } 5 6 7)).any fun n => s.flushed.me.pend.any fun p => p.preds.any fun r => r.1 == n) = true) := by
  decide +kernel

theorem hyp_Privilege : privileged (.eret {}) (on []) = false ∧ privileged (.eret {}) (withThread group { thread [] with handler := true }) = true ∧
    privileged (.setsr {} 5 4) (sysOn []) = true ∧ privileged (.setsr {} 5 4) (on []) = false ∧ privileged (.setsr {} 2 4) (on []) = true := by decide +kernel

/-- A group of two threads; thread 1 has arrived at collective `i` at the same address. -/
def two (i : Instr) (g : Group) : State :=
  let s := withThread { g with threads := 2 } (thread some20)
  { s with threads := s.threads ++ [(⟨0, 0, 0, 1, false⟩, { thread some20 with status := .collective i true })] }

/-- The deckle is met; with the other lane still ready it is not. A lane whose guard is false takes part. -/
theorem hyp_CollectivesMeet : (let i : Instr := .redAdd {} 5 6
    let s := two i group
    (sigOf i).coll = true ∧ isPart i = false ∧ s.myGrp.shadow ≠ 1 ∧ s.cur.sh = false ∧ privileged i s = true ∧ guardReadable i s = true ∧ inCount i s = true ∧
      scored i s = false ∧ tooEarly i s = false ∧ Claims.deckleMeets (Claims.arrived s i) i = true ∧ acts (.redAdd { g := 1 } 5 6) s = false ∧ isFlagVote i = false ∧
      isFlagVote (.voteFany {} 1 3) = true ∧ s.flushed.me.vpend ++ s.flushed.me.pend = []) ∧
    (let i : Instr := .voteAny {} 1 2
     let s := two (.redAdd {} 5 6) group
     let s2 : State := { s with threads := s.threads.map fun e => (e.1, if e.1 = t0 then e.2 else thread []) }
     let s1 := Claims.arrived s2 i
     (List.range (32 / 2 ^ dkOf s.myGrp 0)).all (fun j => (Claims.deckle s1 j).isEmpty || !s1.allWait (Claims.deckle s1 j)) = true) := by
  decide +kernel

def lane0 : LaneIn := ⟨0, t0, true⟩
def lane1 : LaneIn := ⟨1, ⟨0, 0, 0, 1, false⟩, false⟩

theorem hyp_CollectiveCompletion : (let ls := ([some lane0, none, some lane1] : List (Option LaneIn)).filterMap id
    let s := two (.redAdd {} 5 6) group
    (ls.map (·.t)).Nodup ∧ (∀ l ∈ ls, l.t.sh = false ∧ (s.grp (gidOf l.t)).shadow ≠ 1) ∧ ∀ l ∈ ls, l.t ≠ ⟨0, 0, 0, 2, false⟩) := by decide +kernel

theorem hyp_CollectiveResults : (let q := ([some lane0, some lane1] : List (Option LaneIn)).filterMap id |>.filter (·.active)
    (q.map (·.lid)).Nodup ∧ (∀ y ∈ q, y.lid < 32) ∧ lane0 ∈ q) ∧
    (let i : Instr := .part {} 4
     let s := two i group
     let s1 := Claims.arrived s i
     let all := s1.sheafLanes g0 0
     s.myGrp.shadow ≠ 1 ∧ s.cur.sh = false ∧ guardReadable i s = true ∧ Claims.meet s1 i all = true ∧ all.any (fun l => l.t == s.cur) = true ∧
       all.any (·.active) = true) := by decide +kernel

theorem hyp_ReductionsAndScans : ([some lane0, some lane1] : List (Option LaneIn)).length = 2 ^ 1 ∧ 1 < ([some lane0, some lane1] : List (Option LaneIn)).length := by
  decide

theorem hyp_ReadsChangeNothing : (let s := on []
    translated (s.xlate s.space 0x100 1) (fun _ _ => true) = true ∧ brought (s.readPiece 0x100 16 0 1) (fun _ _ => true) = true ∧
      brought (State.readVA 2 s 0x100) (fun _ _ => true) = true) := by decide +kernel

theorem hyp_TranslationByEntry : (let s := on []
    s.vaultMap s.space 0x100 = none ∧ tlbHit (s.core (coreOf s.cur)).tlb s.myGrp.ctx 0x100 = some page ∧ page.perm = 7 ∧ s.myGrp.sys = false ∧
      tlbHit (s.core (coreOf s.cur)).tlb s.myGrp.ctx 0xFFFF = some page) ∧
    (let e : TlbE := { page with perm := 8 }
     let s : State := { on [] with cores := [(c0, { tlb := [e] })] }
     tlbHit (s.core (coreOf s.cur)).tlb s.myGrp.ctx 0x100 = some e ∧ e.perm.getLsbD 3 = true ∧ s.myGrp.sys = false) := by decide +kernel

/-- A table of one entry at each level: at 0x100000, 0x110000 and 0x120000. -/
def tables (e0 e1 e2 : Nat) : State :=
  { on [] with mem := Memory.writeAll [] (cellsAt 0x100000 (leBytes 8 e0) ++ cellsAt 0x110000 (leBytes 8 e1) ++ cellsAt 0x120000 (leBytes 8 e2)) }

/-- A read of a table's entry that is answered at once, with its value and the state after. -/
def entry (s : State) (a : Nat) : Option (Nat × State) :=
  match s.homeRoute 0 a with
  | none => none
  | some r => match s.syncRead { s.space with path := 0 } r a 8 with
    | .ok s1 bs => if bs.any (·.2) then none else some (leNat (bs.map (·.1)), s1)
    | _ => none

/-- Three levels down to a leaf; a leaf at the second level; an entry that is not valid at each level; one that is malformed at the first. -/
theorem hyp_PageWalk : (let s := tables (0x110000 + 1) (0x120000 + 1) (0x40000 + 0xE3)
    (entry s 0x100000).map (·.1) = some 0x110001 ∧ ((entry s 0x100000).bind fun e => entry e.2 0x110000).map (·.1) = some 0x120001 ∧
      (((entry s 0x100000).bind fun e => entry e.2 0x110000).bind fun e => entry e.2 0x120000).map (·.1) = some 0x400E3) ∧
    ((entry (tables 0 0 0) 0x100000).map (·.1) = some 0 ∧ (entry (tables 3 0 0) 0x100000).map (·.1) = some 3) ∧
    ((entry (tables 0x110001 0 0) 0x100000).bind fun e => entry e.2 0x110000).map (·.1) = some 0 ∧
    ((entry (tables 0x110001 0x20000023 0) 0x100000).bind fun e => entry e.2 0x110000).map (·.1) = some 0x20000023 ∧
    (on []).homeRoute 0 0xF00000000000000 = none := by decide +kernel

theorem hyp_Loads : (let s := on [(6, 0x100), (7, 0x101)]
    (∀ i ∈ ([.lb {} 8 6 1, .lbu {} 8 6 1, .lh {} 8 6 1, .lhu {} 8 6 1, .lw {} 8 6 1, .ld {} 8 6 1, .lq {} 8 6 1] : List Instr), issues i s = true) ∧
      s.cur.sh = false ∧ Claims.address s {} 6 1 16 = 0x110 ∧ (s.flushed.readF 6).p = false ∧ s.outLoads s.cur = 0 ∧ s.flushed.me.held = [] ∧
      s.ownPending 0x110 16 = false ∧ s.heldBack = false ∧ s.flushed.me.homeRead = 0 ∧ Claims.address s {} 7 1 4 % 4 ≠ 0 ∧
      translated (s.flushed.xlate s.flushed.space 0x110 1) (fun s1 fa => fa == 0x10110 && (s1.loadRoute 0 fa).isSome && (s1.homeRoute 0 fa).isSome && !s1.ownPending 0x110 16 && !s1.loadBefore 0x110 16 fun _ => true) = true) ∧
    (let s := withAcc (on [(6, 0x100)]) .store
     s.ownPending 0 4 = true ∧ (withAcc (on []) .load).loadBefore 0 4 (fun _ => true) = true ∧
       ({ on [] with threads := [(t0, { thread [] with after := [9] })], accs := (withAcc (on []) .load).accs } : State).heldBack = true) ∧
    (let s : State := { on [(6, 0x100)] with accs := (List.range 63).map fun k => (k + 1, { owner := .thread t0, core := c0, counted := true }) }
     63 ≤ s.outLoads s.cur ∧ issues (.lw {} 8 6 1) s = true) ∧
    (let s : State := { on [(6, 0x100)] with cores := [(c0, { tlb := [{ page with perm := 0 }] })] }
     (match s.flushed.xlate s.flushed.space 0x104 1 with | .fault c => c | _ => 0) = 0x0D ∧ (match s.flushed.xlate s.flushed.space 0x104 2 with | .fault c => c | _ => 0) = 0x0D) ∧
    issues (.lw {} 8 6 1) (poisoned (on []) 6) = true ∧ issues (.sw {} 8 6 1) (poisoned (on []) 6) = true := by decide +kernel

theorem hyp_Stores : (let s := on [(6, 0x100), (7, 0x101)]
    (∀ i ∈ ([.sb {} 8 6 1, .sh {} 8 6 1, .sw {} 8 6 1, .sd {} 8 6 1, .sq {} 8 6 1] : List Instr), issues i s = true) ∧ s.cur.sh = false ∧ s.myGrp.shadow = 0 ∧
      Claims.address s {} 7 1 4 % 4 ≠ 0 ∧ s.heldBack = false ∧ (s.accs.any fun e => e.2.kind == .store) = false ∧
      translated (s.flushed.xlate s.flushed.space 0x110 2) (fun s1 fa => (s1.homeRoute 0 fa).isSome) = true) ∧
    (let s : State := { withAcc (on [(6, 0x100)]) .store with storeFull := [true] }
     (s.accs.any fun e => e.2.core == coreOf s.cur && e.2.kind == .store) = true ∧ s.storeFull.headD false = true ∧ issues (.sw {} 8 6 1) s = true) ∧
    (let s : State := { on [(6, 0x100)] with cores := [(c0, { tlb := [{ page with fa := 0xF00000000000000 }] })] }
     translated (s.flushed.xlate s.flushed.space 0x104 2) (fun s1 fa => (s1.homeRoute 0 fa).isNone) = true) := by decide +kernel

theorem hyp_Atomics : (let s := on [(6, 0x100), (7, 3), (4, 0x102)]
    (∀ i ∈ ([.aadd {} 8 6 7, .aand {} 8 6 7, .aor {} 8 6 7, .axor {} 8 6 7, .amin {} 8 6 7, .amax {} 8 6 7, .aminu {} 8 6 7, .amaxu {} 8 6 7, .aswp {} 8 6 7,
      .acas {} 8 6 7, .afadd {} 8 6 7, .amaxp {} 8 6 10, .aincm {} 8 6 7, .aadd { ord := 3, sc := 3 } 8 6 7, .aadd { ord := 1 } 8 6 7] : List Instr), issues i s = true) ∧
      s.cur.sh = false ∧ s.myGrp.shadow = 0 ∧ (s.flushed.readF 6).p = false ∧ (s.flushed.readD 10).2 = false ∧ s.outLoads s.cur = 0 ∧ s.heldBack = false ∧
      issues (.aadd {} 8 4 7) s = true ∧ (s.flushed.readF 4).v.toNat % 4 ≠ 0 ∧
      translated (s.flushed.xlate s.flushed.space 0x100 3) (fun s1 fa => (s1.homeRoute 0 fa).isSome && s1.outLoads t0 == 0 && !s1.unacked t0 [0] &&
        AMap.find s1.seqHold (s1.instanceOf 7) == none) = true) ∧
    issues (.aadd {} 8 6 7) (poisoned (on []) 6) = true := by decide +kernel

/-- Two accesses of a kind that a glean makes on one segment, of one tag or of two. -/
def access0 (k : AccKind) (o : Option AOp) : Acc := { owner := .thread t0, core := c0, kind := k, fa := 0x10100, len := 4, glean := 3, aop := o }
def access1 (k : AccKind) (o : Option AOp) (tag : BitVec 16) : Acc := { access0 k o with owner := .thread ⟨0, 0, 0, 1, false⟩, fa := 0x10104, tag }

def travelling (k : AccKind) (o : Option AOp) (tag : BitVec 16) : State :=
  { on [] with accs := [(9, access0 k o), (11, access1 k o tag)], stage := [9, 11] }

theorem hyp_PacketsLeave (k : AccKind) (o : Option AOp) (tag : BitVec 16) : (travelling k o tag).stage = [(9, access0 k o), (11, access1 k o tag)].map (·.1) ∧
    (∀ e ∈ [(9, access0 k o), (11, access1 k o tag)], AMap.find (travelling k o tag).accs e.1 = some e.2) ∧
    Claims.oneVector (access0 k o) (access1 k o tag) ∧ (access0 k o).cache = false := by
  refine ⟨rfl, ?_, by simp [Claims.oneVector, access0, access1], rfl⟩
  intro e he
  simp only [List.mem_cons, List.not_mem_nil, or_false] at he
  rcases he with rfl | rfl <;> rfl

theorem hyp_AtomicResults : (0xFFFFFFFF : Nat) < 2 ^ (8 * 4) ∧ (5 : Nat) < 2 ^ (8 * 8) ∧ (4 = 4 ∨ 4 = 8) := by decide

theorem hyp_Fences : (let s := on []
    issues (.fence {} 0x21 0x21 7 3) s = true ∧ s.cur.sh = false ∧ s.myGrp.shadow ≠ 2 ∧ s.loadsOn s.cur 0x21 = false ∧ s.writesOn s.cur 0x21 = false ∧
      AMap.find s.seqHold (s.instanceOf 7) = none) ∧
    (withAcc (on []) .load).loadsOn t0 1 = true := by decide +kernel

/-- Barrier 0 expects two arrivals. -/
def atBarrier (c : Nat) : State := { on [(6, 2), (7, 1)] with cores := [(c0, { tlb := [page], bars := [((0, 0), { e := 2, c })] })] }

theorem hyp_Barriers : (let s := atBarrier 0
    s.myGrp.shadow = 0 ∧ s.cur.sh = false ∧ (0 : BitVec 5).toNat < s.myGrp.nbar ∧ s.outLoads s.cur = 0 ∧ (s.bar g0 0).c = 0 ∧ (s.bar g0 0).e = 2 ∧
      issues (.barInit {} 6 0) s = true ∧ 1 ≤ (s.flushed.readF 6).v.toNat ∧ (s.flushed.readF 6).v.toNat ≤ 1024 ∧
      (∀ i ∈ ([.barArrive {} 0, .barSync {} 0, .barArrivec {} 7 0, .barLeave {} 0, .barWait {} 0, .barTest {} 5 0] : List Instr), issues i s = true) ∧
      s.flushed.me.arrived.getLsbD 0 = false ∧ s.flushed.me.bleft.getLsbD 0 = false ∧ s.flushed.me.bpend.getLsbD 0 = false) ∧
    (atBarrier 1).bar g0 0 = { e := 2, c := 1 } ∧ (atBarrier 2).bar g0 0 = { e := 2, c := 2 } ∧
    (let s := withThread group { thread [] with bpend := 1 }
     issues (.barWait {} 0) s = true ∧ s.flushed.me.bpend.getLsbD 0 = true) := by decide +kernel

/-! #### Closures, engines, the matrix unit, queues -/

/-- A handle of slot 3 of core 0, generation 5; of a frame with the F bit. -/
def handle (f : Nat) : Nat := 5 * 2 ^ 48 + 3 * 2 ^ 16 + f * 2 ^ 15

/-- Closure register 1 and registers 10 and 11 hold handles of that slot; the port has given `r`. -/
def closed (r : Option PortRes) : State :=
  withThread group { thread [(4, 0x2000), (6, 16), (10, 0x38000), (11, 0x50000)] with
    clos := [(1, { v := BitVec.ofNat 64 (handle 0), p := false }), (2, { v := 7, p := true })], port := r }

theorem hyp_PortOperations : (let s := closed none
    s.myGrp.shadow = 0 ∧ s.cur.sh = false ∧ s.flushed.me.port = none ∧
      AMap.find s.groups (gidOf s.cur) = some s.myGrp ∧ s.myGrp.st ≠ .retired ∧ s.myGrp.twin = none ∧ s.flushed.me.status = .ready ∧
      (∀ i ∈ ([.cap 1 0 2 6 4, .fref {} 12 6, .apply {} 1] : List Instr), s.asked i = false) ∧
      Claims.never (.apply {} 1) (handle 1) ∧ ¬Claims.never (.apply {} 1) (handle 0 + 4 * 2 ^ 32) ∧ s.inStand 4 = false ∧
      issues (.cap 1 0 2 6 4) s = true ∧ (s.flushed.readD 4).2 = false ∧ (s.flushed.readD 4).1.toNat % 4 = 0 ∧ issues (.cap 1 1 2 10 4) s = true ∧
      issues (.cap 1 1 0 0 4) s = true ∧ (s.flushed.readD 10).1.toNat / 2 ^ 32 % 2 ^ 16 / 4 = s.pkg ∧ issues (.fref {} 12 6) s = true ∧ (s.flushed.readF 6).v = 16 ∧
      s.flushed.me.tsp.toNat + 16 ≤ 2 ^ 55 ∧
      (∀ i ∈ ([.apply {} 1, .cpin {} 1, .cdrop {} 1, .cenv {} 12 1, .clive {} 3 1, .frl {} 12 10 1, .frs {} 12 10 1, .apply {} 2] : List Instr), issues i s = true) ∧
      (s.flushed.me.closReg 1).p = false ∧ (s.flushed.me.closReg 2).p = true ∧ handle 0 / 2 ^ 32 % 2 ^ 16 / 4 = s.pkg) := by unfold Claims.never; decide +kernel

/-- The answers of the port that the instructions take: two words, captured words, entry and words, base and size, none; a cause. -/
theorem hyp_ClosureInstructions : (let w (n : Nat) : Reg := ⟨BitVec.ofNat 32 n, false⟩
    (∀ i ∈ ([.cap 3 0 2 6 4, .fref {} 12 6, .cmov {} 3 1, .cst {} 12 1, .cld {} 3 10] : List Instr), issues i (closed (some (.ok [w 1, w 2]))) = true) ∧
    (∀ i ∈ ([.cpin {} 1, .cdrop {} 1, .clive {} 3 1, .cenv {} 12 1] : List Instr), issues i (closed (some (.ok [w 1]))) = true) ∧
    (∀ m ∈ dests (closed (some (.ok [w 1]))).flushed.me 12 1, m < 64 ∧ .reg m ∉ (closed (some (.ok [w 1]))).flushed.me.busy) ∧
    (let s := closed (some (.ok [w 0x2000, w 0, w 9]))
     issues (.apply {} 1) s = true ∧ s.flushed.me.wb + 1 ≤ s.myGrp.count ∧ s.flushed.me.tsp.toNat % 16 = 0 ∧
       storedAs (s.flushed.storePiece (s.flushed.me.tsp - 16).toNat ((Claims.record s.flushed.me 0x1004).map fun b => (b, false))) (fun _ => true) = true) ∧
    (let s := closed (some (.ok [w 0x100, w 0, w 16]))
     issues (.frl {} 12 10 3) s = true ∧ issues (.frs {} 12 10 3) s = true ∧ (s.flushed.readD 10).2 = false ∧ Claims.offset {} 3 = 12 ∧ Claims.offset {} 4 + 4 = 20 ∧
       storedAs (s.flushed.storePiece 0x10C (Claims.stored s 12 4)) (fun _ => true) = true) ∧
    issues (.apply {} 1) (closed (some (.bad 0x07 9))) = true) := by decide +kernel

/-- The request of an instruction stands at the port of core 0, whose slot 3 is a live closure, or a frame. -/
def ask (i : Instr) (hs : List Nat) : EnvReq := { i, handles := hs, ent := 0x2000, words := [{ v := 16 }], region := 1 }
def atPort (r : EnvReq) (st : SlotState) : State :=
  let s := closed none
  { s.setMe { s.me with status := .waiting .port } with
    cores := [(c0, { tlb := [page], envq := [.instr t0 1 r 0], env := [(3, { st, gen := 5, count := 1, n := 1, words := [{ v := 9 }] })] })] }

theorem hyp_EnvironmentPort : (let s := atPort (ask (.apply {} 1) [handle 0]) .closure
    (s.thr t0).status = .waiting .port ∧ AMap.find s.groups (gidOf t0) = some (s.grp (gidOf t0)) ∧ (s.grp (gidOf t0)).num = 1 ∧ (s.grp (gidOf t0)).st ≠ .retired ∧
      (s.grp (gidOf t0)).shadow = 0 ∧ (s.grp (gidOf t0)).twin = none ∧ (s.core c0).envq = [.instr t0 1 (ask (.apply {} 1) [handle 0]) 0] ∧
      Claims.live (s.slot c0 3) (handle 0) ∧ (s.slot c0 3).count ≤ 1 ∧ handle 0 / 2 ^ 15 % 2 ≠ 1 ∧ c0 = coreOf t0 ∧ (s.slot c0 0).st = .free) ∧
    Claims.live ((atPort (ask (.frl {} 12 10 0) [handle 1]) .anchor).slot c0 3) (handle 1) ∧ handle 1 / 2 ^ 15 % 2 = 1 ∧
    ¬Claims.live ((atPort (ask (.apply {} 1) [handle 0]) .free).slot c0 3) (handle 0) ∧ (ask (.fref {} 12 6) []).handles[0]? = none ∧
    ([3, 1027] : List Nat).Nodup := by unfold Claims.live; decide +kernel

/-- Registers 8 to 23 hold a tuple. -/
def tuple (l : List Nat) : State := on (l.zipIdx.map fun x => (8 + x.2, x.1))

def tupleOf (s : State) (n : Nat) : List Word := (List.range n).map fun k => (s.flushed.readF (8 + k)).v
def keeps (l : List (Nat × Bool) × List (Nat × Bool)) : Bool := (l.1 ++ l.2).all (·.2)

def cpyTuple : List Nat := [0x1000, 0, 0x3000, 0, 64, 0, 0, 0]

/-- A command whose limits are kept for each engine, and one whose limits are broken. -/
theorem hyp_EngineCommands :
    (let s := tuple cpyTuple
     issues (.cpy {} 4 8) s = true ∧ keeps (engineLimits 0 (tupleOf s 8)) = true ∧ issues (.cpym {} 4 8) s = true ∧ keeps (engineLimits 1 (tupleOf s 16)) = true ∧
       issues (.chain {} 4 8) s = true ∧ s.cur.sh = false ∧ s.myGrp.shadow = 0 ∧ (s.engine (.copy 0 0)).q = [] ∧ (Claims.engines {} 4 8).length = 6 ∧
       (tupleOf s 8).length = 8) ∧
    keeps (engineLimits 2 (tupleOf (tuple [0x1000, 0, 0x3000]) 16)) = true ∧
    (let s := tuple [0x1000, 0, 0x3000, 0, 4]
     issues (.psum {} 4 8) s = true ∧ keeps (engineLimits 3 (tupleOf s 7)) = true) ∧
    (let s := tuple [0, 0, 0, 0, 0, 0, 0, 0, 4, 1, 1]
     issues (.rsort {} 4 8) s = true ∧ keeps (engineLimits 4 (tupleOf s 12)) = true) ∧
    (let s := tuple [0, 0, 0, 0, 0, 0, 1]
     issues (.walk {} 4 8) s = true ∧ keeps (engineLimits 5 (tupleOf s 8)) = true) ∧
    (let s := tuple []
     issues (.cpy {} 4 8) s = true ∧ keeps (engineLimits 0 (tupleOf s 8)) = false) ∧
    issues (.cpy {} 4 8) (poisoned (tuple cpyTuple) 9) = true := by decide +kernel

/-- A command of the thread of this small machine. -/
def cmd (num fn : Nat) (tup : List Nat) : Cmd :=
  { num, fn, tup := tup.map (BitVec.ofNat 32), tag := 0, owner := t0, gnum := 1, ctx := 1, sys := false, region := 1, launch := some 1, core := c0, part := 0
    extra := [], dest := [] }

/-- The copy engine's queue is full. -/
theorem hyp_EngineFull : (let s : State := { tuple cpyTuple with copies := [(c0, { q := (List.range 64).map fun k => cmd k 0 cpyTuple })] }
    64 ≤ (s.engine (.copy 0 0)).q.length ∧ issues (.cpy {} 4 8) s = true) := by decide +kernel

theorem hyp_Drains : (let s := on []
    issues (.drain {} 0 3) s = true ∧ s.cur.sh = false ∧ s.myGrp.shadow = 0 ∧ s.drainSet 0 3 = []) ∧
    (withAcc (on []) .load).drainSet 0 3 = [9] ∧ AMap.find (withAcc (on []) .load).accs 9 ≠ none := by decide +kernel

theorem hyp_MatrixCommands : (let s := tuple []
    issues (.wload {} 4 8) s = true ∧ keeps (unitLimits 0 (tupleOf s 3)) = true ∧ issues (.tclr {} 8) s = true ∧ keeps (unitLimits 3 (tupleOf s 1)) = true ∧
      issues (.tstat {} 4) s = true ∧ (s.part (s.partOf s.cur)).unit.bound = none ∧ s.cur.sh = false ∧ s.myGrp.shadow = 0) ∧
    (issues (.mma {} 4 8) (tuple [0, 0, 2 ^ 23, 0]) = true ∧ keeps (unitLimits 1 (tupleOf (tuple [0, 0, 2 ^ 23, 0]) 4)) = true) ∧
    (issues (.accx {} 4 8) (tuple [0, 0, 0, 512]) = true ∧ keeps (unitLimits 2 (tupleOf (tuple [0, 0, 0, 512]) 4)) = true) ∧
    (issues (.quant2 {} 4 8) (tuple [0x1000, 0, 0x4000]) = true ∧ keeps (unitLimits 4 (tupleOf (tuple [0x1000, 0, 0x4000]) 7)) = true) ∧
    keeps (unitLimits 1 (tupleOf (tuple []) 4)) = false ∧
    (let s : State := { tuple [] with parts := [(p0, { unit := { bound := some 2 } })] }
     (s.part (s.partOf s.cur)).unit.bound = some 2 ∧ s.myGrp.num = 1) := by decide +kernel

theorem hyp_ArrivalCounters : (let s := tuple [511, 0x80000001]
    issues (.tarv {} 4 8) s = true ∧ issues (.tarm {} 4 8) s = true ∧ s.cur.sh = false ∧ s.myGrp.shadow = 0 ∧ s.myGrp.twin = none ∧ (s.flushed.readF 8).p = false ∧
      (s.flushed.readF 9).p = false ∧ (s.flushed.readF 8).v.toNat < 512 ∧ s.accs = []) ∧
    512 ≤ ((tuple [512, 1]).flushed.readF 8).v.toNat ∧ issues (.tarm {} 4 8) (tuple [512, 1]) = true ∧
    (∃ e ∈ (withAcc (tuple [511, 1]) .store).accs, e.2.owner = .thread t0 ∧ e.2.path = 0 ∧ e.2.kind = .store ∧ e.2.acked = false) ∧
    issues (.tarv {} 4 8) (poisoned (tuple [511, 1]) 9) = true := by decide +kernel

/-- A task for dispatch, with one input, its tuple at 0x200. -/
def registering : State := State.withWordsAt (tuple [2 * 2 ^ 26 + 2 ^ 28, 3 * 2 ^ 23 + 1, 0, 0, 0, 0x200, 0]) 0x200 [0, 0, 0x2000, 0, 1]

theorem hyp_TaskRegistration : (let s := registering
    issues (.tdep {} 4 8) s = true ∧ s.cur.sh = false ∧ s.myGrp.shadow = 0 ∧ s.myGrp.twin = none ∧ keeps (tdepLimits (tupleOf s 7)) = true ∧ taskLen 2 0 = 5 ∧
      brought (State.readWords 5 s.flushed 0x200) (fun s1 bs => !bs.any (·.2) &&
        keeps (taskLimits 2 0 ((List.range 5).map fun k => BitVec.ofNat 32 (leNat (((bs.drop (4 * k)).take 4).map (·.1))))) &&
        AMap.find (s1.core c0).tasks 0 == none) = true) ∧
    keeps (tdepLimits (tupleOf (tuple [1]) 7)) = false := by decide +kernel

/-- Registers 4 and 5 hold a push address of the page, 8 to 23 a record. -/
def pushing (a : Nat) (p : Option PortRes) : State := withThread group { thread ([(4, a), (5, 0)] ++ some20.drop 4) with port := p }

theorem hyp_QueueInstructions : (let s := pushing 0x400 none
    issues (.qpush {} 6 4 8) s = true ∧ issues (.qtry {} 6 4 8) s = true ∧ issues (.qspawn {} 6 4 24) s = true ∧ issues (.qlen {} 6 4) s = true ∧ s.cur.sh = false ∧
      s.myGrp.shadow = 0 ∧ (s.flushed.readD 4).2 = false ∧ (s.flushed.readD 4).1.toNat = 0x400 ∧ (s.flushed.readF 27).v.toNat / 2 ^ 4 = 0 ∧
      (s.flushed.me.closReg 0).p = false ∧ s.outLoads s.cur = 0 ∧ s.unacked s.cur [0] = false ∧
      translated (s.flushed.xlate s.flushed.space 0x400 2) (fun s1 fa => (s1.homeRoute 0 fa).isSome) = true ∧
      translated (s.flushed.xlate s.flushed.space 0x400 1) (fun s1 fa => (s1.homeRoute 0 fa).isSome) = true) ∧
    issues (.qpush {} 6 4 8) (pushing 0x404 none) = true ∧ issues (.qpush {} 6 4 8) (pushing 0x400 (some (.ok [{ v := 1 }]))) = true ∧
    issues (.qlen {} 6 4) (pushing 0x400 (some (.ok [{ v := 1 }]))) = true ∧ issues (.qpush {} 6 4 8) (pushing 0x400 (some (.bad 0x1C 0))) = true ∧
    0 < (withAcc (pushing 0x400 none) .load).outLoads t0 ∧ issues (.qpush {} 6 4 8) (poisoned (pushing 0x400 none) 9) = true ∧
    (let s : State := { pushing 0x400 none with cores := [(c0, { tlb := [{ page with fa := 0xF00000000000000 }] })] }
     translated (s.flushed.xlate s.flushed.space 0x400 2) (fun s1 fa => (s1.homeRoute 0 fa).isNone) = true) := by decide +kernel

/-! #### Functions of system mode -/

/-- A thread in system mode whose registers 8 to 23 hold a tuple; what has answered it. -/
def sysTuple (l : List Nat) (p : Option PortRes) : State :=
  withThread { group with sys := true } { thread (l.zipIdx.map fun x => (8 + x.2, x.1)) with port := p }

theorem hyp_placed : Claims.placed (sysTuple [] none) :=
  ⟨by decide +kernel, { group with sys := true }, by decide +kernel, by decide +kernel, by decide +kernel, by decide +kernel⟩

/-- The home of 64 KiB at 0x8000_0000 of die 0, version 4, announced by `ann`; the entry as it then stands. -/
def homeTuple : List Nat := [0x80000000, 0, 48, 4]
def homeRoute : Route :=
  { pre := 0x80000000, len := 48, cls := 0, ready := true, hold := false, ver := 4, origin := 0, cost := 0, next := 8, path := [0], st := .installed
    backing := 0x80000000, region := none, movedFrom := none }

theorem hyp_AnnounceAndWithdraw : (let s := sysTuple homeTuple none
    issues (.ann {} 4 8 120) s = true ∧ issues (.wdr {} 4 8) s = true ∧ s.flushed.me.port = none ∧ s.entry 0 0x80000000 48 0 = none ∧
      s.entriesOf 0 0x80000000 48 = [] ∧ s.tableSize 0 < 16384 ∧ s.dieNo s.cur.die = 0) ∧
    (let s : State := { sysTuple homeTuple none with dies := [(0, { routes := [homeRoute] })] }
     s.entriesOf 0 0x80000000 48 = [homeRoute] ∧ s.entry 0 0x80000000 48 0 = some homeRoute ∧ issues (.wdr {} 4 8) s = true) ∧
    issues (.ann {} 4 8 120) (sysTuple [0, 0, 61, 0] none) = true ∧ issues (.ann {} 4 8 120) (sysTuple homeTuple (some (.ok [{}]))) = true ∧
    issues (.ann {} 4 8 120) (poisoned (sysTuple homeTuple none) 9) = true := by decide +kernel

/-- Die 0 holds a ready replica of a prefix whose home is die 1. -/
def replicated : State := { sysTuple homeTuple none with
  dies := [(0, { routes := [{ homeRoute with origin := 1, next := 5, cost := 1 }, { homeRoute with cls := 1, backing := 0x90000000 }] })] }

theorem hyp_PromoteAndQuery : (let s := replicated
    issues (.promo {} 4 8) s = true ∧ s.flushed.me.port = none ∧ ((s.entriesOf 0 0x80000000 48).find? fun r => r.cls == 0 && r.st == .installed).map (·.ver) = some 4 ∧
      (s.entry 0 0x80000000 48 0).map (fun q => (q.cls, q.ready, q.st)) = some (1, true, .installed) ∧ issues (.rqry {} 4 8) s = true ∧ (s.flushed.readD 8).2 = false) ∧
    issues (.promo {} 4 8) (sysTuple homeTuple none) = true ∧ issues (.rqry {} 4 8) (poisoned (sysTuple homeTuple none) 8) = true := by decide +kernel

theorem hyp_LinkFunctions : (let s := sysTuple [3, 0x10001, 0x200, 0] none
    issues (.lnkpark {} 4 8) s = true ∧ issues (.lnkdrain {} 4 8) s = true ∧ issues (.lnkstat {} 4 8) s = true ∧ s.flushed.me.port = none) ∧
    issues (.lnkwake {} 4 8) (sysTuple [3, 1] none) = true ∧ issues (.lnkpark {} 4 8) (sysTuple [3, 0x100] none) = true ∧
    issues (.lnkdrain {} 4 8) (sysTuple [16] none) = true ∧ issues (.lnkstat {} 4 8) (sysTuple [4] none) = true ∧
    issues (.lnkdrain {} 4 8) (sysTuple [3] (some (.ok [{}]))) = true ∧ issues (.lnkdrain {} 4 8) (poisoned (sysTuple [] none) 8) = true ∧
    (let s := State.withWordsAt (sysTuple [3, 1, 0x200, 0] none) 0x200 [5, 0x10000]
     issues (.lnksched {} 4 8) s = true ∧ brought (State.readWords 2 s.flushed 0x200) (fun _ bs => !bs.any (·.2)) = true) ∧
    issues (.lnksched {} 4 8) (sysTuple [3, 64, 0x200, 0] none) = true ∧ issues (.lnksched {} 4 8) (sysTuple [3, 1, 0x200, 0] (some (.ok [{}]))) = true := by
  decide +kernel

theorem hyp_SemaphoreAndPurge : (let s := sysTuple [9] none
    issues (.semacq {} 4) s = true ∧ issues (.semrel {} 4) s = true ∧ s.sem = 0 ∧ s.flushed.me.port = none ∧ issues (.purge {} 4 8) s = true ∧
      (s.flushed.readF 8).v.toNat = 9 ∧ s.effTag treeDepth s.myGrp.region = (0, 9)) ∧
    issues (.purge {} 4 8) (sysTuple [10] none) = true ∧ issues (.purge {} 4 8) (sysTuple [65536] none) = true ∧
    issues (.purge {} 4 8) (sysTuple [9] (some (.ok [{}]))) = true ∧ issues (.purge {} 4 8) (poisoned (sysTuple [] none) 8) = true ∧
    issues (.semrel {} 4) { sysTuple [] none with sem := 0x10 } = true := by decide +kernel

/-! #### Events of threads and partitions -/

theorem hyp_ResultEvents : (let s := withThread group { thread [] with vpend := [{ regs := [(5, { v := 9 })] }], busy := [.reg 5], status := .waiting .score }
    (AMap.find s.threads t0).isSome = true ∧ (s.thr t0).vpend = [{ regs := [(5, { v := 9 })] }] ∧ (s.thr t0).status = .waiting .score) ∧
    (let s := withThread group { thread [] with status := .yielding 0 }
     (s.thr t0).status = .yielding 0 ∧ 0 ≤ s.now t0.die) := by decide +kernel

def watch : MWait := { va := 0x100, fa := 0x10100, last := { v := 7 }, limit := 0, near := true, hit := true, dest := [6], size := 4, start := 0 }

/-- Its word holds what it waits on, another value, or stands on no page. -/
theorem hyp_MwaitEvents : (let s := State.withWordsAt (withThread group { thread [] with status := .mwait watch }) 0x100 [7]
    (s.thr t0).status = .mwait watch ∧ (s.grp (gidOf t0)).shadow = 0 ∧ brought (State.readPiece { s with cur := t0 } watch.va 4 0 1)
      (fun s1 bs => leNat (bs.map (·.1)) == 7 && !bs.any (·.2) && translated (s1.xlate s1.space watch.va 1) fun _ fa => fa == 0x10100) = true ∧
      watch.limit ≤ s.now t0.die ∧ (s.grp (gidOf t0)).st ≠ .preempting) ∧
    brought (State.readPiece { State.withWordsAt (withThread group { thread [] with status := .mwait watch }) 0x100 [8] with cur := t0 } watch.va 4 0 1)
      (fun _ bs => leNat (bs.map (·.1)) != 7) = true ∧
    (let s := withThread group { thread [] with status := .mwait { watch with va := 0x10100 } }
     (match State.readPiece { s with cur := t0 } 0x10100 4 0 1 with | .stop (.stay _) => true | _ => false) = true) ∧
    ¬(({ watch with near := false } : MWait).hit = true ∧ ({ watch with near := false } : MWait).near = true) := by decide +kernel

def reported (g : BitVec 64) (x : Thread) : State := { withThread group x with reports := [{ t := t0, gnum := g, cause := 0x0F, va := 0x100 }] }

/-- The group of number 1 outside. -/
def outGroup : OutGroup := { g := { group with st := .out }, thr := [((0, false), thread [])], kind := 1, was := g0 }

theorem hyp_ImpreciseFaults : (let s := reported 1 (thread [])
    (s.reports[0]?).isSome = true ∧ s.slotOf (gidOf t0) 1 = some g0 ∧ (s.thr t0).handler = false ∧ (s.thr t0).status = .ready) ∧
    ((reported 1 { thread [] with handler := true }).thr t0).handler = true ∧
    (let s := reported 2 (thread [])
     s.slotOf (gidOf t0) 2 = none ∧ (s.outs.find? fun x => x.g.num == 2) = none) ∧
    (let s : State := { reported 1 (thread []) with groups := [], outs := [outGroup] }
     s.slotOf (gidOf t0) 1 = none ∧ (s.outs.find? fun x => x.g.num == 1) = some outGroup ∧ (AMap.getD outGroup.thr (0, false) {}).handler = false) := by
  decide +kernel

theorem hyp_PoolEviction : (let s : State := { on [] with
      dies := [(0, { cycle := 64 })], parts := [(p0, { pool := [(0x9000, 0)], tracked := (List.range 64).map fun k => (4 * k, k + 1) })] }
    (s.part p0).pool = (0x9000, 0) :: [] ∧ 0 + 64 ≤ s.now p0.die ∧ 64 ≤ (s.part p0).tracked.length ∧ ((s.part p0).tracked.map (·.1)).Nodup ∧
      (252, 64) ∈ (s.part p0).tracked ∧ ∀ f ∈ (s.part p0).tracked, f ≠ (252, 64) → f.2 < (252, 64).2) := by decide +kernel

/-- Sheaf 0 pends; sheaf 4 of the same partition is active, its thread parked. -/
def sheaves : State :=
  let s := withThread { group with threads := 160, sheaves := [(0, {}), (4, { active := true })] } (thread [])
  { s with threads := s.threads ++ [(⟨0, 0, 0, 128, false⟩, { thread [] with status := .parked })] }

theorem hyp_SheafEvents : (let s := sheaves
    ((s.pendingReady p0).find? (fun e => s.activeRoom p0 e.2.1.count)).map (fun e => (e.1, e.2.2.1)) = some (g0, 0) ∧
      (let leaves := (s.activeOn p0).filter fun e => (s.sheafThreads e.1 e.2.1 e.2.2).all fun t => s.swappable t.1 t.2
       let used := ((s.activeOn p0).map fun e => 32 * e.2.1.count).sum
       ((s.pendingReady p0).findSome? (fun (e : GroupId × Group × Nat × Nat) => (leaves.find? fun (a : GroupId × Group × Nat) => decide (used + 32 * e.2.1.count ≤ 32768 + 32 * a.2.1.count) &&
         decide (s.vaultUsed c0 + imageBytes a.2.1.count ≤ 4194304 + imageBytes e.2.1.count)).map fun a => (a, e))).map
        (fun e => (e.1.1, e.1.2.2, e.2.1, e.2.2.2.1)) = some (g0, 4, g0, 0))) := by decide +kernel

def u0 : ThreadId := ⟨0, 0, 1, 0, false⟩

/-- A block pair whose copies of thread 0 have come to their commit points. -/
def pair (a b : Thread) : State :=
  let s := withThread { group with shadow := 2, twin := some ⟨0, 0, 1⟩ } a
  { s with threads := [(t0, a), (u0, b)], groups := s.groups ++ [(⟨0, 0, 1⟩, { group with shadow := 2, twin := some g0, isShadow := true })] }

def atTwin (n k : Nat) : Thread := { thread [] with status := .waiting .twin, nstores := n, atCommit := k }

theorem hyp_SignatureCompare : (let s := pair (atTwin 1 1) (atTwin 1 1)
    let g := s.grp (gidOf t0)
    g.twin = some (gidOf u0) ∧ u0.t = t0.t ∧ u0.sh = false ∧ u0 ≠ t0 ∧ g.shadow = 2 ∧ g.isShadow = false ∧ (s.thr t0).status = .waiting .twin ∧
      (s.thr u0).status = .waiting .twin ∧ (s.thr t0).sig = (s.thr u0).sig ∧ (s.thr t0).held = [] ∧ (s.thr t0).cmds = [] ∧ (s.thr u0).cmds = [] ∧
      s.effRetry treeDepth g.region = false) ∧
    (let s := pair (atTwin 1 3) (atTwin 2 1)
     (s.thr t0).nstores < (s.thr u0).nstores ∧ (s.thr t0).atCommit = 3) ∧
    (let s := pair (atTwin 1 1) (atTwin 2 1)
     (s.thr t0).nstores ≠ (s.thr u0).nstores ∧ ¬((s.thr t0).nstores < (s.thr u0).nstores ∧ (s.thr t0).atCommit = 3)) ∧
    (let s : State := { pair (atTwin 1 1) (atTwin 2 1) with
        regions := [(1, { region with retryOn := true })], cores := [(c0, { retry := [⟨t0, thread []⟩, ⟨u0, thread []⟩] })] }
     s.effRetry treeDepth 1 = true ∧ (s.retryPoint t0).isSome = true ∧ (s.retryPoint u0).isSome = true ∧ (s.grp (gidOf t0)).retried = false) := by decide +kernel

/-! #### Events of the network -/

/-- A packet at die 0 for an address of its own, in answer to or for access 9. -/
def pkt (kind : Nat) : Pkt := { kind, plen := 28, fa := 0x10100, acc := 9 }

/-- The network holds this packet alone, as number 10; an access of the thread's is under way as number 9. -/
def moving (p : Pkt) : State := { withAcc (on []) .load with net := [(10, p)] }

def serves (s : State) (p : Pkt) (f : Route → Bool) : Bool :=
  match s.spot 10 p with
  | .serve q => f q
  | _ => false
def redirects (s : State) (p : Pkt) (b : Bool) : Bool :=
  match s.spot 10 p with
  | .redirect c => c == b
  | _ => false

theorem hyp_come : ∀ k : Fin 17, Claims.come (moving (pkt k)) 10 k (pkt k) := by unfold Claims.come; decide +kernel

def hostLine (h : List Nat) (w : List (Nat × Nat)) : HostLine := { line := 514, holders := h, waiting := w }

/-- A read that is served; one whose stamp is ahead; one of a queue's length, with and without a queue; one of an address of another die; one
on its way to it. -/
theorem hyp_ReadRequests : (let p : Pkt := { pkt 0 with want := [0x10100, 0x10101] }
    let s := moving p
    serves s p (fun q => s.readAdmits 0 q p) = true ∧ s.behind p = false ∧ p.push = false ∧ p.cacheable = false) ∧
    (let p : Pkt := { pkt 0 with stamped := true, view := [((5, 0), 1)] }
     serves (moving p) p (fun q => !(moving p).readAdmits 0 q p) = true ∧ ((moving p).die 0).holdL.length < 1024) ∧
    (let p : Pkt := { pkt 0 with push := true, plen := 58, fa := callAddr 0 }
     serves (moving p) p (fun q => (moving p).readAdmits 0 q p) = true ∧ ((moving p).queueAt 0 p.fa).isSome = true) ∧
    (let p : Pkt := { pkt 0 with push := true }
     serves (moving p) p (fun q => (moving p).readAdmits 0 q p) = true ∧ (moving p).queueAt 0 p.fa = none) ∧
    (let p : Pkt := { pkt 0 with fa := 2 ^ 48 + 0x10100 }
     redirects (moving p) p false = true ∧ ((moving p).loadRoute 0 p.fa).isSome = true) ∧
    (let p : Pkt := { pkt 0 with fa := 2 ^ 60 }
     redirects (moving p) p true = true) ∧
    (let p : Pkt := { pkt 0 with fa := 2 ^ 48 + 0x10100, dst := 1 }
     ((moving p).routeFor p).any (fun h => h.origin == 1 && h.next == 5) = true) := by decide +kernel

/-- A host, attachment 8, reads a line of the die's cacheably: recorded; recorded beside others; after a recall. -/
theorem hyp_HostReads : (let p : Pkt := { pkt 0 with src := 8, cacheable := true, want := [0x10100] }
    (∀ l ∈ [[hostLine [8] []], [hostLine [9] []], [hostLine [9, 10, 11, 12] []], []], let s : State := { moving p with dies := [(0, { hostDir := l })] }
      serves s p (fun q => s.readAdmits 0 q p) = true ∧ s.behind p = false ∧ Claims.come s 10 0 p) ∧
    0x10000 ∉ [9, 10, 11, 12] ∧ p.src ∉ [9, 10, 11, 12]) := by unfold Claims.come; decide +kernel

def store4 : List Host.Cell := [(0x10100, 1), (0x10101, 2), (0x10102, 3), (0x10103, 4)]

/-- A whole and a masked write that are applied; one whose line a host holds; one taken already; one that must wait; one of a prefix that moves; one
to a queue; one of an address of another die, and on its way to it. -/
theorem hyp_WriteRequests : (∀ k ∈ [1, 16], let p : Pkt := { pkt k with cells := store4 }
    let s := moving p
    serves s p (fun q => !s.closed 0 q p && (Claims.placedAt q p.cells).all fun c => !s.marked 0 c.1) = true ∧ s.behind p = false ∧ s.stale 0 p = false ∧
      s.writeAdmits 0 p = true ∧ s.moving 0 p.fa = none ∧ s.movedIn 0 p.fa = none ∧ p.push = false ∧ p.fwd = false ∧ (s.die 0).fwd = [] ∧ (s.die 0).hostDir = []) ∧
    ((∃ c ∈ store4, c.1 / 128 = (hostLine [8] []).line) ∧ (∃ y ∈ (hostLine [8] []).holders, y ≠ (pkt 16).src)) ∧
    (let p : Pkt := { pkt 16 with stamped := true, count := 1 }
     let s : State := { moving p with dies := [(0, { applied := [((0, 0), 1)] })] }
     s.stale 0 p = true ∧ s.behind p = false ∧ serves s p (fun _ => true) = true) ∧
    (let p : Pkt := { pkt 16 with stamped := true, count := 3 }
     (moving p).stale 0 p = false ∧ (moving p).writeAdmits 0 p = false ∧ serves (moving p) p (fun _ => true) = true) ∧
    (let m : Move := { pre := 0, len := 28, peer := 4, ver := 1, parked := [], list := [], ended := false, old := true }
     let s : State := { moving (pkt 16) with dies := [(0, { moves := [m] })] }
     s.moving 0 (pkt 16).fa = some m ∧ s.writeAdmits 0 (pkt 16) = true ∧ s.stale 0 (pkt 16) = false ∧ serves s (pkt 16) (fun _ => true) = true) ∧
    (let p : Pkt := { pkt 16 with fa := callAddr 0, plen := 58 }
     serves (moving p) p (fun q => (moving p).closed 0 q p) = true ∧ (moving p).writeAdmits 0 p = true ∧ (moving p).movedIn 0 p.fa = none) ∧
    (let p : Pkt := { pkt 16 with fa := 2 ^ 48 + 0x10100 }
     redirects (moving p) p false = true ∧ ((moving p).homeRoute 0 p.fa).isSome = true ∧
       ((moving { p with dst := 1 }).routeFor { p with dst := 1 }).any (fun h => h.origin == 1 && h.next == 5) = true) := by decide +kernel

/-- A read of a byte that a write before it, of the same thread, has yet to store. -/
theorem hyp_behind : (let p : Pkt := { pkt 16 with cells := store4, lanes := [{ acc := 9 }] }
    let r : Pkt := { pkt 0 with acc := 11, want := [0x10100], lanes := [{ acc := 11 }] }
    let a : Acc := { owner := .thread t0, core := c0, kind := .store, fa := 0x10100, len := 4, cells := store4, gnum := 1 }
    let s : State := { on [] with net := [(10, p), (12, r)], accs := [(9, a), (11, { a with kind := .load, cells := [] })] }
    s.behind r = true ∧ s.behind p = false) := by decide +kernel

def add4 (v : Nat) : AOp := { op := 0, w := 4, ord := 0, scope := 7, v, n := 0, incs := 1 }

/-- One lane, on its own location or as one merged operation; two lanes; a prefix that moves; a request at a relay point, alone and with one it may
pair with. -/
theorem hyp_AtomicRequests : (let p : Pkt := { pkt 2 with aop := some (add4 3), lanes := [{ acc := 9, v := 3 }] }
    let s := moving p
    serves s p (fun q => !s.closed 0 q p) = true ∧ s.behind p = false ∧ s.stale 0 p = false ∧ s.writeAdmits 0 p = true ∧ s.movedIn 0 p.fa = none ∧
      s.moving 0 p.fa = none ∧ p.comb = false ∧ p.sw = 0 ∧ p.relay = false ∧ p.fa = p.fa / 128 * 128 + 0 ∧ (s.byteAt p.fa).2 = false ∧
      s.purged 0 p = false ∧ s.net.filter (fun c => c.1 == 10) = [(10, p)] ∧ (State.byteAt { s with poison := [0x10100] } p.fa).2 = true) ∧
    (let p : Pkt := { pkt 2 with aop := some (add4 3), lanes := [{ acc := 9, v := 3 }, { acc := 11, v := 4, off := 4 }] }
     let s := moving p
     serves s p (fun q => !s.closed 0 q p) = true ∧ s.writeAdmits 0 p = true ∧ s.behind p = false ∧ s.stale 0 p = false) ∧
    (let p : Pkt := { pkt 2 with aop := some (add4 3), lanes := [{ acc := 9, v := 3 }] }
     let m : Move := { pre := 0, len := 28, peer := 4, ver := 1, parked := [], list := [], ended := false, old := true }
     let s : State := { moving p with dies := [(0, { moves := [m] })] }
     s.moving 0 p.fa = some m ∧ s.writeAdmits 0 p = true ∧ s.stale 0 p = false) ∧
    (∀ sw ∈ [0, 3], let p : Pkt := { pkt 2 with aop := some (add4 3), lanes := [{ acc := 9, v := 3 }], comb := true, stamped := true, count := 1, sw }
     let k : Pkt := { p with acc := 11, src := 1, origin := 1, lanes := [{ acc := 11, v := 4 }] }
     let s : State := { moving p with net := [(10, p), (12, k)] }
     AMap.find s.net 12 = some k ∧ AMap.find (s.die 0).pairs (128 * p.sw) = none ∧ pairable p k = true ∧ apart p k = true ∧ p.trail.length < 16 ∧
       [p.came, p.inp, 10] < [k.came, k.inp, 12] ∧ s.behind p = false ∧ s.behind k = false ∧ s.purged k.at_ k = false) := by decide +kernel

theorem hyp_CombiningIsExact : (add4 3).w = 4 ∧ (add4 3).op < 13 ∧ (0xFFFFFFFF : Nat) < 2 ^ (8 * (add4 3).w) := by decide

/-- The call queue of die 0, and a push of a record to it. -/
def pushed : Pkt := { pkt 1 with push := true, plen := 58, fa := callAddr 0 }

theorem hyp_Pushes : (let s := moving pushed
    serves s pushed (fun q => q.cls == 2) = true ∧ s.stale 0 pushed = false ∧ s.writeAdmits 0 pushed = true ∧
      (s.queueAt 0 pushed.fa).map (fun e => (e.1, decide (e.2.entries.length < e.2.cap), e.2.block)) = some (callKey 0, true, 0) ∧ Claims.come s 10 1 pushed) ∧
    (let p : Pkt := { pkt 1 with push := true }
     serves (moving p) p (fun q => q.cls != 2) = true ∧ p.src / 4 = (moving p).pkg ∧ ({ p with src := 8 } : Pkt).src / 4 ≠ (moving p).pkg) ∧
    (let p : Pkt := { pushed with stamped := true, count := 3 }
     (moving p).writeAdmits 0 p = false ∧ (moving p).stale 0 p = false ∧ serves (moving p) p (fun _ => true) = true) ∧
    (let a : Acc := { owner := .thread t0, core := c0, kind := .push, acked := true, fa := callAddr 0, gnum := 1 }
     let s : State := { on [] with accs := [(9, a)] }
     AMap.find s.accs 9 = some a ∧ s.local? a.home = some 0 ∧ (s.queueAt 0 a.fa).isSome = true ∧ s.issuing a = true ∧
       (s.issuing { a with gnum := 2 }) = false) := by unfold Claims.come; decide +kernel

/-- Die 0 holds a replica of the prefix at 0x8000_0000. -/
def atReplica (p : Pkt) : State := { moving p with dies := [(0, { routes := [{ homeRoute with cls := 1 }] })] }

theorem hyp_StreamEvents : (let p : Pkt := { pkt 16 with fwd := true, plen := 48, fa := 0x80000100, src := 1, origin := 1, cells := [(0x80000100, 5)] }
    let s := atReplica p
    p.fwd = true ∧ p.parkedBy = none ∧ s.local? p.dst = some 0 ∧ (s.net.all fun e => !(decide (e.1 < 10) && e.2.fwd && e.2.dst == p.dst)) = true ∧
      ((s.matching 0 p.fa).find? (fun r => r.cls == 1 && r.origin == s.dieNo 0 && r.pre == prefixOf r.len p.fa && (p.plen == 0 || r.len == p.plen))).isSome = true ∧
      (AMap.getD (s.die 0).replicas (0x80000000, 48) {}).src = none ∧ ((some 2 : Option Nat) ≠ none ∧ (some 2 : Option Nat) ≠ some p.src)) ∧
    (let p : Pkt := { pkt 16 with fwd := true, parkedBy := some 1, cells := store4 }
     let s := moving p
     (s.servingRoute 0 p).any (fun q => !s.closed 0 q p && (Claims.placedAt q p.cells).all fun c => !s.marked 0 c.1) = true) ∧
    (let p : Pkt := { pkt 15 with fwd := true, fa := 0x80000000, view := [((1, 1), 2)] }
     (((atReplica p).matching 0 p.fa).find? (fun r => r.cls == 1 && r.origin == 0)).isSome = true) ∧
    (let p : Pkt := { pkt 12 with count := 1, origin := 1 }
     p.count = View.get ((moving p).die 0).applied p.origin ((moving p).dieNo 0) + 1) ∧
    (let p : Pkt := { pkt 12 with dst := 1 }
     Claims.come (moving p) 10 12 p ∧ (moving p).local? p.dst = some 1) := by unfold Claims.come; decide +kernel

/-- What is held goes on: a read; a write; a push; one taken meanwhile. A pair's end; an update due; a recall's last and first answers, and its limit. -/
theorem hyp_HomeEvents : (let p : Pkt := { pkt 0 with want := [0x10100] }
    let s : State := { on [] with dies := [(0, { holdL := [p] })] }
    let d := s.die 0
    let out := s.setDie 0 { d with holdW := d.holdW.filter (fun y => y != p), holdL := d.holdL.filter fun y => y != p }
    (d.holdW ++ d.holdL)[0 / 4]? = some p ∧ out.purged 0 p = false ∧ out.behind p = false ∧
      (out.servingRoute 0 p).any (fun q => out.readAdmits 0 q p) = true ∧
      (out.servingRoute 0 p).any (fun q => !out.readAdmits 0 q { p with stamped := true, view := [((5, 0), 1)] }) = true) ∧
    (∀ k ∈ [pkt 16, pushed, { pkt 1 with stamped := true, count := 0 }, { pkt 1 with stamped := true, count := 5 }],
     let p : Pkt := { k with cells := store4 }
     let s : State := { on [] with dies := [(0, { holdW := [p] })] }
     let d := s.die 0
     let out := s.setDie 0 { d with holdW := d.holdW.filter (fun y => y != p), holdL := d.holdL.filter fun y => y != p }
     (d.holdW ++ d.holdL)[0 / 4]? = some p ∧ out.purged 0 p = false ∧ out.behind p = false ∧ (out.servingRoute 0 p).isSome = true ∧
       (out.stale 0 p = true ↔ p.count = 0 ∧ p.stamped = true) ∧ (out.writeAdmits 0 p = true ↔ p.stamped = false)) ∧
    (let s : State := { on [] with dies := [(0, { cycle := 4194304, pairs := [(5, { early := pkt 2, late := pkt 2, born := 0, killE := false, killL := false })] })] }
     (AMap.find (s.die 0).pairs 5).isSome = true ∧ 0 + 4194304 ≤ s.now 0) ∧
    (let s : State := { on [] with dies := [(0, { fwdDue := some 5, fwd := [((0, 28), [1])], applied := [((0, 0), 3)] })] }
     (s.die 0).fwdDue.isSome = true ∧ ((s.die 0).applied.filter fun c => View.get (AMap.getD (s.die 0).fwdSent (0, 28, 1) []) c.1.1 c.1.2 != c.2) ≠ []) ∧
    (let p : Pkt := { pkt 11 with src := 8 }
     let l := hostLine [] [(8, 0)]
     let s : State := { moving p with dies := [(0, { cycle := 4194304, hostDir := [l] })] }
     Claims.come s 10 11 p ∧ (s.die 0).hostDir.find? (fun h => h.line == p.fa / 128) = some l ∧ s.local? p.dst = some 0 ∧ l.waiting = [(p.src, 0)] ∧
       (∀ h ∈ (s.die 0).hostDir, h.line ≠ l.line → ∀ w ∈ l.writes, w ∉ h.writes) ∧
       (s.die 0).hostDir.find? (fun y => y.line == 514 && y.waiting.any fun w => decide (w.2 + 4194304 ≤ s.now 0)) = some l ∧
       (9 ≠ p.src ∧ (hostLine [] [(8, 0), (9, 0)]).waiting = [(p.src, 0), (9, 0)]) ∧ (∀ w ∈ (hostLine [] [(9, 0)]).waiting, w.1 ≠ p.src)) := by
  unfold Claims.come; decide +kernel

/-- Access 9 is the thread's, of a kind, and this packet has come back for it. -/
def answered (p : Pkt) (k : AccKind) : State := { withAcc (on []) k with
  net := [(10, p)], accs := [(9, { owner := .thread t0, core := c0, kind := k, fa := 0x10100, len := 4, dest := [5], gnum := 1, counted := true })] }

theorem hyp_back : ∀ k : Fin 15, ∀ x ∈ [AccKind.load, .store, .atomic, .push, .qlen, .sync],
    let p : Pkt := { pkt k with lanes := [{ acc := 9 }] }
    Claims.back (answered p x) 10 k p { owner := .thread t0, core := c0, kind := x, fa := 0x10100, len := 4, dest := [5], gnum := 1, counted := true } t0 { acc := 9 } := by
  unfold Claims.back Claims.home Claims.come Claims.ours; decide +kernel

def t1 : ThreadId := ⟨0, 0, 0, 1, false⟩

/-- The answer to the loads of two lanes. -/
theorem hyp_TwoLanes : (let p : Pkt := { pkt 3 with lanes := [{ acc := 9 }, { acc := 11 }] }
    let a : Acc := { owner := .thread t0, core := c0, kind := .load, fa := 0x10100, len := 4, dest := [5], gnum := 1 }
    let s : State := { answered p .load with threads := [(t0, thread []), (t1, thread [])], accs := [(9, a), (11, { a with owner := .thread t1 })] }
    Claims.home s 10 3 p ∧ t0 ≠ t1 ∧ Claims.ours s 9 a t0 ∧ Claims.ours s 11 { a with owner := .thread t1 } t1) ∧
    (let p : Pkt := { pkt 5 with lanes := [{ acc := 8 }] }
     Claims.home (answered p .load) 10 5 p ∧ AMap.find (answered p .load).accs 8 = none) := by
  unfold Claims.home Claims.come Claims.ours; decide +kernel

/-- A response with a step of its way before it; one at the switch, the router or port 2's relay point, that made its pair; one of a pair that has gone. -/
theorem hyp_ResponsesReturn : (∀ sw ∈ [0, 3], let x : Pair := { early := { pkt 2 with acc := 9, src := 0 }, late := { pkt 2 with acc := 11, src := 1 }, born := 0, killE := false, killL := true }
    let p : Pkt := { pkt 5 with aop := some (add4 3), trail := [] ++ [(0, sw, 7)] }
    let s : State := { moving p with dies := [(0, { pairs := [(128 * sw + 7, x)] })] }
    Claims.come s 10 5 p ∧ p.back = [] ∧ p.trail = [] ++ [(s.dieNo 0, sw, 7)] ∧ AMap.find (s.die 0).pairs (128 * sw + 7) = some x ∧ x.early.acc = p.acc ∧
      x.early.src = p.dst ∧ Claims.come (moving p) 10 5 p ∧ AMap.find ((moving p).die 0).pairs (128 * sw + 7) = none) ∧
    ({ pkt 5 with back := [.die 2] } : Pkt).back = .die 2 :: [] := by unfold Claims.come; decide +kernel

/-- A fourth redirect, of a load, a store and a push; a first one. -/
theorem hyp_Redirects : (pkt 6).val ≠ 0xFFFF ∧ ∀ k ∈ [AccKind.load, .store, .push],
    let p : Pkt := { pkt 6 with lanes := [{ acc := 9 }] }
    let a : Acc := { owner := .thread t0, core := c0, kind := k, redirects := 3, gnum := 1 }
    let s : State := { answered p k with accs := [(9, a)] }
    Claims.back s 10 6 p a t0 { acc := 9 } ∧ (s.accs.all fun b => b.2.owner != a.owner || decide (p.acc ≤ b.1)) = true := by
  unfold Claims.back Claims.home Claims.come Claims.ours; decide +kernel

/-- One that waits for an earlier load; an access that is to be sent again, before its time and at it. -/
theorem hyp_Resend : (let p : Pkt := { pkt 6 with lanes := [{ acc := 9 }] }
    let a : Acc := { owner := .thread t0, core := c0, kind := .load, gnum := 1, va := 0x100, len := 4 }
    let s : State := { answered p .load with accs := [(8, a), (9, a)] }
    Claims.back s 10 6 p a t0 { acc := 9 } ∧ (8, a) ∈ s.accs ∧ a.va < a.va + a.len) ∧
    (let a : Acc := { owner := .thread t0, core := c0, resend := some 256 }
     let s : State := { on [] with accs := [(9, a)], dies := [(0, { cycle := 256 })] }
     AMap.find s.accs 9 = some a ∧ 256 ≤ s.now a.core.die ∧ s.accs.filter (fun b => b.2.lead == a.lead && b.2.core == a.core) = [(9, a)] ∧
       (on []).now a.core.die < 256) := by
  unfold Claims.back Claims.home Claims.come Claims.ours; decide +kernel

theorem hyp_FailedAccesses : (∀ k ∈ [AccKind.load, .store, .atomic, .push, .qlen], let a : Acc := { owner := .thread t0, core := c0, kind := k, home := 4, gnum := 1 }
    let s : State := { on [] with accs := [(9, a)], dies := [(0, { cycle := 4194304 })] }
    Claims.ours s 9 a t0 ∧ a.home ≠ s.dieNo t0.die ∧ a.born + 4194304 ≤ s.now t0.die ∧ a.acked = false) ∧ (pkt 8).val2 = 0 ∧
    ({ pkt 8 with val2 := 0x1C } : Pkt).val2 ≠ 0 := by unfold Claims.ours; decide +kernel

/-! #### Events of engines, units, groups and launches -/

def engine (q fly : List Cmd) : State := { on [] with copies := [(c0, { q, fly })] }

theorem hyp_EngineStart : (let s := engine [cmd 1 0 cpyTuple] []
    (s.engine (.copy 0 0)).q = cmd 1 0 cpyTuple :: [] ∧ (s.engine (.copy 0 0)).fly.length < Claims.room (.copy 0 0)) ∧
    Claims.room (.copy 0 0) ≤ (((engine [cmd 1 0 cpyTuple] (List.replicate 4 (cmd 2 0 cpyTuple))).engine (.copy 0 0)).fly.filter fun k => !k.waiting).length ∧
    (∃ D ∈ destRanges (cmd 2 0 cpyTuple), ∃ r ∈ startRanges (cmd 1 0 cpyTuple), (D.1 ≤ 0x3000 ∧ 0x3000 < D.2) ∧ r.1 ≤ 0x3000 ∧ (0x3000 : Int) < r.2) ∧
    ((cmd 2 4 []).fn = 4 ∧ (cmd 2 4 []).j = 0 ∧ (cmd 2 4 []).done = false) ∧
    (∀ D ∈ destRanges (cmd 2 0 cpyTuple), ∀ r ∈ startRanges (cmd 1 0 [0x1000, 0, 0x7000, 0, 64]), D.2 ≤ r.1 ∨ r.2 ≤ D.1) := by decide +kernel

/-- A copy that raises counter 5 when it completes. -/
def doneCmd (fn : Nat) : Cmd := { cmd 1 fn [0x1000, 0, 0x3000, 0, 64, 0, 0, 2 ^ 30 + 5 * 2 ^ 21] with started := true, done := true, extra := [0, 0, 0, 0] }

theorem hyp_EngineCompletion : (let s := engine [] [doneCmd 0]
    (s.engine (.copy 0 0)).fly = [doneCmd 0] ∧ (doneCmd 0).done = true ∧ (doneCmd 0).outs = [] ∧ (doneCmd 0).fn ≠ 1 ∧ (doneCmd 0).stopped = false) ∧
    ((doneCmd 1).fn = 1 ∧ (doneCmd 1).waiting = false ∧ ((engine [] [doneCmd 1]).part p0).unit.bound = none ∧ ((engine [] [doneCmd 1]).part p0).unit.q.length < 8) ∧
    (let k : Cmd := { doneCmd 1 with num := 3, waiting := true }
     let s : State := { engine [] [k, doneCmd 0] with parts := [(p0, { unit := { bound := some 2 } })] }
     (s.engine (.copy 0 0)).fly = [k, doneCmd 0] ∧ k.num ≠ (doneCmd 0).num ∧ k.done = true ∧ k.stopped = false ∧ (s.part p0).unit.bound = some 2 ∧ 2 ≠ k.gnum) ∧
    ({ doneCmd 1 with stopped := true } : Cmd).stopped = true := by decide +kernel

def mmaTuple : List Nat := [0, 0, 2 ^ 23, 0]

theorem hyp_MatrixEvents : (let c : Cmd := { cmd 1 1 mmaTuple with started := true, hi := 1, buf := [(0, 5, true)] }
    let s : State := { on [] with parts := [(p0, { unit := { q := [c] } })] }
    (s.part p0).unit.q = c :: [] ∧ c.fn = 1 ∧ c.started = true ∧ c.done = false ∧ c.outs = [] ∧ c.hi = 1 ∧ c.buf.any (·.2.2) = true) ∧
    (let c : Cmd := { cmd 1 1 mmaTuple with started := true, hi := 1 }
     let u : MUnit := { q := [c] }
     c.buf.any (·.2.2) = false ∧ (mmaOf c.tup).clear = false ∧ (mmaRow u c).2 = false ∧ (({ e := 5, clear := false } : AccRow).e ≠ (mmaOf c.tup).e)) ∧
    (let c : Cmd := { cmd 1 1 mmaTuple with started := true, aux := [4] }
     let s : State := { on [] with parts := [(p0, { unit := { q := [c] } })] }
     c.hi = 0 ∧ c.aux = 4 :: [] ∧ c.j < 4 ∧ (s.core c.core).fbuf.any (fun f => f.owner == .unit p0 c.num) = false ∧ 0 < (mmaOf c.tup).nb ∧
       ((s.part p0).unit.bank ((mmaOf c.tup).b0 + 0)).loaded = false) ∧
    (let c : Cmd := { cmd 1 1 mmaTuple with started := true, waiting := true }
     (cmd 2 5 [0]).fn = 5 ∧ (cmd 2 5 [0]).started = false ∧ c.waiting = true ∧ c.done = false) ∧
    (let c : Cmd := { cmd 1 1 mmaTuple with started := true, hi := 1 }
     let u : MUnit := { q := [c], banks := [(0, { loaded := true })] }
     (∀ k, k < (mmaOf c.tup).nb → (u.bank ((mmaOf c.tup).b0 + k)).loaded = true) ∧ (u.row c.j).clear = true) ∧
    (cmd 1 1 mmaTuple).started = false ∧ (cmd 1 0 [0, 0, 0]).fn ≠ 1 ∧
    (let c : Cmd := { cmd 1 3 [2 ^ 13] with started := true, done := true }
     c.done = true ∧ c.outs = [] ∧ c.fn = 3 ∧ (tw c.tup 0).testBit 13 = true ∧ c.stopped = false) := by decide +kernel

def task (target fn : Nat) (tup : List Nat) : Task :=
  { num := 1, high := false, inputs := [], target, fn, tup := tup.map (BitVec.ofNat 32), cmd := cmd 1 fn tup, ready := true }

def withTask (k : Task) : State := { on [] with cores := [(c0, { tlb := [page], tasks := [(0, k)] })] }

/-- A task that is issued; one whose target is full, with another of that class for another target; one of a group that has gone. -/
theorem hyp_TaskIssue : (let k := task 2 0 [0, 0, 0x2000, 0, 1]
    let s := withTask k
    (s.core c0).tasks.filter (fun e => e.2.ready) = [(0, k)] ∧ s.alive (gidOf k.cmd.owner) k.cmd.gnum = true ∧
      (∀ g ∈ s.groups, g.2.num = k.cmd.gnum → g.2.faulted = false) ∧
      (s.issueTask c0 k).isSome = true ∧ s.tagOk k.cmd.region k.cmd.tag.toNat = true ∧ recordOk (taskRecord k) = true) ∧
    (let k := task 0 0 cpyTuple
     let m : Task := { task 2 0 [0, 0, 0x2000, 0, 1] with num := 2 }
     let s : State := { withTask k with copies := [(c0, { q := List.replicate 64 (cmd 2 0 cpyTuple) })] }
     (s.issueTask c0 k).isNone = true ∧ s.alive (gidOf k.cmd.owner) k.cmd.gnum = true ∧ k.high = m.high ∧ k.num < m.num ∧ targetOf c0 k ≠ targetOf c0 m ∧
       targetOf c0 k = targetOf c0 k ∧ (s.issueTask c0 m).isSome = true) ∧
    (let k : Task := { task 0 0 cpyTuple with cmd := { cmd 1 0 cpyTuple with gnum := 7 } }
     (withTask k).alive (gidOf k.cmd.owner) k.cmd.gnum = false) := by decide +kernel

/-- A kernel header: one thread of 32 registers, entry at 0x40; `v` bytes of vault. -/
def header (v : Nat) : List Byte :=
  leBytes 4 0x594B0001 ++ leBytes 2 1 ++ leBytes 2 0 ++ leBytes 4 0x40 ++ leBytes 2 32 ++ leBytes 2 1 ++ leBytes 4 0 ++ leBytes 4 v ++ List.replicate 232 0

theorem test_header : headerOk (header 0) = true ∧ (header 0).length = 256 := by decide +kernel

/-- A launch of `n` groups whose groups are being handed out, of queue 1. -/
def launch (n v : Nat) : Launch :=
  { die := 0, q := some 1, num := 0, words := [0x01000000, 0, 0x2000, 0, 1, 2, 1, 0, 0, 0, 0, 0, 0, 0, 0, 1], region := 1, ctx := 1, phase := 4
    count := n, header := header v }

def launching (l : Launch) : State := { on [] with groups := [], threads := [], launches := [(1, l)] }
def record : Bind := { valid := true, slot := 0, core := 0, num := 1, launch := 1, region := 1 }
def binding (v : Nat) : State := { launching (launch 1 v) with dies := [(0, { slots := [(0, record)] })] }

/-- A record that can be bound, and one refused for want of vault; the pair of a block pair's; one whose header is still to be read. -/
theorem hyp_GroupBinding : (∀ v ∈ [0, 2 ^ 23], let s := binding v
    let r := s.bind 0 0
    let l := launch 1 v
    let x := { s.newGroup 1 l r.num with block := r.block }
    Claims.leads s 0 0 ∧ r.valid = true ∧ r.restore = false ∧ r.status % 256 ≠ 1 ∧ s.halted r.region = false ∧ AMap.find s.launches r.launch = some l ∧ l.phase = 4 ∧
      l.dead = false ∧ x.shadow = 0 ∧ l.env = none ∧ r.partner = false ∧ s.unmet ⟨0, r.core⟩ r.slot x (List.range ((l.threads + 31) / 32)) none false = (if v = 0 then 0 else 3)) ∧
    (let s : State := { launching (launch 1 0) with
       regions := [(1, { region with shadow := 2 })], dies := [(0, { slots := [(0, { record with partner := true }), (1, { record with core := 16, num := 2 })] })] }
     let x := s.newGroup 1 (launch 1 0) 1
     x.shadow = 2 ∧ (s.bind 0 0).partner = true ∧ (s.bind 0 1).valid = true ∧ otherCluster 0 16 = true ∧ s.unmet ⟨0, 0⟩ 0 x [0] none true = 0 ∧
       s.unmet ⟨0, 16⟩ 0 x [0] none true = 0 ∧ Claims.leads s 0 0) ∧
    (∀ b ∈ [header 0, []], let l : Launch := { launch 1 0 with header := [], words := (launch 1 0).words.set 2 0x200 }
     let s : State := { launching l with
       mem := Memory.writeAll [] (cellsAt 0x10200 b), cores := [(⟨0, 64⟩, { tlb := [page] }), (c0, { tlb := [page] })], dies := [(0, { slots := [(0, record)] })] }
     (match s.launchRead 1 l 0x200 256 with
      | .ok s1 bs => (AMap.find s1.launches 1).isSome && bs.all (fun b => !b.2) && headerOk (bs.map (·.1)) == !b.isEmpty
      | _ => false) = true) := by unfold Claims.leads; decide +kernel

/-- One page not there: the group can leave on the fault, and on the request of a launch that starves; one that runs does not leave when asked, but at
the limit; one on its way out, draining, with writes of its block under way, and without. -/
theorem hyp_GroupsLeave : (let p : Parked := { owner := .thread t0, ctx := 1, va := 0x20000, level := 2, kind := 0, tag := 0, group := 1, at_ := 0 }
    let s : State := { withThread group { thread [] with status := .parked } with
      dies := [(0, { cycle := 65536, starving := [(1, 1)] })], cores := [(c0, { fbuf := [p] })] }
    (AMap.find s.groups g0).isSome = true ∧ (s.grp g0).twin = none ∧ (s.grp g0).leaving = none ∧ (s.grp g0).st = .resident ∧
      p ∈ (s.core ⟨g0.die, g0.core⟩).fbuf ∧ p.owner = .thread t0 ∧ gidOf t0 = g0 ∧ p.at_ + 2048 ≤ s.now g0.die ∧ Claims.away s g0 Claims.longWait ∧
      (∃ e ∈ (s.die g0.die).starving, e.2 = (s.grp g0).num) ∧ s.parts = [] ∧ s.exhausted treeDepth 1 = false) ∧
    (let s : State := { withThread { group with st := .preempting } (thread []) with dies := [(0, { cycle := 65536 })] }
     (s.grp g0).st = .preempting ∧ (∃ e ∈ s.threads, gidOf e.1 = g0 ∧ liveThr e.2 = true ∧ e.2.status = .ready) ∧
       (s.grp g0).preAt + (s.die g0.die).preLimit ≤ s.now g0.die) ∧
    (on []).exhausted treeDepth 1 = false ∧ ((on []).die 0).starving = [] ∧
    (∀ n ∈ [0, 2], let s := withThread { group with leaving := some 1, leaveStep := n } { thread [] with status := .draining }
     (AMap.find s.groups g0).isSome = true ∧ (s.grp g0).leaving = some 1 ∧ (∀ f ∈ (s.core c0).fbuf, f.owner ≠ .block g0) ∧
       (∃ e ∈ s.threads, gidOf e.1 = g0 ∧ e.2.status = .draining) ∧ (∀ a ∈ s.accs, a.2.owner ≠ .block g0)) ∧
    (match (on []).blockSend g0 [(0x100, [(1, false)])] with | (_, b) => b) = true := by unfold Claims.away; decide +kernel

/-- A group that is out, and a record that brings it back. -/
def returningGroup (a : AMap Nat Acc) : State := { launching (launch 1 0) with
  outs := [{ g := { group with st := .out, num := 1 }, thr := [((0, false), { thread [] with status := .saved })], kind := 2, was := g0, views := [(0, [((0, 0), 3)])] }]
  dies := [(0, { slots := [(0, { record with restore := true })] })], accs := a }

/-- The group in its slot, to be restored from its block on the page. -/
def restoringGroup (a : AMap Nat Acc) : State := { withThread { group with st := .restoring, block := 0x400 } { thread [] with status := .saved } with accs := a }

theorem hyp_GroupRestore : (let s := returningGroup []
    Claims.leads s 0 0 ∧ (s.bind 0 0).valid = true ∧ (s.bind 0 0).restore = true ∧ (s.bind 0 0).status % 256 ≠ 1 ∧ (s.bind 0 0).partner = false ∧
      s.halted (s.bind 0 0).region = false ∧ (s.outs.find? (fun o => o.g.num == (s.bind 0 0).num)).isSome = true ∧
      (∀ o ∈ s.outs, s.unmet ⟨0, 0⟩ 0 o.g o.sheaves (s.homeFor o) false = 0 ∧ (o.thr.map (·.1)).Nodup ∧ o.g.shadow ≠ 2)) ∧
    (∀ o ∈ ({ returningGroup [] with outs := [] } : State).outs, o.g.num ≠ 1) ∧
    (restoringGroup [(9, { owner := .thread t0, core := c0, gnum := 1 })]).underWay 1 = true ∧
    (let s := restoringGroup []
     let x := s.grp g0
     x.st = .restoring ∧ s.underWay x.num = false ∧ (∀ f ∈ (s.core ⟨g0.die, g0.core⟩).fbuf, f.owner ≠ .block g0) ∧
       (match State.blockRead (s.blockSpace g0 x) (piecesOf (x.block + 16) 256) s with | (_, none, bs) => bs.length == 256 | _ => false) = true ∧
       (∀ e ∈ s.threads, gidOf e.1 = g0 → e.2.status ≠ .draining)) := by unfold Claims.leads; decide +kernel

theorem hyp_GroupRetirement : (let s : State := { withThread { group with st := .ending } { thread [] with status := .exited } with launches := [(1, { launch 1 0 with q := none, live := 1 })] }
    let x := s.grp g0
    (AMap.find s.groups g0).isSome = true ∧ x.twin = none ∧ x.shadow = 0 ∧ x.st = .ending ∧ s.accs = [] ∧
      (∀ e ∈ s.threads, gidOf e.1 = g0 → e.2.status ≠ .draining ∧ e.2.held = []) ∧
      s.parts = [] ∧ x.isShadow = false ∧ x.launch = some 1 ∧ (AMap.find s.launches 1).map (·.q) = some none ∧ s.region x.region = some region ∧ region.parent = 0 ∧
      region.block = 0 ∧ ∀ e ∈ s.groups, e.1 ≠ g0 → e.2.st ≠ .resident) ∧
    ((on []).grp g0).st ≠ .ending ∧ ((withThread group { thread [] with status := .draining }).thr t0).status = .draining := by decide +kernel

/-- Queue 1 holds one record, in its storage at 0x50000. -/
def queue : Queue := { die := 0, push := 0x60000, cap := 4, region := 1, quantum := 1, storage := 0x50000, accepted := 1, entries := [{ num := 0, words := [], launch := none, done := false }] }
def queued (ws : List Nat) : State := { launching (launch 1 0) with
  launches := [], queues := [(1, queue)], mem := Memory.writeAll [] (cellsAt 0x50000 (ws.flatMap (leBytes 4))) }
def goodRecord : List Nat := [0x01000000, 0, 0x2000, 0, 1, 2, 1, 0, 0, 0, 0, 0, 0, 0, 0, 1]

/-- A record that keeps every limit, one that breaks one, and one with a poisoned word. -/
theorem hyp_LaunchSteps : (∀ ws ∈ [goodRecord, []], let s := queued ws
    s.queue? 1 = some queue ∧ queue.call = false ∧ s.launches = [] ∧ queue.entries = [{ num := 0, words := [], launch := none, done := false }] ∧
      (∀ r ∈ s.heldWords queue { num := 0, words := [], launch := none, done := false }, r.p = false) ∧ AMap.find s.launches s.nextId = none ∧
      recordOk ((s.heldWords queue { num := 0, words := [], launch := none, done := false }).map (·.v)) = decide (ws ≠ [])) ∧
    ((queued goodRecord).admitted 1 1 = true ∧ (queued goodRecord).tagOk 1 0 = true) ∧
    (let s : State := { queued goodRecord with poison := [0x50008] }
     ((s.heldWords queue { num := 0, words := [], launch := none, done := false }).getD 1 {}).p = false ∧
       ∃ r ∈ s.heldWords queue { num := 0, words := [], launch := none, done := false }, r.p = true) := by decide +kernel

/-- The oldest record of its queue at its first step, valid and not; one before it that has not begun. -/
theorem hyp_LaunchOrder : (∀ b ∈ [false, true], let x : Launch := { launch 1 0 with phase := 0, invalid := b }
    let s : State := { launching x with queues := [(1, { queue with entries := [{ num := 0, words := [], launch := some 1, done := false }] })] }
    s.launches = [(1, x)] ∧ x.q = some 1 ∧ x.dead = false ∧ x.phase = 0 ∧ (∀ d ∈ (s.core (agent x.die)).fbuf, d.owner ≠ .launch 1) ∧
      (s.queue? 1).map (fun y => y.entries.all fun f => f.launch.isSome && decide (x.num ≤ f.num)) = some true) ∧
    (let x : Launch := { launch 1 0 with phase := 0, num := 1 }
     let f : Entry := { num := 0, words := [], launch := some 2, done := false }
     f.num < x.num ∧ State.notBegun { launching x with launches := [(1, x), (2, { x with num := 0 })] } f = true) := by decide +kernel

/-- What a launch's read brings. -/
def came (r : LRes) (f : State → List (Byte × Bool) → Bool) : Bool :=
  match r with
  | .ok s bs => f s bs
  | _ => false

/-- A launch at its later steps: the count in the record or in memory, the header, the wait word. -/
def atStep (phase count wait : Nat) : State :=
  let x : Launch := { launch 1 0 with phase, words := [0x01000000, 0, 0x2000, 0, 1, 2, BitVec.ofNat 32 count, 0, 0x300, 0, 0, 0, 0x304, 0, BitVec.ofNat 32 wait, 1] }
  { State.withWordsAt (launching x) 0x300 [3, 2] with queues := [(1, { queue with entries := [] })], cores := [(⟨0, 64⟩, { tlb := [page] }), (c0, { tlb := [page] })] }

theorem hyp_LaunchSteps_later : (∀ p ∈ [1, 2, 3], ∀ n ∈ [1, 0xFFFFFFFF], ∀ x ∈ (atStep p n 2).launches, x.1 = 1 ∧ x.2.q = some 1 ∧ x.2.dead = false ∧ x.2.phase = p ∧
      bits (lw x.2.words 0) 16 8 = 0 ∧ lw x.2.words 6 = n ∧
      came ((atStep p n 2).launchRead 1 x.2 (la x.2.words 8) 4) (fun s1 bs => (AMap.find s1.launches 1 == some x.2) && leNat (bs.map (·.1)) == 3 && bs.all fun b => !b.2) = true ∧
      came ((atStep p n 2).launchRead 1 x.2 (la x.2.words 12) 4) (fun _ bs => leNat (bs.map (·.1)) == 2) = true ∧ lw x.2.words 14 = 2) := by decide +kernel

theorem hyp_LaunchEnds : (let x := { launch 1 0 with next := 1 }
    let s : State := { launching x with queues := [(1, { queue with entries := [] })] }
    AMap.find s.launches 1 = some x ∧ x.live = 0 ∧ s.launchBusy 1 = false ∧ x.dead = false ∧ x.phase = 4 ∧ x.count ≤ x.next ∧ (∀ d ∈ s.dies, ∀ b ∈ d.2.slots, b.2.valid = false)) ∧
    (∀ tlb ∈ [[page], []], let x : Launch := { launch 1 0 with phase := 5, words := [0x01000000, 0, 0x2000, 0, 1, 2, 1, 0, 0, 0, 0x300, 0] }
     let s : State := { launching x with cores := [(⟨0, 64⟩, { tlb })] }
     AMap.find s.launches 1 = some x ∧ x.phase = 5 ∧ x.dead = false ∧ la x.words 10 = 0x300 ∧ (∀ a ∈ s.accs, a.2.gnum ∉ x.gnums) ∧ (s.core (agent x.die)).fbuf = [] ∧
       (match (s.setView (agent x.die) 0 x.view).xlate (s.launchSpace 1 x) 0x300 3 with
        | .ok s1 fa => !tlb.isEmpty && (s1.homeRoute 0 fa).isSome && s1.nextId == s.nextId
        | .miss s1 _ => tlb.isEmpty && (s1.core (agent 0)).fbuf.isEmpty
        | _ => false) = true) ∧
    la (launch 1 0).words 10 = 0 ∧ ({ launch 1 0 with live := 1 } : Launch).live ≠ 0 ∧ 2 ^ 55 ≤ la ([0, 0, 0, 0, 0, 0, 0, 0, 0, 0, 0, 2 ^ 23] : List Word) 10 := by decide +kernel

/-- A launch that fits at a slot, one that does not; one of a region that has used up its budget. -/
theorem hyp_Scheduling : (∀ v ∈ [0, 2 ^ 23], let x := launch 1 v
    let s : State := { launching x with queues := [(1, { queue with entries := [], deficit := 1 })] }
    s.outs = [] ∧ (s.die 0).slots = [] ∧ s.cands 0 = [(1, x)] ∧ x.q = some 1 ∧ x.core = none ∧ s.levelOf x < 8 ∧ AMap.find s.launches 1 = some x ∧ x.since = none ∧
      s.fitLaunch 0 (1, x) = (if v = 0 then some ((0, 0), none) else none) ∧ s.mayBind x.region = true) ∧
    (let s : State := { launching (launch 1 0) with
       queues := [(1, { queue with entries := [], deficit := 1 })], regions := [(1, { region with budget := 1, consumed := 1, ovr := 2 })] }
     s.mayBind 1 = false ∧ s.cands 0 = [(1, launch 1 0)]) := by decide +kernel

/-- A launch of level 2 starves; a group of a launch of level 7 is bound. -/
theorem hyp_Starvation : (let r : Region := { region with prio := 7 }
    let x : Launch := { launch 1 (2 ^ 23) with since := some 0, words := [0x01000000, 0x700] }
    let s : State := { launching x with
      groups := [(g0, { group with launch := some 3 })], launches := [(1, x), (3, { launch 1 0 with phase := 5 })]
      regions := [(1, r)], dies := [(0, { cycle := 16384 })], queues := [(1, { queue with entries := [], deficit := 1 })] }
    s.cands 0 = [(1, x)] ∧ s.fitLaunch 0 (1, x) = none ∧ s.mayBind x.region = true ∧
      0 + 16384 ≤ s.now 0 ∧ (s.die 0).starving = [] ∧ s.groups = [(g0, s.grp g0)] ∧ (s.grp g0).st = .resident ∧ (s.grp g0).leaving = none ∧ (s.grp g0).twin = none ∧
      (s.grp g0).launch = some 3 ∧ s.parts = [] ∧ (AMap.find s.launches 3).isSome = true ∧ s.levelOf { launch 1 0 with phase := 5 } < s.levelOf x ∧
      s.levelOf x < 8) := by decide +kernel

theorem hyp_FaultDescriptors : (let p : Parked := { owner := .thread t0, ctx := 1, va := 0x20000, level := 2, kind := 0, tag := 0, group := 1, at_ := 0 }
    let s : State := { on [] with cores := [(c0, { fbuf := [p] })] }
    (s.die 0).notices = [] ∧ (s.die 0).spans = [] ∧ s.parkedOn 0 = [(c0, p)] ∧ (AMap.find s.ctxs p.ctx).map (·.cap) = some 16 ∧ (s.homeRoute 0 0x200000).isSome = true) ∧
    (let s : State := { on [] with dies := [(0, { notices := [(50, 0x300000)], spans := [(1, 2)] })] }
     (s.die 0).notices = [(50, 0x300000)] ∧ AMap.find s.accs 50 = none ∧ (s.homeRoute 0 0x300000).isSome = true ∧ (1, 2) ∈ (s.die 0).spans) := by decide +kernel

/-! #### Events of routes, ports, purges and the firmware -/

/-- A control message at die 0, by the link to die 1. -/
def message (b : List Byte) (r : List Route) (o : List RouteOp) : State :=
  { on [] with ctl := [(10, { at_ := 0, link := 5, bytes := b })], dies := [(0, { routes := r, rops := o, cycle := 4194304 })] }

def ann (origin cls ver : Nat) (withdraw : Bool) (path : List Nat) : Ann :=
  { pre := 0x80000000, len := 48, cls, ready := cls == 1, withdraw, ver, origin, path }

/-- An announcement of a home, of a replica, one in another format, one whose path holds the die; with and without a home of another die. -/
theorem hyp_Announcements : (∀ a ∈ [ann 1 0 4 false [1], ann 1 1 4 false [1], ann 1 0 4 false [1, 0]], let s := message (annBytes a) [] []
    (AMap.find s.ctl 10).map (fun m => (m.bytes == annBytes a, Machine.fld m.bytes 64 1)) = some (true, 0) ∧ parseAnn (annBytes a) = some a ∧ a.withdraw = false ∧ a.moved = false ∧
      s.entry 0 a.pre a.len a.origin = none ∧ s.entriesOf 0 a.pre a.len = [] ∧ s.tableSize 0 < 16384 ∧ a.cost + 1 ≤ 0xFFFF) ∧
    parseAnn (pad 255 []) = none ∧ 0 ∈ (ann 1 0 4 false [1, 0]).path ∧ 0 ∉ (ann 1 0 4 false [1]).path ∧
    (let h : Route := { homeRoute with origin := 2 }
     let s := message (annBytes (ann 1 0 5 false [1])) [h] []
     s.entriesOf 0 0x80000000 48 = [h] ∧ h.cls = 0 ∧ h.st = .installed ∧ h.gone = false ∧ h.ver < 5) ∧
    (let h : Route := { homeRoute with origin := 1 }
     let s := message (annBytes (ann 1 0 3 false [1])) [h] []
     s.entry 0 0x80000000 48 1 = some h ∧ (ann 1 0 3 false [1]).ver < h.ver) ∧
    (let s := message (annBytes (ann 1 0 5 false [1])) [homeRoute] []
     s.entriesOf 0 0x80000000 48 = [homeRoute] ∧ homeRoute.origin = s.dieNo 0 ∧ homeRoute.ver < 5 ∧ homeRoute.region = none) := by decide +kernel

/-- A table that is full of homes of other prefixes. -/
def full : State := message (annBytes (ann 1 0 4 false [1])) (List.replicate 16116 { homeRoute with pre := 0x90000000 }) []

theorem hyp_TableFull : full.entry 0 0x80000000 48 1 = none ∧ 16384 ≤ full.tableSize 0 := by
  have none_covers : ∀ n, (List.replicate n { homeRoute with pre := 0x90000000 }).filter (fun r => Route.covers r 0x80000000) = [] := by
    intro n
    rw [List.filter_eq_nil_iff]
    intro r hr
    rw [List.eq_of_mem_replicate hr]
    decide +kernel
  constructor
  · unfold State.entry State.entriesOf State.matching
    rw [show (full.die 0).routes = List.replicate 16116 { homeRoute with pre := 0x90000000 } from rfl, none_covers]
    decide +kernel
  · have size : ∀ l, (message (annBytes (ann 1 0 4 false [1])) l []).tableSize 0 = 268 + l.length := fun _ => rfl
    unfold full
    rw [size, List.length_replicate]

def rop (fn phase : Nat) (acks : List Nat) : RouteOp :=
  { t := some t0, d := 4, fn, pre := 0x80000000, len := 48, ver := 4, acks, born := 0, phase, gnum := 1 }

def msg (ty a b : Nat) (l : List Nat) : List Byte := msgBytes ty 0x80000000 48 0 4 a b l [1, 0]

theorem hyp_asked : ∀ o ∈ [rop 0 0 [], rop 1 0 [], rop 2 0 [], rop 2 2 []], Claims.asked (message (msg 1 0 0 []) [] [o]) 0 o t0 := by
  unfold Claims.asked; decide +kernel

theorem hyp_told : ∀ k ∈ [1, 2, 3, 4, 5, 6], ∃ m, Claims.told (message (msg k 0 0 []) [] []) 10 k m := fun k hk =>
  ⟨{ at_ := 0, link := 5, bytes := msg k 0 0 [] }, by unfold Claims.told; revert k; decide +kernel⟩

/-- A withdrawal that is new here and one whose path holds the die; the first and the last acknowledgement; the limit. -/
theorem hyp_Withdrawals : (let a := ann 1 0 4 true [1]
    let h : Route := { homeRoute with origin := 1, next := 5 }
    let s := message (annBytes a) [h] []
    parseAnn (annBytes a) = some a ∧ a.withdraw = true ∧ a.moved = false ∧ a.origin ≠ s.dieNo 0 ∧ s.entriesOf 0 a.pre a.len = [h] ∧ h.next = 5 ∧ a.path.length < 16 ∧
      s.dieNo 0 ∈ (ann 1 0 4 true [1, 0]).path) ∧
    (let s := message (msg 1 0 3 []) [] [rop 1 0 [1, 2]]
     (s.die 0).rops.find? (fun x => x.fn == 1 && x.pre == Machine.fld (msg 1 0 3 []) 0 8 && x.len == Machine.fld (msg 1 0 3 []) 8 1 && x.ver == Machine.fld (msg 1 0 3 []) 12 4) = some (rop 1 0 [1, 2]) ∧
       Machine.fld (msg 1 0 3 []) 18 2 ∉ (rop 1 0 [1, 2]).acks ∧ (∀ k ∈ s.others 0, k ∈ (rop 1 0 [1, 2]).acks ∨ k = Machine.fld (msg 1 0 3 []) 18 2) ∧ 2 ∈ s.others 0 ∧
       (s.die 0).rops.find? (fun x => x.fn == 1 && decide (x.born + 4194304 ≤ s.now 0)) = some (rop 1 0 [1, 2]) ∧ (rop 1 0 [1, 2]).movedTo = none) := by
  decide +kernel

/-- A withdrawal received for the first time by the link from die 1, and again; one of an entry that stands by another link. -/
theorem hyp_WithdrawalReceipt : (let a := ann 1 0 4 true [1]
    let s := message (annBytes a) [] []
    (a.pre, a.len, a.origin, a.ver) ∉ (s.die 0).wdrSeen ∧ s.inStand a.origin = true ∧ a.path.getLast? = some (s.dieNo 1) ∧ s.entry 0 a.pre a.len a.origin = none) ∧
    (let h : Route := { homeRoute with origin := 1, next := 6 }
     (message (annBytes (ann 1 0 4 true [1])) [h] []).entry 0 0x80000000 48 1 = some h ∧ h.next ≠ 5 ∧ h.st = .installed) := by decide +kernel

theorem hyp_ReplicaListing : (let r : Route := { homeRoute with cls := 1 }
    let s := message (msg 2 0 0 []) [r] [rop 0 0 []]
    (s.die 0).rops.find? (fun x => x.fn == 0 && x.pre == Machine.fld (msg 2 0 0 []) 0 8 && x.len == Machine.fld (msg 2 0 0 []) 8 1 && x.ver == Machine.fld (msg 2 0 0 []) 12 4) = some (rop 0 0 []) ∧
      (s.die 0).rops.find? (fun x => x.fn == 0 && decide (x.born + 4194304 ≤ s.now 0)) = some (rop 0 0 []) ∧ s.entry 0 0x80000000 48 (s.dieNo 0) = some r) := by decide +kernel

/-- A promotion asked of the home; the final marker at the replica; a continuation; the parked-end marker; the two limits. -/
theorem hyp_Moves : (let s := message (msg 3 1 0 []) [homeRoute] []
    s.entry 0 0x80000000 48 0 = some homeRoute ∧ homeRoute.ver = Machine.fld (msg 3 1 0 []) 12 4 ∧ s.streamBefore 10 0 0x80000000 48 = false) ∧
    (let r : Route := { homeRoute with cls := 1 }
     let s := message (msg 4 1 0 []) [r] [rop 2 0 []]
     s.entry 0 0x80000000 48 0 = some r ∧ r.gone = false ∧ (s.die 0).rops.find? (fun o => o.fn == 2 && o.pre == 0x80000000 && o.len == 48 && o.phase == 0) = some (rop 2 0 []) ∧
       (∀ q ∈ s.entriesOf 0 0x80000000 48, q.origin ≠ 0 → q.cls ≠ 1 → q.ver < 5) ∧
       (s.die 0).rops.find? (fun x => x.fn == 2 && decide (x.born + 4194304 ≤ s.now 0) && (x.phase == 0 || x.phase == 2)) = some (rop 2 0 [])) ∧
    (let m : Move := { pre := 0x80000000, len := 48, peer := 1, ver := 5, parked := [], list := [], ended := false, old := false }
     let s : State := { message (msg 6 1 1 [2]) [] [] with dies := [(0, { moves := [m] })] }
     ∃ y ∈ (s.die 0).moves, y.old = false ∧ y.pre = 0x80000000 ∧ y.len = 48) ∧
    (message (msg 3 0 0 []) [{ homeRoute with ver := 3 }] []).entry 0 0x80000000 48 0 ≠ none ∧
    (let r : Route := { homeRoute with cls := 1 }
     let s := message (msg 4 1 0 []) [r] []
     s.entry 0 0x80000000 48 0 = some r ∧ (s.die 0).rops.find? (fun o => o.fn == 2 && o.pre == 0x80000000 && o.len == 48 && o.phase == 0) = none) ∧
    (let p : Pkt := { pkt 16 with fwd := true, fa := 0x80000100, acc := 3 }
     State.streamBefore { message (msg 4 1 0 []) [] [] with net := [(3, p)] } 10 0 0x80000000 48 = true) := by decide +kernel

/-- The former home is told of the new one, die 1. -/
theorem hyp_HandOver : (let v : Move := { pre := 0x80000000, len := 48, peer := 1, ver := 4, parked := [pkt 16], list := [], ended := false, old := true }
    let a : Ann := { ann 1 0 5 false [1] with moved := true, movedFrom := 0 }
    let s : State := { message (annBytes a) [] [] with dies := [(0, { routes := [homeRoute], moves := [v] })] }
    parseAnn (annBytes a) = some a ∧ a.movedFrom = s.dieNo 0 ∧ a.cost + 1 ≤ 0xFFFF ∧ s.tableSize 0 < 16384 ∧ s.entriesOf 0 a.pre a.len = [homeRoute] ∧
      (s.die 0).moves.find? (fun y => y.old && !y.ended && y.pre == a.pre && y.len == a.len) = some v) := by decide +kernel

def lanes (f : LState) : List LState := (List.range 8).map fun k => if k = 3 then f else .dark
def withPort (x : Port) : State := { on [] with ports := [(0, x)], dies := [(0, { cycle := 2000000 })] }
def lop (fn : Nat) : LinkOp := { t := t0, d := 4, fn, port := 0, mask := 8, thresh := 0, slots := [4], badTable := false, born := 0, gnum := 1 }

theorem hyp_links : Claims.links (withPort { op := some (lop 1) }) 0 (lop 1) := by unfold Claims.links; decide +kernel

theorem hyp_PortLocks : (let x : Port := { st := .training, lanes := lanes .waking, named := [3], met := [1] }
    x.lanes.length = 8 ∧ x.named = [3] ∧ x.st = .training ∧ x.met ≠ [] ∧ x.since + 300000 ≤ (withPort x).now 0) ∧
    (let x : Port := { st := .training, lanes := lanes .waking, named := [3, 4] }
     3 ∈ x.named ∧ ∃ j ∈ x.named, j ≠ 3) ∧
    (let x : Port := { st := .waking, lanes := lanes .waking, named := [3] }
     x.named = [3] ∧ x.lanes.getD 3 .dark = .waking ∧ x.since + 60000 ≤ (withPort x).now 0 ∧ lanesIn x .waking = [3]) ∧
    (let x : Port := { st := .active, lanes := lanes .carrying }
     x.lanes.getD 3 .dark = .carrying ∧ ∀ j, j < 8 → j ≠ 3 → x.lanes.getD j .dark ≠ .carrying) ∧
    (let x : Port := { st := .active, lanes := List.replicate 8 .carrying }
     x.lanes.getD 3 .dark = .carrying ∧ ∃ j, j < 8 ∧ j ≠ 3 ∧ x.lanes.getD j .dark = .carrying) := by decide +kernel

def marker (code : Nat) : Flit := { cls := 3, kind := 3, first := true, last := true, poisoned := false, seq := 0, bytes := [BitVec.ofNat 8 code, 1, 0, 1, 0] }

theorem hyp_Markers : (∀ code ∈ [1, 2, 3, 4], let x : Port := { st := .active, rxq := [marker code], sched := [4, 8] }
    x.rxq = marker code :: [] ∧ (marker code).kind = 3 ∧ ((marker code).bytes.getD 0 0).toNat = code ∧ x.op = none ∧ x.st ≠ .training ∧ x.st ≠ .reconfiguring ∧ x.newSched = none ∧
      1 < x.sched.length ∧ x.finalSent = false ∧ x.peer ∉ x.met ∧ x.sched.getD 1 0xFFFF = 8 ∧ 8 ∉ x.greeted ∧ x.sched.getD 2 0xFFFF = 0xFFFF) ∧
    (∃ r ∈ ({ routes := [homeRoute] } : Die).routes, r.st ≠ .orphan ∧ r.gone = false ∧ r.path.length < 16) ∧
    (Machine.fld ({ marker 3 with bytes := [3, 0, 0, 1] } : Flit).bytes 1 2 = 0) ∧
    (let x : Port := { st := .dark, rxq := [marker 4], op := some (lop 4), newSched := some [4], oldEpoch := 7 }
     x.op = some (lop 4) ∧ Machine.fld (marker 4).bytes 2 2 ≠ x.oldEpoch ∧ x.newSched = some (lop 4).slots) ∧
    (let x : Port := { st := .reconfiguring, rxq := [marker 1], drainSent := true }
     x.txq = [] ∧ x.prog = [] ∧ (withPort x).requests = [] ∧ (withPort x).net = [] ∧ x.since + 1048576 ≤ (withPort x).now 0) ∧
    (let x : Port := { st := .reconfiguring, rxq := [marker 2], finalSent := true, op := some (lop 3) }
     x.finalSent = true ∧ (lop 3).fn = 3 ∧ x.op = some (lop 3)) := by decide +kernel

def flit : Flit := { cls := 1, kind := 0, first := true, last := true, poisoned := false, seq := 0, bytes := [] }

theorem hyp_FramesOut : (let x : Port := { st := .active, carry := [0], prog := [((0xFFFF, 1), [flit])], allow := [((0xFFFF, 1), { a := 1 })] }
    x.st = .active ∧ (withPort x).sending 0 = true ∧ x.sinceRefresh < 255 ∧ x.prog = [((x.peer, 1), flit :: [])] ∧ x.permits x.peer 1 = true ∧ x.permits x.peer 2 = false ∧ x.txq = [] ∧
      x.frame = [] ∧ x.marked = none ∧ x.newCarry = none) ∧
    (let x : Port := { st := .active, carry := [0], sinceRefresh := 255 }
     (withPort x).sending 0 = true ∧ 255 ≤ x.sinceRefresh) ∧
    (let x : Port := { st := .active, carry := [0], frame := [[], [], [], []], marked := some [0] }
     x.frame.length = 4 ∧ x.op = none ∧ lanesIn x .waking = []) ∧
    (let x : Port := { lastRewrite := some 0, depthWord := 9 }
     x.lastRewrite = some 0 ∧ 0 + 64 ≤ (withPort x).now 0 ∧ (withPort x).depthOf x ≠ x.depthWord) ∧
    (∀ k ∈ [4, 201], let p : Pkt := { pkt k with dst := 9 }
     let x : Port := { st := .active, carry := [0], peer := 9, txq := [p], allow := [((9, 1), { a := 1 })] }
     (withPort x).sending 0 = true ∧ x.prog = [] ∧ x.sched.length ≤ 1 ∧ x.drainSent = false ∧ ((withPort x).flitPayloads (pkt 4)).length = 1 ∧
       x.permits x.peer (kindClass 4) = true ∧ ({ x with allow := [] } : Port).permits x.peer (kindClass 4) = false) ∧
    (let x : Port := { st := .active, carry := [0], sched := [4, 8], slotLen := 100, frame := [] }
     (withPort x).guarded 0 = true ∧ (withPort x).sending 0 = false) ∧
    (let x : Port := { st := .active, carry := [0] }
     x.frame = [] ∧ (withPort x).guarded 0 = false ∧ x.sinceRefresh < 252 ∧ 255 ≤ ({ x with sinceRefresh := 255 } : Port).sinceRefresh) := by decide +kernel

/-- A refresh; a relayed request at its die, on its way to another die of the package and after 16 hops; a relayed response of a request kept here. -/
theorem hyp_FramesIn : (List.replicate 1152 (0 : Byte)).length = 1152 ∧ ({ st := .active } : Port).st ≠ .dark ∧ (({} : Port).st = .dark ∧ ({} : Port).newSched = none) ∧
    (let f : Flit := { cls := 3, kind := 2, first := true, last := true, poisoned := false, seq := 0, bytes := [] }
     ({ rxq := [f] } : Port).rxq = f :: [] ∧ f.kind = 2) ∧
    (let p : Pkt := { pkt 2 with relay := true }
     let s := moving p
     AMap.find s.net 10 = some p ∧ s.relayBefore 10 p = false ∧ s.purged p.at_ p = false ∧ p.port.getD 0 < 4 ∧ 10 < s.nextId ∧ isRequest p = true ∧
       s.local? p.dst = some p.at_ ∧ s.local? 1 = some 1 ∧ 1 ≠ p.at_ ∧ s.local? 9 ≠ some p.at_) ∧
    (let p : Pkt := { pkt 5 with relay := true }
     kindClass p.kind = 1 ∧ isRequest p = false ∧ (AMap.find ([((p.dst, p.acc), 7)] : AMap (Nat × Nat) Nat) (p.dst, p.acc)).isSome = true) ∧
    (let p : Pkt := { pkt 2 with relay := true }
     State.relayBefore { moving p with net := [(9, p), (10, p)] } 10 p = true) := by decide +kernel

/-- `polyEval` with every partial value computed at once. -/
def evalStrict (x : Nat) : List Nat → Nat → Nat
  | [], v => v
  | c :: p, v => match Nat.xor (gfMul v x) c with
    | 0 => evalStrict x p 0
    | n + 1 => evalStrict x p (n + 1)

theorem evalStrict_eq (x : Nat) (p : List Nat) : ∀ v, evalStrict x p v = p.foldl (fun v c => Nat.xor (gfMul v x) c) v := by
  induction p with
  | nil => intro v; rfl
  | cons c p ih =>
    intro v
    simp only [evalStrict, List.foldl_cons]
    cases h : Nat.xor (gfMul v x) c <;> simp [ih]

/-- A word whose syndromes are 0 is decoded without a correction. -/
theorem rsDecode_clean (w : List Nat) (h : ((List.range 16).all fun j => evalStrict (gfPow j) w 0 == 0) = true) :
    (rsDecode w).map (·.2) = some 0 := by
  have hs : (syndromes w).all (· == 0) = true := by
    simpa [syndromes, polyEval, evalStrict_eq, List.all_eq_true] using h
  simp [rsDecode, hs]

/-- A frame of R340: one flit of a control packet, of the management class, and three idle flits, with the parity of R340. -/
def cleanFrame : List Byte :=
  [0, 0, 0, 0, 0, 0, 0, 0, 0, 240, 0, 240, 15, 225, 15, 225] ++ List.replicate 64 0 ++ [3] ++ List.replicate 191 0 ++
  ([0, 0, 0, 0, 0, 0, 0, 0, 0, 194, 0, 194, 30, 247, 30, 247] ++ List.replicate 256 0) ++ ([0, 0, 0, 0, 0, 0, 0, 0, 0, 194, 0, 194, 30, 247, 30, 247] ++ List.replicate 256 0) ++
  ([0, 0, 0, 0, 0, 0, 0, 0, 0, 194, 0, 194, 30, 247, 30, 247] ++ List.replicate 256 0) ++
  [70, 161, 70, 161, 3, 156, 3, 156, 115, 245, 115, 245, 37, 9, 38, 9, 129, 195, 129, 195, 236, 144, 236, 144, 117, 204, 117, 204, 142, 33, 142, 33] ++
  [115, 94, 115, 94, 179, 12, 179, 12, 102, 166, 102, 166, 83, 240, 83, 240, 77, 52, 77, 52, 30, 250, 30, 250, 19, 54, 19, 54, 34, 167, 34, 167]

theorem cleanFrame_word (c : Nat) (h : c < 4) : (rsDecode (codeword cleanFrame c)).map (·.2) = some 0 := by
  have h : c = 0 ∨ c = 1 ∨ c = 2 ∨ c = 3 := by omega
  rcases h with h | h | h | h <;> subst h <;> exact rsDecode_clean _ (by decide +kernel)

theorem hyp_FramesIn_clean : cleanFrame.length = 1152 ∧ (∀ r ∈ (List.range 4).map fun c => rsDecode (codeword cleanFrame c), r.map (·.2) = some 0) ∧
    (parseHead (cleanFrame.take 16)).map (fun h => (h.kind, h.cls, h.poisoned)) = some (0, 3, false) ∧ (cleanFrame.getD 80 0).toNat < 7 ∧
    (∀ k, k = 1 ∨ k = 2 ∨ k = 3 → (parseHead ((cleanFrame.drop (272 * k)).take 16)).map (·.kind) = some 1) := by
  refine ⟨by decide +kernel, ?_, by decide +kernel, by decide +kernel, ?_⟩
  · intro r h
    obtain ⟨c, hc, rfl⟩ := List.mem_map.mp h
    exact cleanFrame_word c (List.mem_range.mp hc)
  · rintro k (rfl | rfl | rfl) <;> decide +kernel

/-- A frame of R340 that carries a read request of one byte, with three idle flits. -/
def requestFlit : List Byte :=
  [0, 0, 0, 0, 9, 0, 9, 0, 0, 0, 0, 0, 0, 0, 0, 0, 0, 1, 0, 1, 9, 0, 9, 0, 0, 0, 0, 0, 145, 232, 145, 232, 0, 1, 1, 0, 0, 0, 0, 0, 1] ++ List.replicate 215 0
def requestFrame : List Byte :=
  [0, 0, 0, 0, 0, 0, 0, 0, 0, 48, 0, 48, 67, 56, 67, 56] ++ requestFlit ++
  ([0, 0, 0, 0, 0, 0, 0, 0, 0, 194, 0, 194, 30, 247, 30, 247] ++ List.replicate 256 0) ++ ([0, 0, 0, 0, 0, 0, 0, 0, 0, 194, 0, 194, 30, 247, 30, 247] ++ List.replicate 256 0) ++
  ([0, 0, 0, 0, 0, 0, 0, 0, 0, 194, 0, 194, 30, 247, 30, 247] ++ List.replicate 256 0) ++
  [194, 229, 186, 239, 145, 9, 140, 137, 43, 43, 124, 171, 17, 150, 225, 190, 116, 12, 134, 202, 75, 52, 94, 15, 5, 234, 42, 90, 161, 163, 124, 152] ++
  [167, 230, 77, 2, 133, 121, 185, 228, 124, 0, 98, 82, 40, 125, 73, 25, 197, 138, 137, 142, 88, 208, 10, 90, 75, 237, 238, 180, 159, 160, 90, 109]

theorem requestFrame_word (c : Nat) (h : c < 4) : (rsDecode (codeword requestFrame c)).map (·.2) = some 0 := by
  have h : c = 0 ∨ c = 1 ∨ c = 2 ∨ c = 3 := by omega
  rcases h with h | h | h | h <;> subst h <;> exact rsDecode_clean _ (by decide +kernel)

theorem hyp_FramesIn_request : requestFrame.length = 1152 ∧ (∀ r ∈ (List.range 4).map fun c => rsDecode (codeword requestFrame c), r.map (·.2) = some 0) ∧
    (parseHead (requestFrame.take 16)).map (fun h => (h.kind, h.cls, h.poisoned, h.first, h.last)) = some (0, 0, false, true, true) ∧
    (∀ t : State, t.parsePacket 0 [((requestFrame.drop 16).take 256, false)] = .ok { src := 9, fa := 0x10100, acc := 9, want := [0x10100] }) := by
  refine ⟨by decide +kernel, ?_, by decide +kernel, ?_⟩
  · intro r h
    obtain ⟨c, hc, rfl⟩ := List.mem_map.mp h
    exact requestFrame_word c (List.mem_range.mp hc)
  · intro t
    rw [show (requestFrame.drop 16).take 256 = requestFlit by decide +kernel]
    have head : firstGood (requestFlit.take 32) (fun _ => true) = some [0, 0, 9, 0, 0, 0, 0, 0, 0, 1, 9, 0, 0, 0] := by decide +kernel
    have field (o n v : Nat) (h : leNat (([0, 0, 9, 0, 0, 0, 0, 0, 0, 1, 9, 0, 0, 0].drop o).take n : List Byte) = v := by decide +kernel) :
        leNat (([0, 0, 9, 0, 0, 0, 0, 0, 0, 1, 9, 0, 0, 0].drop o).take n : List Byte) = v := h
    have unset (k : Nat) : bit 0 k = false := by simp [bit]
    simp only [State.parsePacket, head, field 4 1 0, field 5 1 0, field 9 1 1, field 0 2 0, field 2 2 9, field 6 2 0, field 8 1 0, field 10 4 9, unset]
    simp only [State.parsePayload]
    simp
    exact ⟨by decide +kernel, ⟨0, by decide +kernel, by decide +kernel⟩, by decide +kernel⟩

theorem hyp_LinkAcceptance : (let s : State := { withPort { st := .dark } with dies := [(0, { linkq := [lop 1] })] }
    let o := lop 1
    (s.die 0).linkq = o :: [] ∧ o.t.sh = false ∧ s.slotOf (gidOf o.t) o.gnum = some (gidOf o.t) ∧ (s.grp (gidOf o.t)).num = o.gnum ∧ (s.grp (gidOf o.t)).shadow = 0 ∧
      (s.grp (gidOf o.t)).twin = none ∧ (s.port o.port).lanes.length = 8 ∧ (s.port 0).newSched = none) ∧
    (let x : Port := { st := .active, lanes := List.replicate 8 .carrying }
     x.op = none ∧ x.newCarry = none ∧ x.marked = none ∧ (∃ k ∈ lanesIn x .carrying, k ∈ maskLanes (lop 0).mask) ∧ (∃ k ∈ lanesIn x .carrying, k ∉ maskLanes (lop 0).mask)) ∧
    (let x : Port := { st := .parked, lanes := lanes .parked }
     maskLanes (lop 1).mask ≠ [] ∧ ∀ k ∈ maskLanes (lop 1).mask, x.lanes.getD k .dark = .parked) := by decide +kernel

/-- The start of a purge; its first and its last acknowledgement; its release. -/
theorem hyp_Purges : (let s := moving (pkt 13)
    AMap.find s.net 10 = some (pkt 13) ∧ (pkt 13).val2 = 0 ∧ s.local? (pkt 13).dst = some 0 ∧ (s.die 0).filter.length < 16) ∧
    (let o : PurgeOp := { tag := 0, acks := [1, 2, 3], cause := 0, region := 1, t := some (t0, 1), released := false }
     let s : State := { moving { pkt 13 with val2 := 1 } with dies := [(0, { purges := [o] })] }
     (s.die 0).purges = [o] ∧ (pkt 13).src ∉ o.acks ∧ (∀ k, (k = s.dieNo 0 ∨ k ∈ s.others (s.dieNo 0)) → k = (pkt 13).src ∨ k ∈ o.acks)) ∧
    (let o : PurgeOp := { tag := 0, acks := [0, 1, 2, 3], cause := 0, region := 1, t := some (t0, 1), released := true }
     let s : State := { moving { pkt 13 with val2 := 2 } with dies := [(0, { purges := [o], filter := [(0, 1)] })] }
     (s.die 0).purges = [o] ∧ AMap.getD (s.die 0).filter 0 0 ≤ 1 ∧ (s.die 0).purgeWait = [] ∧ s.slotOf (gidOf t0) (BitVec.ofNat 64 1) = some (gidOf t0)) := by
  simp only [forall_eq_or_imp]; decide +kernel

/-- A call at the head of the queue of die 0: its words but the first two, its function and what stands beside it, its caller and region. -/
def calling (fn sub caller : Nat) (ws : List Nat) : State :=
  let e : Entry := { num := 0, launch := none, done := false
                     words := ((1 + 256 * fn + 65536 * sub) :: (caller + 65536) :: 0x400000 :: 0 :: ws).map fun n => { v := BitVec.ofNat 32 n } }
  { on [] with queues := [(callKey 0, { die := 0, push := callAddr 0, cap := 64, region := 0, quantum := 1, storage := 0, call := true, entries := [e] })], sem := 1 }

/-- Each function of R379 with arguments it takes, from master 0. -/
theorem hyp_calls : ∀ x ∈ [(1, 0, 1, []), (1, 0, 2, [1]), (1, 0, 3, [2]), (2, 0, 4, []), (2, 0, 5, [1]), (2, 0, 6, [2]), (3, 0, 7, []), (3, 0, 8, [1]), (4, 0, 9, []), (5, 0, 10, []),
    (6, 0, 11, []), (7, 0, 12, [1]), (7, 0, 13, [2]), (8, 0, 14, []), (8, 0, 15, [1]), (9, 0, 16, []), (9, 0, 17, [1]), (10, 0, 18, []), (11, 0, 19, [0, 0, 65536]), (12, 0, 20, []),
    (13, 0, 21, []), (14, 0, 22, []), (14, 1, 23, []), (15, 0, 24, []), (16, 0, 25, []), (17, 0, 26, []), (18, 0, 27, []), (19, 0, 28, [])],
    (let s := calling x.1 x.2.1 0xFFF0 x.2.2.2
     match s.callHead 0 with
     | none => false
     | some (_, e) => e.step == x.2.2.1 && ((s.die 0).fw == none) && e.fld 0 1 == 1 && e.fld 8 8 % 8 == 0 && (e.fld 2 2 == 0 || x.2.2.1 == 23) && e.argsClean x.2.2.1 &&
         (match s.callerCode e with | some c => !needsSem (e.fld 1 1) || s.sem == c | none => false)) = true := by decide +kernel

/-- A caller that may not call, a dirty argument, and a call whose output is out. -/
theorem hyp_CallChecks : (let s := calling 4 0 5 []
    (match s.callHead 0 with | some (_, e) => s.callerCode e == none | none => false) = true) ∧
    (let s := calling 9 0 0xFFF0 [0x100]
     (match s.callHead 0 with | some (_, e) => e.argsClean 16 | none => true) = false) ∧
    (let s := calling 12 0 0xFFF1 []
     (match s.callHead 0 with | some (_, e) => needsSem (e.fld 1 1) && s.callerCode e == some 2 && s.sem != 2 | none => false) = true) ∧
    (let f : FwEnd := { ids := [9], addr := 0x400000, status := 0, result := 0 }
     let s : State := { calling 4 0 0xFFF0 [] with dies := [(0, { fw := some f })] }
     (s.die 0).fw = some f ∧ ∀ n ∈ f.ids, AMap.find s.accs n = none) := by decide +kernel

theorem hyp_ContextCalls : (let s := calling 1 0 0xFFF0 [0x20100, 0, 0x500000, 0, 0x600000, 0, 16, 0, 0x700000, 0]
    (match s.callHead 0 with
     | some (_, e) => e.fld 16 1 == 0 && e.fld 17 1 == 1 && e.fld 18 2 == 2 && AMap.find s.ctxs 2 == none && e.fld 24 8 % 65536 == 0 && isPow2 (e.fld 40 2) && e.argsClean 1
     | none => false) = true) ∧ (AMap.find (calling 1 0 0xFFF0 []).ctxs 1).isSome = true := by decide +kernel

/-- A region's control block at 0x500000, of region 2. -/
def withBlock (s : State) (va : Nat) (ws : List Nat) : State := { s with mem := Memory.writeAll s.mem (cellsAt va (ws.flatMap (leBytes 4))) }
def read (r : FRes) (f : State → List Byte → Bool) : Bool :=
  match r with
  | .ok s b => f s b
  | _ => false

theorem hyp_RegionCalls : (let s := withBlock (calling 2 0 0xFFF0 [0, 0, 0x500000, 0]) 0x500000 [2, 1, 1]
    read (State.fwPieces 0 9 s 0x500000 128) (fun s1 b => (s1.regionOf b).map (·.1) == some 2 && (s1.region 2).isNone && (s1.queue? (callKey 0)).isSome) = true ∧
      (s.region 1).map (fun x => (x.st, x.block)) = some (0, 0) ∧ s.domainTop treeDepth 1 = 1) ∧
    (let s := withBlock (calling 2 0 0xFFF0 [0x20001, 0, 0x500000, 0]) 0x500000 [1, 0, 1]
     read (State.fwPieces 0 9 s 0x500000 128) (fun s1 b => (s1.regionOf b).map (·.1) == some 1 && (s1.region 1).isSome) = true) ∧
    (∀ k ∈ [0, 9], let s : State := { withBlock (calling 2 0 0xFFF0 [0x20001, 0, 0x500000, 0]) 0x500000 [1, 0, 1] with
       regions := [(1, region), (2, { region with parent := 1, ovr := 4, tagHi := k })] }
     read (State.fwPieces 0 9 s 0x500000 128) (fun s1 b => match s1.regionOf b with
       | some (n, x) => n == 1 && decide (x.parent = 0) && (({ s1 with regions := AMap.set s1.regions 1 x } : State).tagsNest == decide (k = 0))
       | none => false) = true) := by decide +kernel

/-- A queue's control block at 0x500000; no region named; the status blocks announced. -/
theorem hyp_QueueAndSemaphoreCalls : (let s := withBlock (calling 3 0 0xFFF0 [0, 0, 0x500000, 0]) 0x500000 [0x60000, 0, 16, 1, 1, 0, 0x50000]
    read (State.fwPieces 0 5 s 0x500000 64) (fun s1 b => (s1.queueOf 0 b).isSome && s1.queues.all fun q => q.2.push != 0x60000) = true) ∧
    read (State.fwPieces 0 5 (calling 3 0 0xFFF0 [0, 0, 0x500000, 0]) 0x500000 64) (fun s1 b => (s1.queueOf 0 b).isNone) = true ∧
    (calling 8 0 0xFFF0 []).entriesOf 0 (statusBase 0) 56 = [] ∧ (calling 9 0 0xFFF0 []).sem = 1 := by decide +kernel

theorem hyp_PackageCalls : (let s := withBlock (calling 19 0 0xFFF0 [0, 0, 0x500000, 0]) 0x500000 [0x10005, 0]
    read (State.fwPieces 0 3 s 0x500000 36) (fun s1 b => Machine.fld b 0 2 == 5 && Machine.fld b 2 1 == 1 && Machine.fld b 3 1 == 0 && (diesAt b 4 (Machine.fld b 2 1)).contains s1.pkg) = true) ∧
    read (State.fwPieces 0 2 (calling 16 0 0xFFF0 [0, 0, 0x500000, 0, 16]) 0x500000 16) (fun s1 b => !s1.flash.imageOk b && s1.flash.active == 0) = true ∧
    (withPort { st := .active, lanes := List.replicate 8 .carrying }).port 0 ≠ {} := by decide +kernel

end Sys2Proof.Tests
end

section
/-! PROOFS. Formats: the words that are no instruction (R32), and the step of a lane about to issue that finds a word. -/

namespace Sys2Proof.Machine

open Sys2Proof

/-! ### The step of the first lane of a glean (R47) -/

/-- With a glean in progress the step is that of its first lane. -/
theorem step_of_glean {s : State} {t : ThreadId} {l : List ThreadId} (hf : s.frozen = false) (hg : s.glean = t :: l) :
    step s = Claims.sent (s.nextLane t l) := by
  have hm : s.moveOn = s.nextLane t l := by rw [State.moveOn, hg]
  rw [step, State.stepOn, if_neg (by simp [hf]), hm]
  cases s.nextLane t l <;> rfl

theorem nextLane_of_ready {s : State} {t : ThreadId} {l : List ThreadId}
    (hr : ({ s with cur := t, glean := l } : State).me.status = .ready)
    (hc : ({ s with cur := t, glean := l } : State).canRun t = true) :
    s.nextLane t l = State.lane { s with cur := t, glean := l } := by
  rw [State.nextLane, if_pos ⟨hr, hc⟩]

/-- A lane with nothing due before its instruction, whose fetch brings words that are no instruction: check 2 of R47 refuses them. -/
theorem lane_of_illegal {s q s1 : State} {w0 w1 w : Nat} (hq : s.bothCopies State.flushed = q) (hraise : q.me.raise = none)
    (himpr : q.me.impr = [] ∨ q.me.issued ≠ none) (hrest : q.me.restoring = false) (hfetch : q.fetch = .ok s1 w0 w1)
    (hd : decode w0 w1 = .illegal w) :
    s.lane = execIllegalInstruction (BitVec.ofNat 32 w) { s1 with ir := irOf w0 w1 } := by
  have hq' : (s.bothCopies fun s => s.setMe (s.me.settled (s.now s.cur.die))) = q := hq
  have hdue : (if q.me.issued.isSome then [] else q.me.impr) = [] := by
    rcases himpr with hi | hi
    · rw [hi, ite_self]
    · rw [if_pos (Option.isSome_iff_ne_none.2 hi)]
  simp only [State.lane, hq', hraise, hdue, hrest, hfetch, hd, Bool.false_eq_true, if_false]

/-- Outside lane-pair mode a word that check 2 refuses raises illegal instruction at its own address, with trapval the word (R48). -/
theorem execIllegalInstruction_of_single {s : State} (w : BitVec 32) (h : s.myGrp.shadow ≠ 1) :
    execIllegalInstruction w s = .next (s.flushed.takeTrap 0x01 s.flushed.me.pc (w.setWidth 64)).endIssue :=
  congrArg (fun u : State => Host.Outcome.next u.endIssue) (if_neg h)

/-! ### Major opcode 0x00 (R32) -/

/-- No row of the opcode table has major opcode 0x00. -/
theorem rawDecode_of_major_zero (p : Option Pfx) {w : Nat} (h : w < 2 ^ 25) : rawDecode p w = none := by
  rw [rawDecode, Nat.div_eq_of_lt h]
  rfl

/-- A word of major opcode 0x00 is no prefix (R31). -/
theorem decodePfx_of_major_zero {w : Nat} (h : w < 2 ^ 25) : decodePfx w = none := by
  rw [decodePfx, Nat.div_eq_of_lt h]
  rfl

theorem decode_of_major_zero {w0 : Nat} (w1 : Nat) (h : w0 < 2 ^ 25) : decode w0 w1 = .illegal w0 := by
  simp only [decode, decodePfx_of_major_zero h, decodeUnder, rawDecode_of_major_zero none h]

/-- Settles O24: no row of the table has major opcode 0x00, so the lane's fetch ends in check 2 of R47. -/
theorem zeroWord : Obligations.ZeroWord := by
  intro s s1 t l w0 w1 hw h q z
  have hd := decode_of_major_zero w1 hw
  refine ⟨hd, fun hf hg hready hrun hraise himpr hrest hfetch hsingle => ?_⟩
  calc step s = Claims.sent (s.nextLane t l) := step_of_glean hf hg
    _ = Claims.sent h.lane := by rw [nextLane_of_ready hready hrun]
    _ = Claims.sent (execIllegalInstruction (BitVec.ofNat 32 w0) z) := by
      rw [lane_of_illegal rfl hraise (.inl himpr) hrest hfetch hd]
    _ = Claims.sent (.next (z.flushed.takeTrap 0x01 z.flushed.me.pc (BitVec.ofNat 64 w0)).endIssue) := by
      rw [execIllegalInstruction_of_single _ hsingle, BitVec.setWidth_ofNat_of_le_of_lt (by decide) (by omega)]

end Sys2Proof.Machine
end

section
/-! PROOFS. Thread: the predicate image (R94), and the traps that a thread asks for (R100). -/

namespace Sys2Proof.Machine

open Sys2Proof

/-! ### The predicate image (R94) -/

theorem predImage_getLsbD (th : Thread) {k : Nat} (h : k < 16) : (predImage th).getLsbD k = th.pred k := by
  by_cases hk : k = 0
  · subst hk; simp [predImage]
  · simp [predImage, Thread.pred, predBit, hk, BitVec.getLsbD_one]

/-! ### Writing a list of predicates -/

/-- Of a list of predicate writes each of which gives index `n` the value `f n`, exactly the indices named change; 0 never does (R35). -/
theorem Thread.pred_foldl_setPred (f : Nat → Bool) (k : Nat) (ns : List Nat) (hns : ∀ n ∈ ns, n < 16) (x : Thread) :
    ((ns.map fun n => (n, f n)).foldl (fun t r => t.setPred r.1 r.2) x).pred k = if k ∈ ns ∧ k ≠ 0 then f k else x.pred k := by
  induction ns generalizing x with
  | nil => simp
  | cons n ns ih =>
    obtain ⟨hn, hns⟩ := List.forall_mem_cons.1 hns
    rw [List.map_cons, List.foldl_cons, ih hns, Thread.pred_setPred _ _ _ _ hn]
    by_cases hk : n = k
    · subst hk; by_cases h0 : n = 0 <;> simp [h0]
    · simp [hk, Ne.symm hk]

theorem Thread.setPred_rest (x : Thread) (n : Nat) (b : Bool) : ∃ p, x.setPred n b = { x with preds := p } := by
  unfold Thread.setPred; split
  · exact ⟨x.preds, rfl⟩
  · exact ⟨_, rfl⟩

/-- Writing predicates changes nothing else of the thread. -/
theorem Thread.foldl_setPred_rest (l : List (Nat × Bool)) (x : Thread) :
    ∃ p, l.foldl (fun t r => t.setPred r.1 r.2) x = { x with preds := p } := by
  induction l generalizing x with
  | nil => exact ⟨x.preds, rfl⟩
  | cons r l ih =>
    obtain ⟨p, hp⟩ := x.setPred_rest r.1 r.2
    rw [List.foldl_cons, hp]
    exact ih { x with preds := p }

/-- A result of latency 1 in predicates alone is written at once (R39): older results no longer write them. -/
theorem Thread.result_one_preds (x : Thread) (now : Nat) (l : List (Nat × Bool)) :
    x.result now 1 { preds := l } =
      l.foldl (fun t r => t.setPred r.1 r.2) { x with pend := x.pend.map fun q => q.without { preds := l } } := by
  simp [Thread.result, Thread.land]

theorem Thread.result_one_preds_rest (x : Thread) (now : Nat) (l : List (Nat × Bool)) :
    ∃ p q, x.result now 1 { preds := l } = { x with preds := p, pend := q } := by
  obtain ⟨p, hp⟩ := Thread.foldl_setPred_rest l { x with pend := x.pend.map fun q => q.without { preds := l } }
  exact ⟨p, _, (x.result_one_preds now l).trans hp⟩

/-- The thread that receives predicates 1 to 15 from a word (R94). -/
def Thread.withPredImage (x : Thread) (now : Nat) (v : Word) : Thread :=
  x.result now 1 { preds := allPreds.map fun n => (n, v.getLsbD n) }

theorem Thread.pred_withPredImage (x : Thread) (now : Nat) (v : Word) (k : Nat) :
    (x.withPredImage now v).pred k = if 1 ≤ k ∧ k < 16 then v.getLsbD k else x.pred k := by
  have hmem : (k ∈ allPreds ∧ k ≠ 0) = (1 ≤ k ∧ k < 16) := by simp [allPreds]; omega
  rw [Thread.withPredImage, Thread.result_one_preds, Thread.pred_foldl_setPred _ _ _ (by decide)]
  simp only [hmem]
  rfl

theorem Thread.withPredImage_frame (x : Thread) (now : Nat) (v : Word) :
    { x.withPredImage now v with preds := x.preds, pend := x.pend } = x := by
  obtain ⟨p, q, h⟩ := x.result_one_preds_rest now (allPreds.map fun n => (n, v.getLsbD n))
  rw [Thread.withPredImage, h]

theorem pmovToRegister_gives (s : State) (ct : Ctl) (d : BitVec 7) :
    Claims.Gives (.pmovToRegister ct d) s 1 d ⟨(predImage s.flushed.me).setWidth 32, false⟩ :=
  fun h => completes_give h (exec_pmovToRegister ct d s) rfl

theorem pmovFromRegister_completes {s : State} {ct : Ctl} {a : BitVec 7} (h : issues (.pmovFromRegister ct a) s = true) :
    Completes (.pmovFromRegister ct a) s (s.flushed.me.withPredImage s.time (s.flushed.readF a.toNat).v) :=
  ends_of_next h (exec_pmovFromRegister ct a s) rfl

/-- Settles O5: the image is the written predicates with bit 0 set; read back, it is a list of predicate writes of latency 1. -/
theorem predicateImage : Obligations.PredicateImage := by
  intro s ct d a th x
  constructor
  · have hbit {k : Nat} (hk : k < 16) : ((predImage th).setWidth 32).getLsbD k = th.pred k := by
      rw [BitVec.getLsbD_setWidth, predImage_getLsbD th hk, decide_eq_true (by omega), Bool.true_and]
    refine ⟨_, pmovToRegister_gives s ct d, fun k hk => hbit hk, hbit (by decide), fun k hk => ?_⟩
    rw [BitVec.getLsbD_setWidth, BitVec.getLsbD_of_ge _ _ hk, Bool.and_false]
  · intro h
    have hpred := th.pred_withPredImage s.time x
    refine ⟨_, pmovFromRegister_completes h, fun k h1 h2 => ?_, ?_, fun k hk => ?_, th.withPredImage_frame s.time x⟩
    · exact (hpred k).trans (if_pos ⟨h1, h2⟩)
    · exact (hpred 0).trans (if_neg (by decide))
    · exact (hpred k).trans (if_neg (by omega))

/-! ### Traps (R87, R100) -/

theorem sizeIn_eq_ite (i : Instr) : sizeIn i = if (ctlOf i).pfx.isSome then 8 else 4 := by
  unfold sizeIn; split <;> simp [*]

/-- An instruction whose own effect is a cause reported after it, and that has changed nothing before, raises that cause at the
address of the next instruction (R87). -/
theorem raises_of_trap {i : Instr} {s : State} {body : State → Res} {cause : Nat} {v : DWord} (h : issues i s = true)
    (hx : exec i s = run i s body) (hb : body s.flushed = .trap s.flushed cause v true) :
    Claims.Raises i s cause (BitVec.ofNat 64 (s.flushed.me.pc.toNat + if (ctlOf i).pfx.isSome then 8 else 4)) v := by
  rw [← sizeIn_eq_ite]
  calc exec i s = .next (settle i (body s.flushed)).endIssue := hx.trans (run_of_issues h body)
    _ = .next (settle i (.trap s.flushed cause v true)).endIssue := by rw [hb]
    _ = _ := rfl

/-- Settles O14: both are causes reported after the instruction. -/
theorem traps : Obligations.Traps := by
  intro s ct n next
  constructor
  · intro h
    rw [BitVec.ofNat_toNat]
    exact raises_of_trap h (exec_trap ct n s) rfl
  · exact fun h => raises_of_trap h (exec_brk ct s) rfl

end Sys2Proof.Machine
end

section
/-! PROOFS. Alu: the values of the integer table (R113). -/

namespace Sys2Proof.Machine

open Sys2Proof

/-! ### Values of the table as numbers (R113) -/

theorem BitVec.sub_eq_ofInt {w : Nat} (x y : BitVec w) : x - y = BitVec.ofInt w ((x.toNat : Int) - y.toNat) := by
  rw [sub_eq_add_neg, sub_eq_add_neg, BitVec.ofInt_add, BitVec.ofInt_neg, BitVec.ofInt_natCast, BitVec.ofInt_natCast,
    BitVec.ofNat_toNat, BitVec.ofNat_toNat, BitVec.setWidth_eq, BitVec.setWidth_eq]

theorem BitVec.add_eq_ofNat {w : Nat} (x y : BitVec w) : x + y = BitVec.ofNat w (x.toNat + y.toNat) := rfl

theorem BitVec.mul_eq_ofNat {w : Nat} (x y : BitVec w) : x * y = BitVec.ofNat w (x.toNat * y.toNat) := rfl

theorem BitVec.shiftLeft_eq_ofNat {w : Nat} (x : BitVec w) (n : Nat) : x <<< n = BitVec.ofNat w (x.toNat * 2 ^ n) :=
  BitVec.eq_of_toNat_eq (by rw [BitVec.toNat_shiftLeft, Nat.shiftLeft_eq, BitVec.toNat_ofNat])

theorem BitVec.ushiftRight_eq_ofNat {w : Nat} (x : BitVec w) (n : Nat) : x >>> n = BitVec.ofNat w (x.toNat / 2 ^ n) := by
  rw [← Nat.shiftRight_eq_div_pow, ← BitVec.toNat_ushiftRight, BitVec.ofNat_toNat, BitVec.setWidth_eq]

/-- Bits [63:32] of a number's low 64 bits. -/
theorem highWord_ofInt (p : Int) : ((BitVec.ofInt 64 p) >>> 32).setWidth 32 = BitVec.ofInt 32 (p / 2 ^ 32) := by
  apply BitVec.eq_of_toNat_eq
  rw [BitVec.toNat_setWidth, BitVec.toNat_ushiftRight, Nat.shiftRight_eq_div_pow, BitVec.toNat_ofInt, BitVec.toNat_ofInt]
  omega

theorem mulHigh_eq_ofInt (x y : Word) : mulHigh x y = BitVec.ofInt 32 (x.toInt * y.toInt / 2 ^ 32) := by
  rw [mulHigh, BitVec.signExtend, BitVec.signExtend, ← BitVec.ofInt_mul, highWord_ofInt]

theorem mulHighU_eq_ofNat (x y : Word) : mulHighU x y = BitVec.ofNat 32 (x.toNat * y.toNat / 2 ^ 32) := by
  have h := highWord_ofInt (x.toNat * y.toNat : Nat)
  rw [BitVec.ofInt_natCast, BitVec.ofNat_mul, BitVec.ofNat_toNat, BitVec.ofNat_toNat] at h
  exact h

theorem shlW_eq_ofNat (x y : Word) : shlW x y = if 32 ≤ y.toNat then 0 else BitVec.ofNat 32 (x.toNat * 2 ^ y.toNat) := by
  rw [shlW, BitVec.shiftLeft_eq_ofNat]

theorem shrW_eq_ofNat (x y : Word) : shrW x y = if 32 ≤ y.toNat then 0 else BitVec.ofNat 32 (x.toNat / 2 ^ y.toNat) := by
  rw [shrW, BitVec.ushiftRight_eq_ofNat]

theorem sraW_eq_ofInt (x y : Word) :
    sraW x y = if 32 ≤ y.toNat then (if x.msb then 0xFFFFFFFF else 0) else BitVec.ofInt 32 (x.toInt / 2 ^ y.toNat) := by
  rw [sraW, BitVec.sshiftRight, Int.shiftRight_eq_div_pow, Nat.cast_pow, Nat.cast_ofNat]

/-- The two parts of a rotation share no bit, so that their union is their sum. -/
theorem rotateLeft_eq_ofNat (x : Word) {n : Nat} (h : n < 32) :
    x.rotateLeft n = BitVec.ofNat 32 (x.toNat * 2 ^ n + x.toNat / 2 ^ (32 - n)) := by
  have hdisjoint : x <<< n &&& x >>> (32 - n) = 0#32 := by
    ext k hk
    by_cases hkn : k < n
    · simp [hkn]
    · simp [BitVec.getLsbD_of_ge x (32 - n + k) (by omega)]
  rw [BitVec.rotateLeft_def, Nat.mod_eq_of_lt h, ← BitVec.add_eq_or_of_and_eq_zero _ _ hdisjoint, BitVec.ofNat_add,
    BitVec.shiftLeft_eq_ofNat, BitVec.ushiftRight_eq_ofNat]

theorem minW_eq_ofInt (x y : Word) : minW x y = BitVec.ofInt 32 (min x.toInt y.toInt) := by
  simp only [minW, BitVec.slt_iff_toInt_lt, min_def_lt, apply_ite (BitVec.ofInt 32), BitVec.ofInt_toInt]

theorem maxW_eq_ofInt (x y : Word) : maxW x y = BitVec.ofInt 32 (max x.toInt y.toInt) := by
  simp only [maxW, BitVec.slt_iff_toInt_lt, max_def_lt, apply_ite (BitVec.ofInt 32), BitVec.ofInt_toInt]

theorem minuW_eq_ofNat (x y : Word) : minuW x y = BitVec.ofNat 32 (min x.toNat y.toNat) := by
  simp only [minuW, BitVec.ult_iff_toNat_lt, min_def_lt, apply_ite (BitVec.ofNat 32), BitVec.ofNat_toNat, BitVec.setWidth_eq]

theorem maxuW_eq_ofNat (x y : Word) : maxuW x y = BitVec.ofNat 32 (max x.toNat y.toNat) := by
  simp only [maxuW, BitVec.ult_iff_toNat_lt, max_def_lt, apply_ite (BitVec.ofNat 32), BitVec.ofNat_toNat, BitVec.setWidth_eq]

theorem mulAdd_eq_ofNat (x y z : Word) : x * y + z = BitVec.ofNat 32 (x.toNat * y.toNat + z.toNat) := by
  rw [BitVec.ofNat_add, BitVec.ofNat_toNat, BitVec.setWidth_eq, BitVec.mul_eq_ofNat]

theorem boolWord_slt (x y : Word) : boolWord (x.slt y) = Claims.flag (x.toInt < y.toInt) := by
  simp only [boolWord, Claims.flag, BitVec.slt_iff_toInt_lt]

theorem boolWord_ult (x y : Word) : boolWord (x.ult y) = Claims.flag (x.toNat < y.toNat) := by
  simp only [boolWord, Claims.flag, BitVec.ult_iff_toNat_lt]

theorem boolWord_beq (x y : Word) : boolWord (x == y) = Claims.flag (x = y) := by
  simp only [boolWord, Claims.flag, beq_iff_eq]

/-! ### What the two shapes of the table give -/

/-- An instruction of two registers gives its function of what they hold, poisoned where one of them is (R110). -/
theorem gives_alu2 {i : Instr} {s : State} {lat : Nat} {d a b : BitVec 7} {f : Word → Word → Word} {v : Word}
    (hx : exec i s = alu2 i lat d a b s f) (hv : f (s.flushed.readF a.toNat).v (s.flushed.readF b.toNat).v = v) :
    Claims.Gives i s lat d ⟨v, (s.flushed.readF a.toNat).p || (s.flushed.readF b.toNat).p⟩ := by
  subst hv
  exact fun h => completes_give h hx rfl

/-- The same for an instruction that reads its destination too (R109). -/
theorem gives_alu3 {i : Instr} {s : State} {lat : Nat} {d a b : BitVec 7} {f : Word → Word → Word → Word} {v : Word}
    (hx : exec i s = alu3 i lat d a b s f)
    (hv : f (s.flushed.readF a.toNat).v (s.flushed.readF b.toNat).v (s.flushed.readF d.toNat).v = v) :
    Claims.Gives i s lat d
      ⟨v, (s.flushed.readF a.toNat).p || (s.flushed.readF b.toNat).p || (s.flushed.readF d.toNat).p⟩ := by
  subst hv
  exact fun h => completes_give h hx rfl

/-- Settles O1: each instruction has one of the two shapes, and its function of words is the number of R113 modulo 2^32. -/
theorem integerTable : Obligations.IntegerTable := by
  intro s ct d a b x y z p2 p3
  exact ⟨gives_alu2 (exec_add ct d a b s) (BitVec.add_eq_ofNat x y),
    gives_alu2 (exec_sub ct d a b s) (BitVec.sub_eq_ofInt x y),
    gives_alu2 (exec_mul ct d a b s) (BitVec.mul_eq_ofNat x y),
    gives_alu2 (exec_mulh ct d a b s) (mulHigh_eq_ofInt x y),
    gives_alu2 (exec_mulhu ct d a b s) (mulHighU_eq_ofNat x y),
    gives_alu2 (exec_and ct d a b s) rfl,
    gives_alu2 (exec_or ct d a b s) rfl,
    gives_alu2 (exec_xor ct d a b s) rfl,
    gives_alu2 (exec_andn ct d a b s) rfl,
    gives_alu2 (exec_shl ct d a b s) (shlW_eq_ofNat x y),
    gives_alu2 (exec_shr ct d a b s) (shrW_eq_ofNat x y),
    gives_alu2 (exec_sra ct d a b s) (sraW_eq_ofInt x y),
    gives_alu2 (exec_rol ct d a b s) (rotateLeft_eq_ofNat x (Nat.mod_lt _ (by decide))),
    gives_alu2 (exec_min ct d a b s) (minW_eq_ofInt x y),
    gives_alu2 (exec_max ct d a b s) (maxW_eq_ofInt x y),
    gives_alu2 (exec_minu ct d a b s) (minuW_eq_ofNat x y),
    gives_alu2 (exec_maxu ct d a b s) (maxuW_eq_ofNat x y),
    gives_alu3 (exec_mad ct d a b s) (mulAdd_eq_ofNat x y z),
    gives_alu2 (exec_slt ct d a b s) (boolWord_slt x y),
    gives_alu2 (exec_sltu ct d a b s) (boolWord_ult x y),
    gives_alu2 (exec_seq ct d a b s) (boolWord_beq x y)⟩

end Sys2Proof.Machine
end
